-- ==== Sys2Proof/Word.lean ====
section
/-! DEFINITION. The bit-vector widths the manual uses, by name. -/

namespace Sys2Proof

/-- One byte of memory, and one side-band byte (R19, R172). -/
abbrev Byte := BitVec 8

/-- One instruction word (R176). -/
abbrev IWord := BitVec 32

/-- A 64-bit frame word, CSR or scalar operand (R26, R197). -/
abbrev Word := BitVec 64

/-- A 512-bit temporary or a 64-byte descriptor (R6, R260). -/
abbrev Vec := BitVec 512

/-- A 256-bit error record or node descriptor (R25, R363). -/
abbrev Rec := BitVec 256

/-- A frame handle or a static destination (R31, R32). -/
abbrev Handle := BitVec 32

end Sys2Proof
end

