-- ==== Sys2Proof/Machine/Flags.lean ====
section
/-! DEFINITION. The side-band bits (R172), as flags of the arithmetic. -/

namespace Sys2Proof.Machine

/-- No flag. -/
def flNone : Byte := 0x00
/-- A result was rounded. -/
def flNX : Byte := 0x01
/-- A nonzero result was tiny and rounded. -/
def flUF : Byte := 0x02
/-- A result overflowed, or a saturating lane clamped. -/
def flOF : Byte := 0x04
/-- An infinity from finite operands. -/
def flDZ : Byte := 0x08
/-- Invalid operation or conversion. -/
def flNV : Byte := 0x10
/-- POISON (R356). -/
def flPOISON : Byte := 0x20
/-- LATE: a hoop result includes late contributions. -/
def flLATE : Byte := 0x40

/-- A flag under a condition. -/
def flIf (c : Bool) (f : Byte) : Byte := if c then f else flNone

/-- A side-band byte marks POISON. -/
def isPoison (b : Byte) : Bool := b.getLsbD 5

end Sys2Proof.Machine
end

