-- ==== Sys2Proof/Syntax.lean ====
section
/-! DEFINITION. The operations and events of the part, one constructor for each row of the opcode table:
the 145 encoded instructions (06_formats_and_assembly.md, R176 to R184) and the 99 events, the steps that the part
takes by itself or at the hand of the outside (95_what_each_step_holds.md). -/

namespace Sys2Proof

/-- A temporary T0 to T7 (R177). -/
abbrev Temp := BitVec 3
/-- A frame word F0 to F511 (R177). -/
abbrev FWord := BitVec 9
/-- A slot S0 to S63 or a tile 0 to 63 (R177). -/
abbrev Slot := BitVec 6
/-- A port P0 to P3, a generator 0 to 3 or a code table CT0 to CT3 (R183). -/
abbrev Port := BitVec 2

/-- The storage types of R146. -/
inductive VType where
  | f32 | b16 | h16 | c8 | i32 | i16 | i8 | ub
  deriving DecidableEq, Repr

/-- The floating types that VARITH accepts (R249). -/
inductive FType where
  | f32 | b16 | h16
  deriving DecidableEq, Repr

/-- The integer types that VINT accepts (R180, R251). -/
inductive IType where
  | i32 | i16 | i8 | ub
  deriving DecidableEq, Repr

/-- Rounding codes (R152). -/
inductive Rnd where
  | rne | rtz | rdn | rup | rna | dyn
  deriving DecidableEq, Repr

/-- Scopes (R122). -/
inductive Scope where
  | core | clus | die | pkg | sys
  deriving DecidableEq, Repr

/-- Scopes of a release send (R134). -/
inductive SendScope where
  | clus | die | pkg | sys
  deriving DecidableEq, Repr

/-- Frame access sizes (R180). -/
inductive FrameSize where
  | d | v | w | ws
  deriving DecidableEq, Repr

/-- Memory access sizes (R180). -/
inductive MemSize where
  | b | h | w | d | v
  deriving DecidableEq, Repr

/-- Split-phase sizes (R180). -/
inductive SplitSize where
  | b | h | w | d | v64 | v128 | v256 | v512
  deriving DecidableEq, Repr

/-- Atomic widths (R180). -/
inductive AWidth where
  | w | d
  deriving DecidableEq, Repr

/-- Branch conditions (R180, R210). -/
inductive BrCond where
  | beq | bne | blt | bge | bltu | bgeu | bra
  deriving DecidableEq, Repr

/-- Compare conditions (R180, R253). -/
inductive CmpCond where
  | eq | ne | lt | le | gt | ge | un
  deriving DecidableEq, Repr

/-- Reduce operations of VRED (R180, R254). -/
inductive RedOp where
  | sum | min | max
  deriving DecidableEq, Repr

/-- Fence kinds (R133). -/
inductive FenceKind where
  | acq | rel | full
  deriving DecidableEq, Repr

/-- A job queue: a cluster's Press queue or copy queue (R70), or a steward core's own copy queue (R435). -/
inductive JobQueue where
  | press (cluster : Nat)
  | copy (cluster : Nat)
  | steward (die : Nat)
  deriving DecidableEq, Repr

/-- What ages (R66, R74): a ready entry of a core by its place in the queue, or a queued job by its id. -/
inductive AgeObject where
  | ready (core place : Nat)
  | job (queue : JobQueue) (id : Nat)
  deriving DecidableEq, Repr

/-- A link direction out of a router (R296, R365), or a device link (R339). -/
inductive LinkId where
  | torus (cluster dir : Nat)
  | device (link : Nat)
  deriving DecidableEq, Repr

/-- A collective that can wait for an absent member (R428). -/
inductive Collective where
  | reduction (ref : Nat)
  | hoop (ref : Nat)
  | ring (cluster entry : Nat)
  deriving DecidableEq, Repr

/-- The array in which an uncorrectable error is met (R402), with where in it. -/
inductive ErrorArray where
  | localSram (core offset : Nat)
  | press (core : Nat)
  | sliceData (pa : Nat)
  | sliceTag (pa : Nat)
  | hbm (pa : Nat)
  | instructionStore (core addr : Nat)
  | coreTable (core : Nat)
  | reductionUnit (cluster : Nat)
  | pressParity (core : Nat)
  | sliceAtomic (pkt : Nat)
  deriving DecidableEq, Repr

/-- How a detected error ends (R362): corrected where it is read, corrected by its retry, or lasting. -/
inductive ErrorEnd where
  | corrected
  | retried
  | lasting
  deriving DecidableEq, Repr

/-- How a start stage goes on (R340, R414, R432): it completed, a device link failed its training in stage 4 and the stage goes
on, or it failed with a cause code and a detail. -/
inductive StageEnd where
  | completed
  | linkFailed (link : Nat)
  | failed (die code detail : Nat)
  deriving DecidableEq, Repr

/-- What the stall detector visits (R431). -/
inductive StallObject where
  | frame (core index : Nat)
  | job (queue : JobQueue) (id : Nat)
  deriving DecidableEq, Repr

/-- A monitor unit (R88, R349): one of a core's own two, or one of another unit of a die by its number there. -/
inductive MonUnit where
  | core (core unit : Nat)
  | other (die unit : Nat)
  deriving DecidableEq, Repr

/-- The firmware images of the boot store (R340, R434). -/
inductive Firmware where
  | security | steward | management
  deriving DecidableEq, Repr

/-- What an inbound RDMA operation names: its queue pair and remote key (R333, R336). -/
structure RdmaKey where
  qpn  : Nat
  rkey : Nat
  deriving DecidableEq, Repr

/-- A job submission as it comes in: its source address and datagram (R337). -/
structure Submission where
  src      : Nat
  datagram : Vec
  deriving DecidableEq, Repr

/-- A firmware image with its signature (R340). -/
structure SignedImage where
  bytes : List Byte
  sig   : List Byte
  deriving DecidableEq, Repr

/-- Every row of spec/opcode_table.json. -/
inductive Instr where
  -- SYS and CONT (R200 to R203)
  | nop
  | endf
  | trap (code : BitVec 6)
  | halt
  | roinv
  | cont (ld st cp tl : BitVec 5) (sl : Slot)
  -- CSR (R204)
  | csrr (td : Temp) (csr : BitVec 12)
  | csrw (ta : Temp) (csr : BitVec 12)
  | csrs (td ta : Temp) (csr : BitVec 12)
  -- immediates and shifts (R207, R208)
  | li (td : Temp) (im : BitVec 20)
  | lih (td ta : Temp) (im : BitVec 20)
  | addi (td ta : Temp) (im : BitVec 20)
  | andi (td ta : Temp) (im : BitVec 20)
  | ori (td ta : Temp) (im : BitVec 20)
  | xori (td ta : Temp) (im : BitVec 20)
  | shli (td ta : Temp) (amt : BitVec 6)
  | shri (td ta : Temp) (amt : BitVec 6)
  | srai (td ta : Temp) (amt : BitVec 6)
  -- INT (R209)
  | add (td ta tb : Temp)
  | sub (td ta tb : Temp)
  | mul (td ta tb : Temp)
  | mulh (td ta tb : Temp)
  | div (td ta tb : Temp)
  | divu (td ta tb : Temp)
  | rem (td ta tb : Temp)
  | and (td ta tb : Temp)
  | or (td ta tb : Temp)
  | xor (td ta tb : Temp)
  | shl (td ta tb : Temp)
  | shr (td ta tb : Temp)
  | sra (td ta tb : Temp)
  | min (td ta tb : Temp)
  | max (td ta tb : Temp)
  | slt (td ta tb : Temp)
  | sltu (td ta tb : Temp)
  | clz (td ta : Temp)
  | popc (td ta : Temp)
  | sel (td ta tb tc : Temp)
  -- branches (R210, R211)
  | br (cc : BrCond) (ta tb : Temp) (off : BitVec 17)
  | jmpi (ta : Temp)
  -- frame words and frames (R212 to R216)
  | fld (size : FrameSize) (t : Temp) (k : FWord)
  | fst (size : FrameSize) (t : Temp) (k : FWord)
  | falloc (td ta : Temp)
  | ffree (ta : Temp)
  | fself (td : Temp)
  | fidx (td ta : Temp)
  -- slots (R217)
  | slotset (n : Slot) (ta : Temp)
  | slotarm (n : Slot) (ta : Temp)
  | slotrd (td : Temp) (n : Slot)
  | slotdis (n : Slot)
  -- tokens (R218)
  | send (rel : Option SendScope) (tv th : Temp) (n : Slot) (k : FWord)
  | sendv (rel : Option SendScope) (tv th : Temp) (n : Slot) (k : FWord)
  | sig (rel : Option SendScope) (th : Temp) (n : Slot) (amount : BitVec 9)
  | sigReg (rel : Option SendScope) (tv th : Temp) (n : Slot)
  -- channels (R222)
  | chpop (vec : Bool) (td : Temp) (p : Port)
  | chpeek (vec : Bool) (td : Temp) (p : Port)
  | chpush (vec : Bool) (ta : Temp) (p : Port)
  | chend (p : Port)
  | chrcfg (ta : Temp) (p : Port)
  -- generators and launches (R224 to R226)
  | lgen (td ta : Temp)
  | lgstop (g : Port)
  | launch (td ta : Temp)
  -- memory (R236 to R243)
  | ld (size : MemSize) (t tb : Temp) (off : BitVec 14)
  | st (size : MemSize) (t tb : Temp) (off : BitVec 14)
  | stt (size : MemSize) (t tb : Temp) (off : BitVec 14)
  | pst (size : MemSize) (t tb : Temp) (off : BitVec 14)
  | lds (size : SplitSize) (k : FWord) (tb : Temp) (sl : Slot)
  | ldro (size : SplitSize) (k : FWord) (tb : Temp) (sl : Slot)
  -- atomics (R244)
  | aadd (wd : AWidth) (scope : Scope) (k : FWord) (tb : Temp) (sl : Slot)
  | aand (wd : AWidth) (scope : Scope) (k : FWord) (tb : Temp) (sl : Slot)
  | aor (wd : AWidth) (scope : Scope) (k : FWord) (tb : Temp) (sl : Slot)
  | axor (wd : AWidth) (scope : Scope) (k : FWord) (tb : Temp) (sl : Slot)
  | amin (wd : AWidth) (scope : Scope) (k : FWord) (tb : Temp) (sl : Slot)
  | amax (wd : AWidth) (scope : Scope) (k : FWord) (tb : Temp) (sl : Slot)
  | aswap (wd : AWidth) (scope : Scope) (k : FWord) (tb : Temp) (sl : Slot)
  | afadd (scope : Scope) (k : FWord) (tb : Temp) (sl : Slot)
  | acas (wd : AWidth) (scope : Scope) (k : FWord) (tb : Temp) (sl : Slot)
  | fence (kind : FenceKind) (scope : Scope)
  -- collectives (R302)
  | hpdef (td ta : Temp)
  | hpput (td ta : Temp)
  | hpwait (td ta : Temp)
  | turndef (td ta : Temp)
  | turngo (td ta : Temp)
  | reddef (td ta : Temp)
  | redput (td ta : Temp)
  | pbdef (td ta : Temp)
  | publ (scope : Scope) (ta : Temp)
  -- VARITH (R249)
  | vadd (ty : FType) (rm : Rnd) (td ta tb : Temp)
  | vsub (ty : FType) (rm : Rnd) (td ta tb : Temp)
  | vmul (ty : FType) (rm : Rnd) (td ta tb : Temp)
  | vfma (ty : FType) (rm : Rnd) (td ta tb tc : Temp)
  | vfms (ty : FType) (rm : Rnd) (td ta tb tc : Temp)
  | vmin (ty : FType) (rm : Rnd) (td ta tb : Temp)
  | vmax (ty : FType) (rm : Rnd) (td ta tb : Temp)
  | vdiv (ty : FType) (rm : Rnd) (td ta tb : Temp)
  | vsqrt (ty : FType) (rm : Rnd) (td ta : Temp)
  | vrcp (ty : FType) (rm : Rnd) (td ta : Temp)
  | vrsq (ty : FType) (rm : Rnd) (td ta : Temp)
  | vexp2 (ty : FType) (rm : Rnd) (td ta : Temp)
  | vlog2 (ty : FType) (rm : Rnd) (td ta : Temp)
  -- VINT (R251)
  | viadd (ty : IType) (sat : Bool) (td ta tb : Temp)
  | visub (ty : IType) (sat : Bool) (td ta tb : Temp)
  | vimul (ty : IType) (sat : Bool) (td ta tb : Temp)
  | vand (ty : IType) (td ta tb : Temp)
  | vor (ty : IType) (td ta tb : Temp)
  | vxor (ty : IType) (td ta tb : Temp)
  | vshl (ty : IType) (sat : Bool) (td ta tb : Temp)
  | vshr (ty : IType) (td ta tb : Temp)
  | vsra (ty : IType) (td ta tb : Temp)
  -- VPERM (R252)
  | vcmp (ty : VType) (cond : CmpCond) (td ta tb : Temp)
  | vsel (ty : VType) (td ta tb tc : Temp)
  | vperm (ty : VType) (td ta tb : Temp)
  | vbcast (ty : VType) (td ta : Temp)
  | vext (ty : VType) (td ta tb : Temp)
  | vins (ty : VType) (td ta tb : Temp)
  | vred (ty : VType) (op : RedOp) (td ta : Temp)
  -- VCVT (R255 to R258)
  | vcvt (src dst : VType) (r : BitVec 3) (part : BitVec 3) (td ta : Temp)
  | vdec (ct : Port) (part : BitVec 3) (td ta : Temp)
  | venc (ct : Port) (part : BitVec 3) (td ta : Temp)
  | ctld (ct : Port) (ta : Temp)
  -- tiles (R262)
  | tdef (tile : Slot) (ta : Temp)
  | tstat (td : Temp) (tile : Slot)
  | trel (tile : Slot)
  -- the Press (R263 to R278)
  | mxfmt (td ta : Temp)
  | mxldw (td ta : Temp)
  | mxstrm (td ta : Temp)
  | mxgang (td ta : Temp)
  | mxrd (td ta : Temp)
  | mxepi (td ta : Temp)
  | mxclr (td ta : Temp)
  | mxscan (td ta : Temp)
  -- the copy unit (R279 to R286)
  | cpy (td ta : Temp)
  | cpym (td ta : Temp)
  | cpyx (td ta : Temp)
  | gath (td ta : Temp)
  | jstat (td ta : Temp)
  | jcan (ta : Temp)
  -- ingest (R287, R292)
  | ings (td ta : Temp)
  | ingq (td : Temp)
  -- PRIV (R227 to R233)
  | rplay
  | tlbinv (ta : Temp)
  | codeseal (td ta : Temp)
  | place (td ta : Temp)
  | cfgld (td ta : Temp)
  | cancel (ta : Temp)
  -- events of a core
  | commitQueueRelease (core : Nat)
  | dispatch (core : Nat)
  | ageing (obj : AgeObject)
  | frameTokenArrival (pkt : Nat)
  | channelTokenArrival (pkt : Nat)
  | creditReturn (pkt : Nat)
  | homeAccess (pkt : Nat)
  | loadCompletion (pkt : Nat)
  | atomicCompletion (pkt : Nat)
  | storeAcknowledgement (pkt : Nat)
  | hostResponse (pkt : Nat) (data : List Byte)
  | continuationPush (core frame : Nat)
  | spilledArrival (pkt : Nat)
  | writeBackComplete (core frame : Nat)
  | fillBackStart (core frame : Nat) (victim : Option Nat)
  | fillBackComplete (core frame : Nat)
  | generatorEmit (core gen : Nat)
  | lgenArrival (pkt : Nat)
  | launchAtTarget (pkt : Nat)
  | workCounterUpdate (pkt : Nat)
  | purge (pkt : Nat)
  | purgeAcknowledgement (die index : Nat)
  | descriptorFetchComplete (core vnode : Nat)
  | jobIssue (queue : JobQueue)
  | pressJobRetire (core : Nat)
  | copyLineWrite (queue : JobQueue) (id : Nat)
  | copySourceRelease (queue : JobQueue) (id : Nat)
  | copyVisibleCompletion (queue : JobQueue) (id : Nat)
  | mxrdTokenSend (core : Nat)
  | reconfigRelocation (core channel : Nat)
  | checkpointPass (core vnode : Nat)
  | spillRingAppend (pkt : Nat)
  | monitorSample (unit : MonUnit) (value : Nat)
  | publHoldEnd (asid k : Nat)
  | walkCompletion (cluster index : Nat)
  | placeArrival (pkt : Nat)
  | codesealScan (pkt : Nat)
  | cfgldCompletion (pkt : Nat)
  | tlbinvAcknowledgement (core die : Nat)
  | definitionReport (pkt : Nat)
  | reductionChunk (pkt : Nat)
  | hoopDecision (pkt : Nat)
  | turnGrantArrival (pkt : Nat)
  | blockLanding (cluster ring slot : Nat)
  | slotRegrant (cluster ring slot : Nat)
  | absenceNotice (who : Collective) (member : Nat)
  | presenceNotice (who : Collective) (member : Nat)
  | holdExpiry (who : Collective)
  | ingestToken (die msg : Nat)
  | quarantine (die msg : Nat)
  | ingestWatchdog (die msg : Nat)
  | rdmaWrite (key : RdmaKey) (va : Nat) (data : List Byte)
  | rdmaRead (key : RdmaKey) (va len : Nat)
  | rdmaSend (qpn : Nat) (payload : BitVec 128)
  | jobSubmission (die : Nat) (sub : Submission)
  | getVersion
  | getCapabilities
  | negotiateAlgorithms
  | getCertificate (offset len : Nat)
  | challenge (nonce : Rec)
  | getMeasurements (nonce : Rec) (signed : Bool)
  | stewardRestart (die : Nat)
  | healthMapClear (die offset : Nat) (mask : BitVec 32)
  | imageKeyReplace (key : List Byte)
  | configurationRecordReplace (dx dy dz device : Nat)
  | firmwareReplace (which : Firmware) (image : SignedImage)
  | minimalModeExit
  | start
  | startStage (result : StageEnd)
  | stageWatchdog
  | stewardReadyTimeout (die : Nat)
  | ethernetTimeout (port : Nat)
  | powerMeasurement (watts tmax droop : Nat)
  | verifyImage
  | verifyImageResult
  | logAppend (die : Nat)
  | firstxEmpty (core : Nat)
  | logOverflowClear (die : Nat)
  | clusterFlagClear (cluster : Nat) (mask : Word)
  | kerfrepClear (die : Nat)
  | qringOverflowClear (die : Nat)
  | throttleFlagClear
  | monitorClear (unit : MonUnit)
  | replayPurge (cluster asid : Nat)
  | debugStop (core : Nat)
  | debugStep (core : Nat)
  | debugResume (core : Nat)
  | registerWrite (die offset : Nat) (value : Word)
  | stallDetection (obj : StallObject)
  | drainTimeout (asid : Nat)
  | linkReplay (link : LinkId) (corrected : Bool)
  | heldPacketRelease (pkt : Nat)
  | kerfGuardDrop (pkt : Nat)
  | noRouteDrop (pkt : Nat)
  | refusalAcknowledgement (pkt : Nat)
  | voteDecision (core vnode : Nat)
  | uncorrectableError (array : ErrorArray) (how : ErrorEnd)
  | checkpointInjection (asid : Nat)
  | linkDegradationClear (link : LinkId)
  deriving DecidableEq, Repr

end Sys2Proof
end

