-- ==== Sys2Proof/WellFormed.lean ====
section
/-! DEFINITION. Which terms of Instr are instructions of the manual: the conditions on operands that
06_formats_and_assembly.md (R178, R180, R183) and the instruction chapters state beside the widths that Syntax
fixes by its types. An event carries no encoding and is always well formed. -/

namespace Sys2Proof

/-- The lane width of a storage type (R146). -/
def VType.bits : VType → Nat
  | .f32 => 32 | .i32 => 32 | .b16 => 16 | .h16 => 16 | .i16 => 16 | .c8 => 8 | .i8 => 8 | .ub => 8

/-- How many parts a conversion between two types has: f of R255. -/
def VType.parts (src dst : VType) : Nat := max src.bits dst.bits / min src.bits dst.bits

/-- The access size of a split-phase load in frame words of eight bytes; a size below 64 bytes takes one word (R180). -/
def SplitSize.align : SplitSize → Nat
  | .b => 1 | .h => 1 | .w => 1 | .d => 1 | .v64 => 8 | .v128 => 16 | .v256 => 32 | .v512 => 64

/-- The rounding or table field of VCVT is assigned for these types (R255). -/
def vcvtField (src dst : VType) (r : BitVec 3) : Bool :=
  if src = .c8 ∧ dst = .c8 then false
  else if src = .c8 ∨ dst = .c8 then decide (r.toNat < 4)
  else decide (r ≠ 5 ∧ r ≠ 6)

/-- The instruction is one that the manual's assembly forms can write. -/
def Instr.wellFormed : Instr → Bool
  | .br cc ta tb _ => decide (cc = .bra → ta = 0 ∧ tb = 0)
  | .fld size _ k => decide (size = .v → k.toNat % 8 = 0)
  | .fst size _ k => decide (size = .v → k.toNat % 8 = 0)
  | .sig _ _ _ amount => decide (amount ≠ 0)
  | .lds size k _ _ => decide (k.toNat % size.align = 0)
  | .ldro size k _ _ => decide (k.toNat % size.align = 0)
  | .vcmp ty _ _ _ _ => decide (ty ≠ .c8)
  | .vred ty _ _ _ => decide (ty ≠ .c8)
  | .vcvt src dst r part _ _ => vcvtField src dst r && decide (part.toNat < VType.parts src dst)
  | .vdec _ part _ _ => decide (part.toNat < 4)
  | .venc _ part _ _ => decide (part.toNat < 4)
  | _ => true

end Sys2Proof
end

