-- ==== Sys2Proof/Decode.lean ====
section
/-! DEFINITION. The eight formats of an instruction word (R176), the decoder that the code scanner and the fetch
share, with the reasons for which a word is a reserved encoding (R178, R372), and the encoder. A decoder row and
an encoder row are both written from the operand table of R183 and the opcode map of R182. -/

namespace Sys2Proof

/-- Why a word is a reserved encoding; the scanner's reason codes 0x01 to 0x05 (R372). -/
inductive Reject where
  /-- Major opcode 0x26 to 0x3F (code 0x01). -/
  | major
  /-- Unassigned function or sub-op value (code 0x02). -/
  | function
  /-- Reserved modifier code, or a part outside its range (code 0x03). -/
  | modifier
  /-- A field that the form does not use is not zero (code 0x04). -/
  | unusedField
  /-- A frame word that is no multiple of the access size (code 0x05). -/
  | frameWord
  deriving DecidableEq, Repr

/-- The reason code of R372. -/
def Reject.code : Reject → Nat
  | .major => 1 | .function => 2 | .modifier => 3 | .unusedField => 4 | .frameWord => 5

/-- Fields of format R (R176). -/
structure RForm where
  td : BitVec 3
  ta : BitVec 3
  tb : BitVec 3
  tc : BitVec 3
  md : BitVec 6
  fn : BitVec 8
  deriving DecidableEq, Repr

/-- Fields of format I. -/
structure IForm where
  td : BitVec 3
  ta : BitVec 3
  im : BitVec 20
  deriving DecidableEq, Repr

/-- Fields of format F. -/
structure FForm where
  t  : BitVec 3
  fw : BitVec 9
  md : BitVec 6
  fn : BitVec 8
  deriving DecidableEq, Repr

/-- Fields of format X. -/
structure XForm where
  fw : BitVec 9
  tb : BitVec 3
  md : BitVec 8
  sl : BitVec 6
  deriving DecidableEq, Repr

/-- Fields of format S. -/
structure SForm where
  tv : BitVec 3
  th : BitVec 3
  sl : BitVec 6
  fw : BitVec 9
  fn : BitVec 5
  deriving DecidableEq, Repr

/-- Fields of format B. -/
structure BForm where
  ta  : BitVec 3
  tb  : BitVec 3
  cc  : BitVec 3
  off : BitVec 17
  deriving DecidableEq, Repr

/-- Fields of format W. -/
structure WForm where
  ld : BitVec 5
  st : BitVec 5
  cp : BitVec 5
  tl : BitVec 5
  sl : BitVec 6
  deriving DecidableEq, Repr

/-- Fields of format M. -/
structure MForm where
  t   : BitVec 3
  tb  : BitVec 3
  off : BitVec 14
  sz  : BitVec 3
  fn  : BitVec 3
  deriving DecidableEq, Repr

/-- The major opcode of a word. -/
def opOf (w : IWord) : BitVec 6 := w.extractLsb' 26 6

/-- A word read as format R. -/
def unpackR (w : IWord) : RForm :=
  { td := w.extractLsb' 23 3, ta := w.extractLsb' 20 3, tb := w.extractLsb' 17 3, tc := w.extractLsb' 14 3,
    md := w.extractLsb' 8 6, fn := w.extractLsb' 0 8 }
/-- A word read as format I. -/
def unpackI (w : IWord) : IForm :=
  { td := w.extractLsb' 23 3, ta := w.extractLsb' 20 3, im := w.extractLsb' 0 20 }
/-- A word read as format F. -/
def unpackF (w : IWord) : FForm :=
  { t := w.extractLsb' 23 3, fw := w.extractLsb' 14 9, md := w.extractLsb' 8 6, fn := w.extractLsb' 0 8 }
/-- A word read as format X. -/
def unpackX (w : IWord) : XForm :=
  { fw := w.extractLsb' 17 9, tb := w.extractLsb' 14 3, md := w.extractLsb' 6 8, sl := w.extractLsb' 0 6 }
/-- A word read as format S. -/
def unpackS (w : IWord) : SForm :=
  { tv := w.extractLsb' 23 3, th := w.extractLsb' 20 3, sl := w.extractLsb' 14 6, fw := w.extractLsb' 5 9,
    fn := w.extractLsb' 0 5 }
/-- A word read as format B. -/
def unpackB (w : IWord) : BForm :=
  { ta := w.extractLsb' 23 3, tb := w.extractLsb' 20 3, cc := w.extractLsb' 17 3, off := w.extractLsb' 0 17 }
/-- A word read as format W. -/
def unpackW (w : IWord) : WForm :=
  { ld := w.extractLsb' 21 5, st := w.extractLsb' 16 5, cp := w.extractLsb' 11 5, tl := w.extractLsb' 6 5,
    sl := w.extractLsb' 0 6 }
/-- A word read as format M. -/
def unpackM (w : IWord) : MForm :=
  { t := w.extractLsb' 23 3, tb := w.extractLsb' 20 3, off := w.extractLsb' 6 14, sz := w.extractLsb' 3 3,
    fn := w.extractLsb' 0 3 }

/-- The word of format R with these fields. -/
def packR (op : BitVec 6) (f : RForm) : IWord :=
  BitVec.ofNat 32 (op.toNat * 2 ^ 26 + f.td.toNat * 2 ^ 23 + f.ta.toNat * 2 ^ 20 + f.tb.toNat * 2 ^ 17
    + f.tc.toNat * 2 ^ 14 + f.md.toNat * 2 ^ 8 + f.fn.toNat)
/-- The word of format I with these fields. -/
def packI (op : BitVec 6) (f : IForm) : IWord :=
  BitVec.ofNat 32 (op.toNat * 2 ^ 26 + f.td.toNat * 2 ^ 23 + f.ta.toNat * 2 ^ 20 + f.im.toNat)
/-- The word of format F with these fields. -/
def packF (op : BitVec 6) (f : FForm) : IWord :=
  BitVec.ofNat 32 (op.toNat * 2 ^ 26 + f.t.toNat * 2 ^ 23 + f.fw.toNat * 2 ^ 14 + f.md.toNat * 2 ^ 8 + f.fn.toNat)
/-- The word of format X with these fields. -/
def packX (op : BitVec 6) (f : XForm) : IWord :=
  BitVec.ofNat 32 (op.toNat * 2 ^ 26 + f.fw.toNat * 2 ^ 17 + f.tb.toNat * 2 ^ 14 + f.md.toNat * 2 ^ 6 + f.sl.toNat)
/-- The word of format S with these fields. -/
def packS (op : BitVec 6) (f : SForm) : IWord :=
  BitVec.ofNat 32 (op.toNat * 2 ^ 26 + f.tv.toNat * 2 ^ 23 + f.th.toNat * 2 ^ 20 + f.sl.toNat * 2 ^ 14
    + f.fw.toNat * 2 ^ 5 + f.fn.toNat)
/-- The word of format B with these fields. -/
def packB (op : BitVec 6) (f : BForm) : IWord :=
  BitVec.ofNat 32 (op.toNat * 2 ^ 26 + f.ta.toNat * 2 ^ 23 + f.tb.toNat * 2 ^ 20 + f.cc.toNat * 2 ^ 17 + f.off.toNat)
/-- The word of format W with these fields. -/
def packW (op : BitVec 6) (f : WForm) : IWord :=
  BitVec.ofNat 32 (op.toNat * 2 ^ 26 + f.ld.toNat * 2 ^ 21 + f.st.toNat * 2 ^ 16 + f.cp.toNat * 2 ^ 11
    + f.tl.toNat * 2 ^ 6 + f.sl.toNat)
/-- The word of format M with these fields. -/
def packM (op : BitVec 6) (f : MForm) : IWord :=
  BitVec.ofNat 32 (op.toNat * 2 ^ 26 + f.t.toNat * 2 ^ 23 + f.tb.toNat * 2 ^ 20 + f.off.toNat * 2 ^ 6
    + f.sz.toNat * 2 ^ 3 + f.fn.toNat)

/-! ## Modifier codes (R180) -/

/-- The code of a storage type (R146). -/
def VType.code : VType → BitVec 3
  | .f32 => 0 | .b16 => 1 | .h16 => 2 | .c8 => 3 | .i32 => 4 | .i16 => 5 | .i8 => 6 | .ub => 7
/-- The storage type of a code (R146). -/
def VType.ofCode (c : BitVec 3) : VType :=
  match c.toNat with
  | 0 => .f32 | 1 => .b16 | 2 => .h16 | 3 => .c8 | 4 => .i32 | 5 => .i16 | 6 => .i8 | _ => .ub

/-- The code of a floating type (R249). -/
def FType.code : FType → BitVec 3
  | .f32 => 0 | .b16 => 1 | .h16 => 2
/-- The floating type of a code; the others are reserved (R249). -/
def FType.ofCode (c : BitVec 3) : Except Reject FType :=
  match c.toNat with
  | 0 => .ok .f32 | 1 => .ok .b16 | 2 => .ok .h16 | _ => .error .modifier

/-- The code of an integer type (R251). -/
def IType.code : IType → BitVec 3
  | .i32 => 4 | .i16 => 5 | .i8 => 6 | .ub => 7
/-- The integer type of a code; the others are reserved (R180). -/
def IType.ofCode (c : BitVec 3) : Except Reject IType :=
  match c.toNat with
  | 4 => .ok .i32 | 5 => .ok .i16 | 6 => .ok .i8 | 7 => .ok .ub | _ => .error .modifier

/-- The code of a rounding mode (R152). -/
def Rnd.code : Rnd → BitVec 3
  | .rne => 0 | .rtz => 1 | .rdn => 2 | .rup => 3 | .rna => 4 | .dyn => 7
/-- The rounding mode of a code; 101 and 110 are reserved (R152). -/
def Rnd.ofCode (c : BitVec 3) : Except Reject Rnd :=
  match c.toNat with
  | 0 => .ok .rne | 1 => .ok .rtz | 2 => .ok .rdn | 3 => .ok .rup | 4 => .ok .rna | 7 => .ok .dyn
  | _ => .error .modifier

/-- The code of a scope (R122). -/
def Scope.code : Scope → BitVec 3
  | .core => 0 | .clus => 1 | .die => 2 | .pkg => 3 | .sys => 4
/-- The scope of a code (R122). -/
def Scope.ofCode (c : BitVec 3) : Except Reject Scope :=
  match c.toNat with
  | 0 => .ok .core | 1 => .ok .clus | 2 => .ok .die | 3 => .ok .pkg | 4 => .ok .sys | _ => .error .modifier

/-- The release bits fn[4:2] of a send: REL and the scope (R134). -/
def SendScope.relCode : Option SendScope → Nat
  | none => 0 | some .clus => 16 | some .die => 20 | some .pkg => 24 | some .sys => 28
/-- The release of fn[4:2]; without REL the scope must be zero (R134). -/
def SendScope.ofRelCode (c : Nat) : Except Reject (Option SendScope) :=
  match c with
  | 0 => .ok none | 4 => .ok (some .clus) | 5 => .ok (some .die) | 6 => .ok (some .pkg) | 7 => .ok (some .sys)
  | _ => .error .unusedField

/-- The code of a frame size (R180). -/
def FrameSize.code : FrameSize → BitVec 2
  | .d => 0 | .v => 1 | .w => 2 | .ws => 3
/-- The frame size of a code (R180). -/
def FrameSize.ofCode (c : BitVec 2) : FrameSize :=
  match c.toNat with
  | 0 => .d | 1 => .v | 2 => .w | _ => .ws

/-- The code of a memory size (R180). -/
def MemSize.code : MemSize → BitVec 3
  | .b => 0 | .h => 1 | .w => 2 | .d => 3 | .v => 4
/-- The memory size of a code; 5 to 7 are reserved (R180). -/
def MemSize.ofCode (c : BitVec 3) : Except Reject MemSize :=
  match c.toNat with
  | 0 => .ok .b | 1 => .ok .h | 2 => .ok .w | 3 => .ok .d | 4 => .ok .v | _ => .error .modifier

/-- The code of a split-phase size (R180). -/
def SplitSize.code : SplitSize → BitVec 3
  | .b => 0 | .h => 1 | .w => 2 | .d => 3 | .v64 => 4 | .v128 => 5 | .v256 => 6 | .v512 => 7
/-- The split-phase size of a code (R180). -/
def SplitSize.ofCode (c : BitVec 3) : SplitSize :=
  match c.toNat with
  | 0 => .b | 1 => .h | 2 => .w | 3 => .d | 4 => .v64 | 5 => .v128 | 6 => .v256 | _ => .v512

/-- The code of an atomic width (R180). -/
def AWidth.code : AWidth → Nat
  | .w => 0 | .d => 1
/-- The atomic width of a bit (R180). -/
def AWidth.ofBit (b : Bool) : AWidth := if b then .d else .w

/-- The code of a branch condition (R180). -/
def BrCond.code : BrCond → BitVec 3
  | .beq => 0 | .bne => 1 | .blt => 2 | .bge => 3 | .bltu => 4 | .bgeu => 5 | .bra => 6
/-- The branch condition of a code; 7 is reserved (R180). -/
def BrCond.ofCode (c : BitVec 3) : Except Reject BrCond :=
  match c.toNat with
  | 0 => .ok .beq | 1 => .ok .bne | 2 => .ok .blt | 3 => .ok .bge | 4 => .ok .bltu | 5 => .ok .bgeu | 6 => .ok .bra
  | _ => .error .modifier

/-- The code of a compare condition (R180). -/
def CmpCond.code : CmpCond → BitVec 3
  | .eq => 0 | .ne => 1 | .lt => 2 | .le => 3 | .gt => 4 | .ge => 5 | .un => 6
/-- The compare condition of a code; 7 is reserved (R180). -/
def CmpCond.ofCode (c : BitVec 3) : Except Reject CmpCond :=
  match c.toNat with
  | 0 => .ok .eq | 1 => .ok .ne | 2 => .ok .lt | 3 => .ok .le | 4 => .ok .gt | 5 => .ok .ge | 6 => .ok .un
  | _ => .error .modifier

/-- The code of a reduce operation (R180). -/
def RedOp.code : RedOp → BitVec 3
  | .sum => 0 | .min => 1 | .max => 2
/-- The reduce operation of a code; 3 to 7 are reserved (R180). -/
def RedOp.ofCode (c : BitVec 3) : Except Reject RedOp :=
  match c.toNat with
  | 0 => .ok .sum | 1 => .ok .min | 2 => .ok .max | _ => .error .modifier

/-- The code of a fence kind (R133). -/
def FenceKind.code : FenceKind → Nat
  | .acq => 0 | .rel => 1 | .full => 2
/-- The fence kind of a code; 3 is reserved (R133). -/
def FenceKind.ofCode (c : Nat) : Except Reject FenceKind :=
  match c with
  | 0 => .ok .acq | 1 => .ok .rel | 2 => .ok .full | _ => .error .modifier

/-- md[13:11] and md[10:8] of the vector majors: a type or part in the high bits, a sub-code in the low bits. -/
def mdPair (hi lo : BitVec 3) : BitVec 6 := BitVec.ofNat 6 (hi.toNat * 8 + lo.toNat)
/-- The high three bits of md. -/
def mdHi (md : BitVec 6) : BitVec 3 := md.extractLsb' 3 3
/-- The low three bits of md. -/
def mdLo (md : BitVec 6) : BitVec 3 := md.extractLsb' 0 3
/-- md[13:12] and md[11] of CHN, md[13:12] of LGSTOP: a port and the vector bit (R183). -/
def mdPort (p : BitVec 2) (vec : Bool) : BitVec 6 := BitVec.ofNat 6 (p.toNat * 16 + vec.toNat * 8)
/-- The port of md[13:12]. -/
def mdPortOf (md : BitVec 6) : BitVec 2 := md.extractLsb' 4 2
/-- The vector bit md[11]. -/
def mdVecOf (md : BitVec 6) : Bool := md.getLsbD 3
/-- md of an atomic: operation, width and scope (R244). -/
def mdAmo (op : Nat) (wd : AWidth) (scope : Scope) : BitVec 8 :=
  BitVec.ofNat 8 (op * 16 + wd.code * 8 + scope.code.toNat)
/-- The immediate of a CSR instruction or shift: the sub-op in im[19:18] and a value below (R204, R208). -/
def subIm (sub v : Nat) : BitVec 20 := BitVec.ofNat 20 (sub * 2 ^ 18 + v)

/-- The instruction, when the unused fields are zero (R178). -/
def need (unusedZero : Bool) (i : Instr) : Except Reject Instr :=
  if unusedZero then .ok i else .error .unusedField

/-- SYS, major 0x00 (R200). -/
def decodeSys (f : RForm) : Except Reject Instr :=
  let z := f.td = 0 ∧ f.ta = 0 ∧ f.tb = 0 ∧ f.tc = 0
  match f.fn.toNat with
  | 0 => need (z ∧ f.md = 0) .nop
  | 1 => need (z ∧ f.md = 0) .endf
  | 2 => need z (.trap f.md)
  | 3 => need (z ∧ f.md = 0) .halt
  | 4 => need (z ∧ f.md = 0) .roinv
  | _ => .error .function

/-- CSR, major 0x02 (R204). -/
def decodeCsr (f : IForm) : Except Reject Instr :=
  let csr := f.im.extractLsb' 0 12
  let z := f.im.extractLsb' 12 6 = 0
  match (f.im.extractLsb' 18 2).toNat with
  | 0 => need (z ∧ f.ta = 0) (.csrr f.td csr)
  | 1 => need (z ∧ f.td = 0) (.csrw f.ta csr)
  | 2 => need z (.csrs f.td f.ta csr)
  | _ => .error .function

/-- SHI, major 0x09 (R208). -/
def decodeShi (f : IForm) : Except Reject Instr :=
  let amt := f.im.extractLsb' 0 6
  let z := f.im.extractLsb' 6 12 = 0
  match (f.im.extractLsb' 18 2).toNat with
  | 0 => need z (.shli f.td f.ta amt)
  | 1 => need z (.shri f.td f.ta amt)
  | 2 => need z (.srai f.td f.ta amt)
  | _ => .error .function

/-- INT, major 0x0A (R209). -/
def decodeInt (f : RForm) : Except Reject Instr :=
  let z := f.tc = 0 ∧ f.md = 0
  match f.fn.toNat with
  | 0x00 => need z (.add f.td f.ta f.tb)
  | 0x01 => need z (.sub f.td f.ta f.tb)
  | 0x02 => need z (.mul f.td f.ta f.tb)
  | 0x03 => need z (.mulh f.td f.ta f.tb)
  | 0x04 => need z (.div f.td f.ta f.tb)
  | 0x05 => need z (.divu f.td f.ta f.tb)
  | 0x06 => need z (.rem f.td f.ta f.tb)
  | 0x08 => need z (.and f.td f.ta f.tb)
  | 0x09 => need z (.or f.td f.ta f.tb)
  | 0x0A => need z (.xor f.td f.ta f.tb)
  | 0x0C => need z (.shl f.td f.ta f.tb)
  | 0x0D => need z (.shr f.td f.ta f.tb)
  | 0x0E => need z (.sra f.td f.ta f.tb)
  | 0x10 => need z (.min f.td f.ta f.tb)
  | 0x11 => need z (.max f.td f.ta f.tb)
  | 0x12 => need z (.slt f.td f.ta f.tb)
  | 0x13 => need z (.sltu f.td f.ta f.tb)
  | 0x14 => need (z ∧ f.tb = 0) (.clz f.td f.ta)
  | 0x15 => need (z ∧ f.tb = 0) (.popc f.td f.ta)
  | 0x16 => need (f.md = 0) (.sel f.td f.ta f.tb f.tc)
  | _ => .error .function

/-- BR, major 0x0B (R210). -/
def decodeBr (f : BForm) : Except Reject Instr :=
  match BrCond.ofCode f.cc with
  | .error e => .error e
  | .ok cc => need (cc = .bra → f.ta = 0 ∧ f.tb = 0) (.br cc f.ta f.tb f.off)

/-- FRAME, major 0x0D (R212). -/
def decodeFrame (f : FForm) : Except Reject Instr :=
  let size := FrameSize.ofCode (f.md.extractLsb' 4 2)
  let z := f.md.extractLsb' 0 4 = 0
  let al := size = .v → f.fw.toNat % 8 = 0
  match f.fn.toNat with
  | 0 => if z then (if al then .ok (.fld size f.t f.fw) else .error .frameWord) else .error .unusedField
  | 1 => if z then (if al then .ok (.fst size f.t f.fw) else .error .frameWord) else .error .unusedField
  | _ => .error .function

/-- FRM, major 0x0E (R214 to R216). -/
def decodeFrm (f : RForm) : Except Reject Instr :=
  let z := f.tb = 0 ∧ f.tc = 0 ∧ f.md = 0
  match f.fn.toNat with
  | 0 => need z (.falloc f.td f.ta)
  | 1 => need (z ∧ f.td = 0) (.ffree f.ta)
  | 2 => need (z ∧ f.ta = 0) (.fself f.td)
  | 3 => need z (.fidx f.td f.ta)
  | _ => .error .function

/-- SLOT, major 0x0F (R217). -/
def decodeSlot (f : RForm) : Except Reject Instr :=
  let z := f.tb = 0 ∧ f.tc = 0
  match f.fn.toNat with
  | 0 => need (z ∧ f.td = 0) (.slotset f.md f.ta)
  | 1 => need (z ∧ f.td = 0) (.slotarm f.md f.ta)
  | 2 => need (z ∧ f.ta = 0) (.slotrd f.td f.md)
  | 3 => need (z ∧ f.td = 0 ∧ f.ta = 0) (.slotdis f.md)
  | _ => .error .function

/-- TOK, major 0x10 (R134, R218). A SIG whose fw is zero takes its amount from Tv (R183). -/
def decodeTok (f : SForm) : Except Reject Instr :=
  let rel := SendScope.ofRelCode (f.fn.extractLsb' 2 3).toNat
  match (f.fn.extractLsb' 0 2).toNat with
  | 0 => match rel with
    | .ok r => .ok (.send r f.tv f.th f.sl f.fw)
    | .error e => .error e
  | 1 => match rel with
    | .ok r => .ok (.sendv r f.tv f.th f.sl f.fw)
    | .error e => .error e
  | 2 => match rel with
    | .ok r => if f.fw = 0 then .ok (.sigReg r f.tv f.th f.sl) else need (f.tv = 0) (.sig r f.th f.sl f.fw)
    | .error e => .error e
  | _ => .error .function

/-- CHN, major 0x11 (R222). -/
def decodeChn (f : RForm) : Except Reject Instr :=
  let p := mdPortOf f.md
  let v := mdVecOf f.md
  let z := f.tb = 0 ∧ f.tc = 0 ∧ f.md.extractLsb' 0 3 = 0
  match f.fn.toNat with
  | 0 => need (z ∧ f.ta = 0) (.chpop v f.td p)
  | 1 => need (z ∧ f.ta = 0) (.chpeek v f.td p)
  | 2 => need (z ∧ f.td = 0) (.chpush v f.ta p)
  | 3 => need (z ∧ f.td = 0 ∧ f.ta = 0 ∧ v = false) (.chend p)
  | 4 => need (z ∧ f.td = 0 ∧ v = false) (.chrcfg f.ta p)
  | _ => .error .function

/-- GEN, major 0x12 (R224, R225). -/
def decodeGen (f : RForm) : Except Reject Instr :=
  let z := f.tb = 0 ∧ f.tc = 0
  match f.fn.toNat with
  | 0 => need (z ∧ f.md = 0) (.lgen f.td f.ta)
  | 1 => need (z ∧ f.td = 0 ∧ f.ta = 0 ∧ f.md.extractLsb' 0 4 = 0) (.lgstop (mdPortOf f.md))
  | _ => .error .function

/-- MEM, major 0x14 (R236). -/
def decodeMem (f : MForm) : Except Reject Instr :=
  match f.fn.toNat with
  | 0 => match MemSize.ofCode f.sz with
    | .ok z => .ok (.ld z f.t f.tb f.off)
    | .error e => .error e
  | 1 => match MemSize.ofCode f.sz with
    | .ok z => .ok (.st z f.t f.tb f.off)
    | .error e => .error e
  | 2 => match MemSize.ofCode f.sz with
    | .ok z => .ok (.stt z f.t f.tb f.off)
    | .error e => .error e
  | 3 => match MemSize.ofCode f.sz with
    | .ok z => .ok (.pst z f.t f.tb f.off)
    | .error e => .error e
  | _ => .error .function

/-- LDS and LDRO, majors 0x15 and 0x16 (R241, R243): the size, when the unused bits are zero and the frame word fits it. -/
def decodeSplit (f : XForm) : Except Reject SplitSize :=
  let size := SplitSize.ofCode (f.md.extractLsb' 5 3)
  if f.md.extractLsb' 0 5 = 0 then
    (if f.fw.toNat % size.align = 0 then .ok size else .error .frameWord)
  else .error .unusedField

/-- AMO, major 0x17 (R244). -/
def decodeAmo (f : XForm) : Except Reject Instr :=
  let wd := AWidth.ofBit (f.md.getLsbD 3)
  let op := (f.md.extractLsb' 4 4).toNat
  if 8 < op then .error .function
  else match Scope.ofCode (f.md.extractLsb' 0 3) with
    | .error e => .error e
    | .ok s => match op with
      | 0 => .ok (.aadd wd s f.fw f.tb f.sl)
      | 1 => .ok (.aand wd s f.fw f.tb f.sl)
      | 2 => .ok (.aor wd s f.fw f.tb f.sl)
      | 3 => .ok (.axor wd s f.fw f.tb f.sl)
      | 4 => .ok (.amin wd s f.fw f.tb f.sl)
      | 5 => .ok (.amax wd s f.fw f.tb f.sl)
      | 6 => .ok (.aswap wd s f.fw f.tb f.sl)
      | 7 => if wd = .w then .ok (.afadd s f.fw f.tb f.sl) else .error .modifier
      | _ => .ok (.acas wd s f.fw f.tb f.sl)

/-- FENCE, major 0x18 (R133). -/
def decodeFence (f : RForm) : Except Reject Instr :=
  if f.fn ≠ 0 then .error .function
  else match FenceKind.ofCode (f.md.extractLsb' 4 2).toNat with
    | .error e => .error e
    | .ok k => match Scope.ofCode (mdLo f.md) with
      | .error e => .error e
      | .ok s => need (f.td = 0 ∧ f.ta = 0 ∧ f.tb = 0 ∧ f.tc = 0 ∧ f.md.getLsbD 3 = false) (.fence k s)

/-- Majors whose forms are an engine command with Td and Ta only (R183). -/
def decodeCmd (f : RForm) (table : List (Temp → Temp → Instr)) : Except Reject Instr :=
  match table[f.fn.toNat]? with
  | none => .error .function
  | some mk => need (f.tb = 0 ∧ f.tc = 0 ∧ f.md = 0) (mk f.td f.ta)

/-- PUBL, major 0x1C (R319, R321). -/
def decodePubl (f : RForm) : Except Reject Instr :=
  let z := f.tb = 0 ∧ f.tc = 0
  match f.fn.toNat with
  | 0 => need (z ∧ f.md = 0) (.pbdef f.td f.ta)
  | 1 => match Scope.ofCode (mdLo f.md) with
    | .error e => .error e
    | .ok s => need (z ∧ f.td = 0 ∧ mdHi f.md = 0) (.publ s f.ta)
  | _ => .error .function

/-- VARITH, major 0x1D (R249). -/
def decodeVarith (f : RForm) : Except Reject Instr :=
  if 0x0C < f.fn.toNat then .error .function
  else match FType.ofCode (mdHi f.md) with
    | .error e => .error e
    | .ok ty => match Rnd.ofCode (mdLo f.md) with
      | .error e => .error e
      | .ok rm => match f.fn.toNat with
        | 0x00 => need (f.tc = 0) (.vadd ty rm f.td f.ta f.tb)
        | 0x01 => need (f.tc = 0) (.vsub ty rm f.td f.ta f.tb)
        | 0x02 => need (f.tc = 0) (.vmul ty rm f.td f.ta f.tb)
        | 0x03 => .ok (.vfma ty rm f.td f.ta f.tb f.tc)
        | 0x04 => .ok (.vfms ty rm f.td f.ta f.tb f.tc)
        | 0x05 => need (f.tc = 0) (.vmin ty rm f.td f.ta f.tb)
        | 0x06 => need (f.tc = 0) (.vmax ty rm f.td f.ta f.tb)
        | 0x07 => need (f.tc = 0) (.vdiv ty rm f.td f.ta f.tb)
        | 0x08 => need (f.tc = 0 ∧ f.tb = 0) (.vsqrt ty rm f.td f.ta)
        | 0x09 => need (f.tc = 0 ∧ f.tb = 0) (.vrcp ty rm f.td f.ta)
        | 0x0A => need (f.tc = 0 ∧ f.tb = 0) (.vrsq ty rm f.td f.ta)
        | 0x0B => need (f.tc = 0 ∧ f.tb = 0) (.vexp2 ty rm f.td f.ta)
        | _ => need (f.tc = 0 ∧ f.tb = 0) (.vlog2 ty rm f.td f.ta)

/-- VINT, major 0x1E (R251). SAT on an operation without a saturating form is a reserved code. -/
def decodeVint (f : RForm) : Except Reject Instr :=
  let sat := f.md.getLsbD 0
  if 0x08 < f.fn.toNat then .error .function
  else match IType.ofCode (mdHi f.md) with
    | .error e => .error e
    | .ok ty =>
      let z := f.tc = 0 ∧ f.md.getLsbD 1 = false ∧ f.md.getLsbD 2 = false
      let plain (i : Instr) : Except Reject Instr := if sat then .error .modifier else need z i
      match f.fn.toNat with
      | 0x00 => need z (.viadd ty sat f.td f.ta f.tb)
      | 0x01 => need z (.visub ty sat f.td f.ta f.tb)
      | 0x02 => need z (.vimul ty sat f.td f.ta f.tb)
      | 0x03 => plain (.vand ty f.td f.ta f.tb)
      | 0x04 => plain (.vor ty f.td f.ta f.tb)
      | 0x05 => plain (.vxor ty f.td f.ta f.tb)
      | 0x06 => need z (.vshl ty sat f.td f.ta f.tb)
      | 0x07 => plain (.vshr ty f.td f.ta f.tb)
      | _ => plain (.vsra ty f.td f.ta f.tb)

/-- VPERM, major 0x1F (R252). -/
def decodeVperm (f : RForm) : Except Reject Instr :=
  let ty := VType.ofCode (mdHi f.md)
  let z := mdLo f.md = 0
  match f.fn.toNat with
  | 0x00 => if ty = .c8 then .error .modifier
    else match CmpCond.ofCode (mdLo f.md) with
      | .error e => .error e
      | .ok c => need (f.tc = 0) (.vcmp ty c f.td f.ta f.tb)
  | 0x01 => need z (.vsel ty f.td f.ta f.tb f.tc)
  | 0x02 => need (z ∧ f.tc = 0) (.vperm ty f.td f.ta f.tb)
  | 0x03 => need (z ∧ f.tc = 0 ∧ f.tb = 0) (.vbcast ty f.td f.ta)
  | 0x04 => need (z ∧ f.tc = 0) (.vext ty f.td f.ta f.tb)
  | 0x05 => need (z ∧ f.tc = 0) (.vins ty f.td f.ta f.tb)
  | 0x06 => if ty = .c8 then .error .modifier
    else match RedOp.ofCode (mdLo f.md) with
      | .error e => .error e
      | .ok o => need (f.tc = 0 ∧ f.tb = 0) (.vred ty o f.td f.ta)
  | _ => .error .function

/-- VCVT, major 0x20 (R255 to R258). -/
def decodeVcvt (f : RForm) : Except Reject Instr :=
  let ct := f.md.extractLsb' 0 2
  let z := f.md.extractLsb' 2 4 = 0
  match f.fn.toNat with
  | 0x00 =>
    let src := VType.ofCode (mdHi f.md)
    let dst := VType.ofCode (mdLo f.md)
    if (src ≠ .c8 ∨ dst ≠ .c8) ∧ f.tc.toNat < VType.parts src dst then
      (if src = .c8 ∨ dst = .c8 then need (f.tb.getLsbD 2 = false) (.vcvt src dst f.tb f.tc f.td f.ta)
       else if f.tb = 5 ∨ f.tb = 6 then .error .modifier
       else .ok (.vcvt src dst f.tb f.tc f.td f.ta))
    else .error .modifier
  | 0x01 => if f.tc.toNat < 4 then need (z ∧ f.tb = 0) (.vdec ct f.tc f.td f.ta) else .error .modifier
  | 0x02 => if f.tc.toNat < 4 then need (z ∧ f.tb = 0) (.venc ct f.tc f.td f.ta) else .error .modifier
  | 0x03 => need (z ∧ f.tb = 0 ∧ f.tc = 0 ∧ f.td = 0) (.ctld ct f.ta)
  | _ => .error .function

/-- TILE, major 0x21 (R262). -/
def decodeTile (f : RForm) : Except Reject Instr :=
  let z := f.tb = 0 ∧ f.tc = 0
  match f.fn.toNat with
  | 0 => need (z ∧ f.td = 0) (.tdef f.md f.ta)
  | 1 => need (z ∧ f.ta = 0) (.tstat f.td f.md)
  | 2 => need (z ∧ f.td = 0 ∧ f.ta = 0) (.trel f.md)
  | _ => .error .function

/-- COPY, major 0x23 (R279). -/
def decodeCopy (f : RForm) : Except Reject Instr :=
  let z := f.tb = 0 ∧ f.tc = 0 ∧ f.md = 0
  match f.fn.toNat with
  | 0 => need z (.cpy f.td f.ta)
  | 1 => need z (.cpym f.td f.ta)
  | 2 => need z (.cpyx f.td f.ta)
  | 3 => need z (.gath f.td f.ta)
  | 4 => need z (.jstat f.td f.ta)
  | 5 => need (z ∧ f.td = 0) (.jcan f.ta)
  | _ => .error .function

/-- INGEST, major 0x24 (R287, R292). -/
def decodeIngest (f : RForm) : Except Reject Instr :=
  let z := f.tb = 0 ∧ f.tc = 0 ∧ f.md = 0
  match f.fn.toNat with
  | 0 => need z (.ings f.td f.ta)
  | 1 => need (z ∧ f.ta = 0) (.ingq f.td)
  | _ => .error .function

/-- PRIV, major 0x25 (R227). -/
def decodePriv (f : RForm) : Except Reject Instr :=
  let z := f.tb = 0 ∧ f.tc = 0 ∧ f.md = 0
  match f.fn.toNat with
  | 0 => need (z ∧ f.td = 0 ∧ f.ta = 0) .rplay
  | 1 => need (z ∧ f.td = 0) (.tlbinv f.ta)
  | 2 => need z (.codeseal f.td f.ta)
  | 3 => need z (.place f.td f.ta)
  | 4 => need z (.cfgld f.td f.ta)
  | 5 => need (z ∧ f.td = 0) (.cancel f.ta)
  | _ => .error .function

/-- The instruction of a word, or the reason why it is a reserved encoding (R176 to R183). -/
def decode (w : IWord) : Except Reject Instr :=
  match (opOf w).toNat with
  | 0x00 => decodeSys (unpackR w)
  | 0x01 => let f := unpackW w; .ok (.cont f.ld f.st f.cp f.tl f.sl)
  | 0x02 => decodeCsr (unpackI w)
  | 0x03 => let f := unpackI w; need (f.ta = 0) (.li f.td f.im)
  | 0x04 => let f := unpackI w; .ok (.lih f.td f.ta f.im)
  | 0x05 => let f := unpackI w; .ok (.addi f.td f.ta f.im)
  | 0x06 => let f := unpackI w; .ok (.andi f.td f.ta f.im)
  | 0x07 => let f := unpackI w; .ok (.ori f.td f.ta f.im)
  | 0x08 => let f := unpackI w; .ok (.xori f.td f.ta f.im)
  | 0x09 => decodeShi (unpackI w)
  | 0x0A => decodeInt (unpackR w)
  | 0x0B => decodeBr (unpackB w)
  | 0x0C => let f := unpackR w
    if f.fn = 0 then need (f.td = 0 ∧ f.tb = 0 ∧ f.tc = 0 ∧ f.md = 0) (.jmpi f.ta) else .error .function
  | 0x0D => decodeFrame (unpackF w)
  | 0x0E => decodeFrm (unpackR w)
  | 0x0F => decodeSlot (unpackR w)
  | 0x10 => decodeTok (unpackS w)
  | 0x11 => decodeChn (unpackR w)
  | 0x12 => decodeGen (unpackR w)
  | 0x13 => decodeCmd (unpackR w) [.launch]
  | 0x14 => decodeMem (unpackM w)
  | 0x15 => let f := unpackX w
    match decodeSplit f with
    | .ok z => .ok (.lds z f.fw f.tb f.sl)
    | .error e => .error e
  | 0x16 => let f := unpackX w
    match decodeSplit f with
    | .ok z => .ok (.ldro z f.fw f.tb f.sl)
    | .error e => .error e
  | 0x17 => decodeAmo (unpackX w)
  | 0x18 => decodeFence (unpackR w)
  | 0x19 => decodeCmd (unpackR w) [.hpdef, .hpput, .hpwait]
  | 0x1A => decodeCmd (unpackR w) [.turndef, .turngo]
  | 0x1B => decodeCmd (unpackR w) [.reddef, .redput]
  | 0x1C => decodePubl (unpackR w)
  | 0x1D => decodeVarith (unpackR w)
  | 0x1E => decodeVint (unpackR w)
  | 0x1F => decodeVperm (unpackR w)
  | 0x20 => decodeVcvt (unpackR w)
  | 0x21 => decodeTile (unpackR w)
  | 0x22 => decodeCmd (unpackR w) [.mxfmt, .mxldw, .mxstrm, .mxgang, .mxrd, .mxepi, .mxclr, .mxscan]
  | 0x23 => decodeCopy (unpackR w)
  | 0x24 => decodeIngest (unpackR w)
  | 0x25 => decodePriv (unpackR w)
  | _ => .error .major

/-! ## The encoder -/

/-- A format R word with Td, Ta, Tb and nothing else. -/
def encR3 (op : BitVec 6) (fn : BitVec 8) (td ta tb : Temp) : IWord :=
  packR op { td := td, ta := ta, tb := tb, tc := 0, md := 0, fn := fn }
/-- A format R word with Td, Ta and a modifier. -/
def encR2 (op : BitVec 6) (fn : BitVec 8) (td ta : Temp) (md : BitVec 6) : IWord :=
  packR op { td := td, ta := ta, tb := 0, tc := 0, md := md, fn := fn }
/-- A vector word: three temporaries, a fourth, and the pair of codes in md. -/
def encV (op : BitVec 6) (fn : BitVec 8) (hi lo : BitVec 3) (td ta tb tc : Temp) : IWord :=
  packR op { td := td, ta := ta, tb := tb, tc := tc, md := mdPair hi lo, fn := fn }
/-- An atomic word (R244). -/
def encAmo (op : Nat) (wd : AWidth) (s : Scope) (k : FWord) (tb : Temp) (sl : Slot) : IWord :=
  packX 0x17 { fw := k, tb := tb, md := mdAmo op wd s, sl := sl }
/-- A split-phase load word (R241). -/
def encSplit (op : BitVec 6) (z : SplitSize) (k : FWord) (tb : Temp) (sl : Slot) : IWord :=
  packX op { fw := k, tb := tb, md := BitVec.ofNat 8 (z.code.toNat * 32), sl := sl }
/-- A token word (R218). -/
def encTok (fn : Nat) (rel : Option SendScope) (tv th : Temp) (n : Slot) (fw : BitVec 9) : IWord :=
  packS 0x10 { tv := tv, th := th, sl := n, fw := fw, fn := BitVec.ofNat 5 (SendScope.relCode rel + fn) }
/-- The SAT bit as the low code of md. -/
def satCode (sat : Bool) : BitVec 3 := if sat then 1 else 0

/-- The word of an instruction; an event has none. -/
def encode : Instr → Option IWord
  | .nop => some (encR2 0x00 0x00 0 0 0)
  | .endf => some (encR2 0x00 0x01 0 0 0)
  | .trap c => some (encR2 0x00 0x02 0 0 c)
  | .halt => some (encR2 0x00 0x03 0 0 0)
  | .roinv => some (encR2 0x00 0x04 0 0 0)
  | .cont ld st cp tl sl => some (packW 0x01 { ld := ld, st := st, cp := cp, tl := tl, sl := sl })
  | .csrr td c => some (packI 0x02 { td := td, ta := 0, im := subIm 0 c.toNat })
  | .csrw ta c => some (packI 0x02 { td := 0, ta := ta, im := subIm 1 c.toNat })
  | .csrs td ta c => some (packI 0x02 { td := td, ta := ta, im := subIm 2 c.toNat })
  | .li td im => some (packI 0x03 { td := td, ta := 0, im := im })
  | .lih td ta im => some (packI 0x04 { td := td, ta := ta, im := im })
  | .addi td ta im => some (packI 0x05 { td := td, ta := ta, im := im })
  | .andi td ta im => some (packI 0x06 { td := td, ta := ta, im := im })
  | .ori td ta im => some (packI 0x07 { td := td, ta := ta, im := im })
  | .xori td ta im => some (packI 0x08 { td := td, ta := ta, im := im })
  | .shli td ta n => some (packI 0x09 { td := td, ta := ta, im := subIm 0 n.toNat })
  | .shri td ta n => some (packI 0x09 { td := td, ta := ta, im := subIm 1 n.toNat })
  | .srai td ta n => some (packI 0x09 { td := td, ta := ta, im := subIm 2 n.toNat })
  | .add td ta tb => some (encR3 0x0A 0x00 td ta tb)
  | .sub td ta tb => some (encR3 0x0A 0x01 td ta tb)
  | .mul td ta tb => some (encR3 0x0A 0x02 td ta tb)
  | .mulh td ta tb => some (encR3 0x0A 0x03 td ta tb)
  | .div td ta tb => some (encR3 0x0A 0x04 td ta tb)
  | .divu td ta tb => some (encR3 0x0A 0x05 td ta tb)
  | .rem td ta tb => some (encR3 0x0A 0x06 td ta tb)
  | .and td ta tb => some (encR3 0x0A 0x08 td ta tb)
  | .or td ta tb => some (encR3 0x0A 0x09 td ta tb)
  | .xor td ta tb => some (encR3 0x0A 0x0A td ta tb)
  | .shl td ta tb => some (encR3 0x0A 0x0C td ta tb)
  | .shr td ta tb => some (encR3 0x0A 0x0D td ta tb)
  | .sra td ta tb => some (encR3 0x0A 0x0E td ta tb)
  | .min td ta tb => some (encR3 0x0A 0x10 td ta tb)
  | .max td ta tb => some (encR3 0x0A 0x11 td ta tb)
  | .slt td ta tb => some (encR3 0x0A 0x12 td ta tb)
  | .sltu td ta tb => some (encR3 0x0A 0x13 td ta tb)
  | .clz td ta => some (encR3 0x0A 0x14 td ta 0)
  | .popc td ta => some (encR3 0x0A 0x15 td ta 0)
  | .sel td ta tb tc => some (packR 0x0A { td := td, ta := ta, tb := tb, tc := tc, md := 0, fn := 0x16 })
  | .br cc ta tb off => some (packB 0x0B { ta := ta, tb := tb, cc := cc.code, off := off })
  | .jmpi ta => some (encR2 0x0C 0x00 0 ta 0)
  | .fld z t k => some (packF 0x0D { t := t, fw := k, md := BitVec.ofNat 6 (z.code.toNat * 16), fn := 0x00 })
  | .fst z t k => some (packF 0x0D { t := t, fw := k, md := BitVec.ofNat 6 (z.code.toNat * 16), fn := 0x01 })
  | .falloc td ta => some (encR2 0x0E 0x00 td ta 0)
  | .ffree ta => some (encR2 0x0E 0x01 0 ta 0)
  | .fself td => some (encR2 0x0E 0x02 td 0 0)
  | .fidx td ta => some (encR2 0x0E 0x03 td ta 0)
  | .slotset n ta => some (encR2 0x0F 0x00 0 ta n)
  | .slotarm n ta => some (encR2 0x0F 0x01 0 ta n)
  | .slotrd td n => some (encR2 0x0F 0x02 td 0 n)
  | .slotdis n => some (encR2 0x0F 0x03 0 0 n)
  | .send rel tv th n k => some (encTok 0 rel tv th n k)
  | .sendv rel tv th n k => some (encTok 1 rel tv th n k)
  | .sig rel th n amount => some (encTok 2 rel 0 th n amount)
  | .sigReg rel tv th n => some (encTok 2 rel tv th n 0)
  | .chpop v td p => some (encR2 0x11 0x00 td 0 (mdPort p v))
  | .chpeek v td p => some (encR2 0x11 0x01 td 0 (mdPort p v))
  | .chpush v ta p => some (encR2 0x11 0x02 0 ta (mdPort p v))
  | .chend p => some (encR2 0x11 0x03 0 0 (mdPort p false))
  | .chrcfg ta p => some (encR2 0x11 0x04 0 ta (mdPort p false))
  | .lgen td ta => some (encR2 0x12 0x00 td ta 0)
  | .lgstop g => some (encR2 0x12 0x01 0 0 (mdPort g false))
  | .launch td ta => some (encR2 0x13 0x00 td ta 0)
  | .ld z t tb off => some (packM 0x14 { t := t, tb := tb, off := off, sz := z.code, fn := 0 })
  | .st z t tb off => some (packM 0x14 { t := t, tb := tb, off := off, sz := z.code, fn := 1 })
  | .stt z t tb off => some (packM 0x14 { t := t, tb := tb, off := off, sz := z.code, fn := 2 })
  | .pst z t tb off => some (packM 0x14 { t := t, tb := tb, off := off, sz := z.code, fn := 3 })
  | .lds z k tb sl => some (encSplit 0x15 z k tb sl)
  | .ldro z k tb sl => some (encSplit 0x16 z k tb sl)
  | .aadd wd s k tb sl => some (encAmo 0 wd s k tb sl)
  | .aand wd s k tb sl => some (encAmo 1 wd s k tb sl)
  | .aor wd s k tb sl => some (encAmo 2 wd s k tb sl)
  | .axor wd s k tb sl => some (encAmo 3 wd s k tb sl)
  | .amin wd s k tb sl => some (encAmo 4 wd s k tb sl)
  | .amax wd s k tb sl => some (encAmo 5 wd s k tb sl)
  | .aswap wd s k tb sl => some (encAmo 6 wd s k tb sl)
  | .afadd s k tb sl => some (encAmo 7 .w s k tb sl)
  | .acas wd s k tb sl => some (encAmo 8 wd s k tb sl)
  | .fence k s => some (packR 0x18 { td := 0, ta := 0, tb := 0, tc := 0, md := BitVec.ofNat 6 (k.code * 16 + s.code.toNat), fn := 0 })
  | .hpdef td ta => some (encR2 0x19 0x00 td ta 0)
  | .hpput td ta => some (encR2 0x19 0x01 td ta 0)
  | .hpwait td ta => some (encR2 0x19 0x02 td ta 0)
  | .turndef td ta => some (encR2 0x1A 0x00 td ta 0)
  | .turngo td ta => some (encR2 0x1A 0x01 td ta 0)
  | .reddef td ta => some (encR2 0x1B 0x00 td ta 0)
  | .redput td ta => some (encR2 0x1B 0x01 td ta 0)
  | .pbdef td ta => some (encR2 0x1C 0x00 td ta 0)
  | .publ s ta => some (encR2 0x1C 0x01 0 ta (mdPair 0 s.code))
  | .vadd ty rm td ta tb => some (encV 0x1D 0x00 ty.code rm.code td ta tb 0)
  | .vsub ty rm td ta tb => some (encV 0x1D 0x01 ty.code rm.code td ta tb 0)
  | .vmul ty rm td ta tb => some (encV 0x1D 0x02 ty.code rm.code td ta tb 0)
  | .vfma ty rm td ta tb tc => some (encV 0x1D 0x03 ty.code rm.code td ta tb tc)
  | .vfms ty rm td ta tb tc => some (encV 0x1D 0x04 ty.code rm.code td ta tb tc)
  | .vmin ty rm td ta tb => some (encV 0x1D 0x05 ty.code rm.code td ta tb 0)
  | .vmax ty rm td ta tb => some (encV 0x1D 0x06 ty.code rm.code td ta tb 0)
  | .vdiv ty rm td ta tb => some (encV 0x1D 0x07 ty.code rm.code td ta tb 0)
  | .vsqrt ty rm td ta => some (encV 0x1D 0x08 ty.code rm.code td ta 0 0)
  | .vrcp ty rm td ta => some (encV 0x1D 0x09 ty.code rm.code td ta 0 0)
  | .vrsq ty rm td ta => some (encV 0x1D 0x0A ty.code rm.code td ta 0 0)
  | .vexp2 ty rm td ta => some (encV 0x1D 0x0B ty.code rm.code td ta 0 0)
  | .vlog2 ty rm td ta => some (encV 0x1D 0x0C ty.code rm.code td ta 0 0)
  | .viadd ty sat td ta tb => some (encV 0x1E 0x00 ty.code (satCode sat) td ta tb 0)
  | .visub ty sat td ta tb => some (encV 0x1E 0x01 ty.code (satCode sat) td ta tb 0)
  | .vimul ty sat td ta tb => some (encV 0x1E 0x02 ty.code (satCode sat) td ta tb 0)
  | .vand ty td ta tb => some (encV 0x1E 0x03 ty.code 0 td ta tb 0)
  | .vor ty td ta tb => some (encV 0x1E 0x04 ty.code 0 td ta tb 0)
  | .vxor ty td ta tb => some (encV 0x1E 0x05 ty.code 0 td ta tb 0)
  | .vshl ty sat td ta tb => some (encV 0x1E 0x06 ty.code (satCode sat) td ta tb 0)
  | .vshr ty td ta tb => some (encV 0x1E 0x07 ty.code 0 td ta tb 0)
  | .vsra ty td ta tb => some (encV 0x1E 0x08 ty.code 0 td ta tb 0)
  | .vcmp ty c td ta tb => some (encV 0x1F 0x00 ty.code c.code td ta tb 0)
  | .vsel ty td ta tb tc => some (encV 0x1F 0x01 ty.code 0 td ta tb tc)
  | .vperm ty td ta tb => some (encV 0x1F 0x02 ty.code 0 td ta tb 0)
  | .vbcast ty td ta => some (encV 0x1F 0x03 ty.code 0 td ta 0 0)
  | .vext ty td ta tb => some (encV 0x1F 0x04 ty.code 0 td ta tb 0)
  | .vins ty td ta tb => some (encV 0x1F 0x05 ty.code 0 td ta tb 0)
  | .vred ty o td ta => some (encV 0x1F 0x06 ty.code o.code td ta 0 0)
  | .vcvt src dst r p td ta => some (encV 0x20 0x00 src.code dst.code td ta r p)
  | .vdec ct p td ta => some (packR 0x20 { td := td, ta := ta, tb := 0, tc := p, md := BitVec.ofNat 6 ct.toNat, fn := 1 })
  | .venc ct p td ta => some (packR 0x20 { td := td, ta := ta, tb := 0, tc := p, md := BitVec.ofNat 6 ct.toNat, fn := 2 })
  | .ctld ct ta => some (encR2 0x20 0x03 0 ta (BitVec.ofNat 6 ct.toNat))
  | .tdef n ta => some (encR2 0x21 0x00 0 ta n)
  | .tstat td n => some (encR2 0x21 0x01 td 0 n)
  | .trel n => some (encR2 0x21 0x02 0 0 n)
  | .mxfmt td ta => some (encR2 0x22 0x00 td ta 0)
  | .mxldw td ta => some (encR2 0x22 0x01 td ta 0)
  | .mxstrm td ta => some (encR2 0x22 0x02 td ta 0)
  | .mxgang td ta => some (encR2 0x22 0x03 td ta 0)
  | .mxrd td ta => some (encR2 0x22 0x04 td ta 0)
  | .mxepi td ta => some (encR2 0x22 0x05 td ta 0)
  | .mxclr td ta => some (encR2 0x22 0x06 td ta 0)
  | .mxscan td ta => some (encR2 0x22 0x07 td ta 0)
  | .cpy td ta => some (encR2 0x23 0x00 td ta 0)
  | .cpym td ta => some (encR2 0x23 0x01 td ta 0)
  | .cpyx td ta => some (encR2 0x23 0x02 td ta 0)
  | .gath td ta => some (encR2 0x23 0x03 td ta 0)
  | .jstat td ta => some (encR2 0x23 0x04 td ta 0)
  | .jcan ta => some (encR2 0x23 0x05 0 ta 0)
  | .ings td ta => some (encR2 0x24 0x00 td ta 0)
  | .ingq td => some (encR2 0x24 0x01 td 0 0)
  | .rplay => some (encR2 0x25 0x00 0 0 0)
  | .tlbinv ta => some (encR2 0x25 0x01 0 ta 0)
  | .codeseal td ta => some (encR2 0x25 0x02 td ta 0)
  | .place td ta => some (encR2 0x25 0x03 td ta 0)
  | .cfgld td ta => some (encR2 0x25 0x04 td ta 0)
  | .cancel ta => some (encR2 0x25 0x05 0 ta 0)
  | .commitQueueRelease _ => none
  | .dispatch _ => none
  | .ageing _ => none
  | .frameTokenArrival _ => none
  | .channelTokenArrival _ => none
  | .creditReturn _ => none
  | .homeAccess _ => none
  | .loadCompletion _ => none
  | .atomicCompletion _ => none
  | .storeAcknowledgement _ => none
  | .hostResponse _ _ => none
  | .continuationPush _ _ => none
  | .spilledArrival _ => none
  | .writeBackComplete _ _ => none
  | .fillBackStart _ _ _ => none
  | .fillBackComplete _ _ => none
  | .generatorEmit _ _ => none
  | .lgenArrival _ => none
  | .launchAtTarget _ => none
  | .workCounterUpdate _ => none
  | .purge _ => none
  | .purgeAcknowledgement _ _ => none
  | .descriptorFetchComplete _ _ => none
  | .jobIssue _ => none
  | .pressJobRetire _ => none
  | .copyLineWrite _ _ => none
  | .copySourceRelease _ _ => none
  | .copyVisibleCompletion _ _ => none
  | .mxrdTokenSend _ => none
  | .reconfigRelocation _ _ => none
  | .checkpointPass _ _ => none
  | .spillRingAppend _ => none
  | .monitorSample _ _ => none
  | .publHoldEnd _ _ => none
  | .walkCompletion _ _ => none
  | .placeArrival _ => none
  | .codesealScan _ => none
  | .cfgldCompletion _ => none
  | .tlbinvAcknowledgement _ _ => none
  | .definitionReport _ => none
  | .reductionChunk _ => none
  | .hoopDecision _ => none
  | .turnGrantArrival _ => none
  | .blockLanding _ _ _ => none
  | .slotRegrant _ _ _ => none
  | .absenceNotice _ _ => none
  | .presenceNotice _ _ => none
  | .holdExpiry _ => none
  | .ingestToken _ _ => none
  | .quarantine _ _ => none
  | .ingestWatchdog _ _ => none
  | .rdmaWrite _ _ _ => none
  | .rdmaRead _ _ _ => none
  | .rdmaSend _ _ => none
  | .jobSubmission _ _ => none
  | .getVersion => none
  | .getCapabilities => none
  | .negotiateAlgorithms => none
  | .getCertificate _ _ => none
  | .challenge _ => none
  | .getMeasurements _ _ => none
  | .stewardRestart _ => none
  | .healthMapClear _ _ _ => none
  | .imageKeyReplace _ => none
  | .configurationRecordReplace _ _ _ _ => none
  | .firmwareReplace _ _ => none
  | .minimalModeExit => none
  | .start => none
  | .startStage _ => none
  | .stageWatchdog => none
  | .stewardReadyTimeout _ => none
  | .ethernetTimeout _ => none
  | .powerMeasurement _ _ _ => none
  | .verifyImage => none
  | .verifyImageResult => none
  | .logAppend _ => none
  | .firstxEmpty _ => none
  | .logOverflowClear _ => none
  | .clusterFlagClear _ _ => none
  | .kerfrepClear _ => none
  | .qringOverflowClear _ => none
  | .throttleFlagClear => none
  | .monitorClear _ => none
  | .replayPurge _ _ => none
  | .debugStop _ => none
  | .debugStep _ => none
  | .debugResume _ => none
  | .registerWrite _ _ _ => none
  | .stallDetection _ => none
  | .drainTimeout _ => none
  | .linkReplay _ _ => none
  | .heldPacketRelease _ => none
  | .kerfGuardDrop _ => none
  | .noRouteDrop _ => none
  | .refusalAcknowledgement _ => none
  | .voteDecision _ _ => none
  | .uncorrectableError _ _ => none
  | .checkpointInjection _ => none
  | .linkDegradationClear _ => none

/-- The row is an event of the part: it has no encoding. -/
def Instr.isEvent (i : Instr) : Bool := (encode i).isNone

/-- The instruction that the decoder reads from an opcode-table row's bits: one little-endian word of 32 bits (R176).
An event row has no bits and decodes to nothing. -/
def decodeTableWord (nbits w : Nat) : Option Instr :=
  if nbits = 0 then none
  else match decode (BitVec.ofNat 32 w) with
    | .ok i => some i
    | .error _ => none

end Sys2Proof
end

