-- ==== Sys2Proof/Config.lean ====
section
/-! DEFINITION. What the manual leaves open as a value: opaque constants that no proof can see into. Each is named in
a row of notes/assumptions/. The counter that feeds the numbered ones is State.fresh. -/

namespace Sys2Proof.Config

/-- A temporary's content at the entry of a firing (R45): one free value for each draw (log 5). -/
opaque freeVec : Nat → Vec

/-- A free 64-bit value: a token-pool word as a load sees it (log 6), an unassigned CSR (log 9). -/
opaque freeWord : Nat → Word

/-- Elements, less one and modulo 4,096, of a hoop whose home is on another device (R309, R311; log 62). -/
opaque hoopLen : Nat → Nat

/-- A byte that lies outside what the part holds: of the host's or another device's memory (log 18), or beyond local SRAM (log 58).
The draw, and the address. -/
opaque outsideByte : Nat → Nat → Byte

/-- The part is a -512, with 128 GiB of HBM on each die, and not a -384 with 96 GiB (R1, R108; log 28). -/
opaque is512 : Bool

/-- Byte i, of 64, of the key that the security processor made with a number: 32 bytes for the blocks of a line, 32 for its tweak
(R117; log 10). The key never leaves the device. -/
opaque keyByte : Nat → Nat → Byte

/-- The private key of the device's identity (R343, log 19): byte b of the secret string of a leaf and a digit. -/
opaque identityByte : Nat → Nat → Nat → Byte

/-- The identifier of that key, 16 bytes, by byte (R343, log 19). -/
opaque identityId : Nat → Byte

/-- The randomiser of the signature with a leaf, 32 bytes, by byte (R344, log 19). -/
opaque identityRandom : Nat → Nat → Byte

/-- The bodies of the SPDM answers CAPABILITIES and ALGORITHMS, by their response code (R343, log 19). -/
opaque spdmBody : Nat → List Byte

/-- The device's certificate chain bytes (R344, log 19). -/
opaque certificateByte : Nat → Byte

/-- Whether the earlier of two codes is taken for a value midway between their entries of equal magnitude, both or neither with bit 0
clear (R163, log 75). -/
opaque tieFirst : Nat → Nat → Bool

end Sys2Proof.Config
end

