-- ==== Sys2Proof/Machine/Aes.lean ====
section
/-! DEFINITION. AES-256-XTS (FIPS 197, IEEE 1619) on the lines of HBM (R16, R117): a line of 128 bytes is one data unit of eight
blocks, its tweak is its address ÷ 128, and its key is one of those that the security processor has made (log 10). -/

namespace Sys2Proof.Machine

/-! ## The byte field -/

/-- A product in the field of 256 elements, by the bits of the second factor, n of them from bit i on. -/
def fieldMul (x y : Byte) : Nat → Nat → Byte
  | 0, _ => 0
  | n + 1, i =>
    let x2 := (x <<< 1) ^^^ (if x.getLsbD 7 then 0x1B else 0)
    (if y.getLsbD i then x else 0) ^^^ fieldMul x2 y n (i + 1)

/-- A byte of the field times another. -/
def gfMul (x y : Byte) : Byte := fieldMul x y 8 0

/-- The inverse in the field, 0 for 0: the 254th power, as the product of the squares 2 to 128. -/
def gfInv (x : Byte) : Byte :=
  ((List.range 7).foldl (fun (e : Byte × Byte) _ => (gfMul e.1 e.1, gfMul e.2 (gfMul e.1 e.1))) (x, 1)).2

/-- The exclusive or of a byte's rotations to the left by some amounts. -/
def rotSum (x : Byte) (by_ : List Nat) : Byte := by_.foldl (fun v k => v ^^^ x.rotateLeft k) 0

/-- The substitution of a byte and its inverse. -/
def subByte (inverse : Bool) (x : Byte) : Byte :=
  if inverse then gfInv (rotSum x [1, 3, 6] ^^^ 0x05) else rotSum (gfInv x) [0, 1, 2, 3, 4] ^^^ 0x63

/-! ## A block of 16 bytes, column by column -/

/-- Two blocks by exclusive or. -/
def xorBlock (x y : List Byte) : List Byte := List.zipWith (· ^^^ ·) x y

/-- Row r of a block rotates by r columns: to the left, or to the right for the inverse. -/
def shiftRows (inverse : Bool) (b : List Byte) : List Byte :=
  (List.range 16).map (fun i =>
    let r := i % 4
    b.getD (4 * ((i / 4 + (if inverse then 4 - r else r)) % 4) + r) 0)

/-- The columns of a block times the fixed polynomial, given by its coefficients from that of a byte's own row on. -/
def mixColumns (poly : List Byte) (b : List Byte) : List Byte :=
  (List.range 16).map (fun i =>
    (List.range 4).foldl (fun v j => v ^^^ gfMul (poly.getD j 0) (b.getD (i / 4 * 4 + (i % 4 + j) % 4) 0)) 0)

/-- The next four bytes of a key schedule, word number n, behind the words so far, newest first. -/
def keyWord (n : Nat) (ws : List (List Byte)) : List Byte :=
  let last := ws.getD 0 []
  let t :=
    if n % 8 = 0 then
      xorBlock ((last.drop 1 ++ last.take 1).map (subByte false)) [(1 : Byte) <<< (n / 8 - 1), 0, 0, 0]
    else if n % 8 = 4 then last.map (subByte false) else last
  xorBlock (ws.getD 7 []) t

/-- The key schedule extended by n words. -/
def keyWords : Nat → Nat → List (List Byte) → List (List Byte)
  | 0, _, ws => ws
  | n + 1, k, ws => keyWords n (k + 1) (keyWord k ws :: ws)

/-- The 15 round keys of a key of 32 bytes. -/
def roundKeys (key : List Byte) : List (List Byte) :=
  let first := (List.range 8).map (fun i => (key.drop (4 * i)).take 4)
  let all := (keyWords 52 8 first.reverse).reverse
  (List.range 15).map (fun r => ((all.drop (4 * r)).take 4).flatten)

/-- A block enciphered. -/
def aesEncrypt (ks : List (List Byte)) (b : List Byte) : List Byte :=
  (List.range 14).foldl (fun x r =>
    let y := shiftRows false (x.map (subByte false))
    xorBlock (if r = 13 then y else mixColumns [2, 3, 1, 1] y) (ks.getD (r + 1) [])) (xorBlock b (ks.getD 0 []))

/-- A block deciphered. -/
def aesDecrypt (ks : List (List Byte)) (b : List Byte) : List Byte :=
  xorBlock ((List.range 14).foldl (fun x r =>
    let y := xorBlock x (ks.getD (14 - r) [])
    (shiftRows true (if r = 0 then y else mixColumns [14, 11, 13, 9] y)).map (subByte true)) b) (ks.getD 0 [])

/-! ## XTS on a line (R117) -/

/-- The number that a block holds, little-endian, and back. -/
def blockNat : List Byte → Nat
  | [] => 0
  | b :: t => b.toNat + 256 * blockNat t

/-- A number as n bytes, little-endian. -/
def natBlock : Nat → Nat → List Byte
  | 0, _ => []
  | n + 1, v => BitVec.ofNat 8 v :: natBlock n (v / 256)

/-- The tweak of the next block: the last one times the element 2 of the field of 2^128 elements. -/
def tweakNext (t : Nat) : Nat := (2 * t % 2 ^ 128) ^^^ (if t < 2 ^ 127 then 0 else 0x87)

/-- The tweak of block j of a line. -/
def tweakAt (ks : List (List Byte)) (line j : Nat) : List Byte :=
  natBlock 16 ((List.range j).foldl (fun t _ => tweakNext t) (blockNat (aesEncrypt ks (natBlock 16 line))))

/-- Half 0 or 1 of the key with a number: the key of the blocks, or of the tweaks. -/
def keyHalf (keyNo half : Nat) : List Byte := (List.range 32).map (fun i => Config.keyByte keyNo (32 * half + i))

/-- Block j of a line's plaintext, read under another key than the one that it was written under. -/
def xtsReread (line j old new : Nat) (plain : List Byte) : List Byte :=
  let t (k : Nat) : List Byte := tweakAt (roundKeys (keyHalf k 1)) line j
  let cipher := xorBlock (aesEncrypt (roundKeys (keyHalf old 0)) (xorBlock plain (t old))) (t old)
  xorBlock (aesDecrypt (roundKeys (keyHalf new 0)) (xorBlock cipher (t new))) (t new)

end Sys2Proof.Machine
end

