-- ==== Sys2Proof/Machine/State.lean ====
section
/-! DEFINITION. The state of the package: plain data, every piece of state that the manual names, and the reasons for
which a step can stop. INVENTORY.md lists each field with its rule and its reset value. -/

namespace Sys2Proof.Machine

/-- A sparse table: keys rising, a key that is not listed reads as the table's default. -/
abbrev Tab (α : Type) := List (Nat × α)

/-! ## Cores: tokens, channels, frames, firings -/

/-- Kind of a channel token (R41). -/
inductive TokKind where
  | data | endm | checkpoint | reconfig
  deriving DecidableEq, Repr

/-- A token of a channel (R41); a vector token holds 512 bits of data. -/
structure Token where
  kind   : TokKind
  side   : Byte
  colour : Nat
  vec    : Bool
  data   : Vec
  deriving DecidableEq, Repr

/-- A channel table entry (R78) with the tokens it holds, oldest first. -/
structure Chan where
  base  : Nat
  depth : Nat
  en    : Bool
  head  : Nat
  tail  : Nat
  occ   : Nat
  port  : Nat
  vnode : Nat
  pcore : Nat
  pport : Nat
  rcfg  : Bool
  toks  : List Token
  /-- Cycle at which each of them arrived (R431). -/
  times : List Nat
  deriving DecidableEq, Repr

/-- State of a frame table entry (R29, R30). -/
inductive FrameState where
  | free | local | spilling | spilled | filling
  deriving DecidableEq, Repr

/-- The four limits of a waiting CONT (R68). -/
structure Limits where
  ld : Nat
  st : Nat
  cp : Nat
  tl : Nat
  deriving DecidableEq, Repr

/-- A ready entry (R65). Entries stand in push order within a level; its age is the cycles since `since`. -/
structure Ready where
  frame : Nat
  entry : Nat
  prio  : Nat
  bprio : Nat
  slot  : Nat
  since : Nat
  cont  : Bool
  /-- Frame index and generation of the HANDLER slot that made a handler frame's first entry: its slot word lies there (R410). -/
  home  : Option (Nat × Nat)
  deriving DecidableEq, Repr

/-- A frame table entry (R29), with what the spill engine records of it (R118, R120) and what a waiting CONT holds (R68). -/
structure Frame where
  state    : FrameState
  fclass   : Nat
  gen      : Nat
  static   : Bool
  hframe   : Bool
  nslot    : Nat
  poolofs  : Nat
  vnode    : Nat
  launch   : Nat
  parent   : Handle
  iter     : Word
  nld      : Nat
  npst     : Nat
  ncpy     : Nat
  ntile    : Nat
  contslot : Nat
  contwait : Bool
  limits   : Limits
  /-- Body slot while SPILLING, SPILLED or FILLING. -/
  body     : Option Nat
  /-- The ready entries that the fill-back pushes when it completes (R120): one, or one for each slot at count 0 of a frame that
  LAUNCH creates born spilled (R226). -/
  wake     : List Ready
  /-- The frame was freed in SPILLING or FILLING, which takes effect when the transfer completes (R121). -/
  dying    : Bool
  /-- Cycle of its last progress event (R431). -/
  progress : Nat
  /-- The stall detector has reported the frame since its last progress (R431). -/
  reported : Bool
  deriving DecidableEq, Repr

/-- The read-only context of a firing, fixed at its dispatch (R45). -/
structure Ctx where
  core   : Nat
  frame  : Nat
  gen    : Nat
  slot   : Nat
  vnode  : Nat
  launch : Nat
  parent : Handle
  iter   : Word
  prio   : Nat
  tenant : Nat
  /-- The firing runs the marker entry or reserved tokens of a STREAM or MATCH slot (R38, R39, R43). -/
  reserved : Bool
  deriving DecidableEq, Repr

/-- What a STREAM or MATCH slot reserved when it fired (R38, R39, R43): tokens of each input port and credit units of
each output port. -/
structure Resv where
  inToks  : List (Nat × Nat)
  credits : Tab Nat
  deriving DecidableEq, Repr

/-- Kinds of a memory request (R126) that a core makes. -/
inductive AccKind where
  | lds | ldro | st | stt | pst
  | atomic (op : Nat) (x y : Word) (scope : Scope)
  deriving DecidableEq, Repr

/-- A held action of the commit queue (R47), or a mark that takes no entry. -/
inductive Act where
  /-- A store, split-phase load or atomic: address, size in bytes, data, side-band at issue, frame word and slot. -/
  | access (kind : AccKind) (va : Word) (size : Nat) (data : Vec) (side : Byte) (k slot : Nat)
  /-- SEND (payload 8), SENDV (payload 64) or SIG (payload 0): destination, slot, frame word, amount, data, side-band. -/
  | send (rel : Option SendScope) (dest : Handle) (slot k amount payload : Nat) (data : Vec) (side : Byte)
  | slotSet (n : Nat) (v : BitVec 24)
  | slotArm (n : Nat) (v : BitVec 24)
  | slotDis (n : Nat)
  | chPop (port : Nat)
  | chPush (port : Nat) (vec : Bool) (data : Vec) (side : Byte)
  | chEnd (port : Nat) (side : Byte)
  | chRcfg (port depth : Nat) (side : Byte)
  | ffree (h : Handle)
  | lgen (desc : Vec)
  | lgstop (g : Nat)
  | launch (id : Nat) (desc : Vec)
  | roinv
  | rplay
  | tlbinv (op : Word)
  | codeseal (desc : Vec)
  | place (desc : Vec)
  | cfgld (desc : Vec)
  | cancel (id : Nat)
  | ctld (table : Nat) (op : Word)
  | tdef (tile : Nat) (geom : Vec)
  | trel (tile : Nat)
  | mxfmt (desc : Vec)
  | mxepi (desc : Vec)
  | mxclr (desc : Vec)
  /-- A reserved engine job becomes QUEUED (R72). -/
  | job (id : Nat)
  | jcan (id : Nat)
  | ings (ticket : Nat) (desc : Vec)
  | hpdef (desc : Vec)
  | hpput (desc : Vec)
  | hpwait (desc : Vec)
  | turndef (desc : Vec)
  | reddef (desc : Vec)
  | redput (desc : Vec)
  | pbdef (desc : Vec)
  | publ (scope : Scope) (op : Word)
  /-- A FENCE mark (R133). -/
  | fence (kind : FenceKind) (scope : Scope)
  /-- The END of the firing: reserved tokens are consumed and a handler frame is freed (R201). -/
  | endMark
  /-- The CONT of the firing, its last action (R68). -/
  | cont (lim : Limits) (slot : Nat)
  deriving DecidableEq, Repr

/-- An action in the commit queue with the firing that held it and its word address (R370); `open` while that
firing has not ended. -/
structure Held where
  act  : Act
  ctx  : Ctx
  pc   : Nat
  ended : Bool
  deriving DecidableEq, Repr

/-- The running firing (R45, R46). -/
structure Firing where
  ctx    : Ctx
  pc     : Nat
  temps  : Vector Vec 8
  /-- The firing flag set (R173). -/
  flags  : Byte
  issued : Nat
  /-- Held actions of the firing (R46). -/
  held   : Nat
  /-- CHPOPs issued on each input port (R222). -/
  pops   : Tab Nat
  /-- Frames that the firing allocated with FALLOC (R351). -/
  allocs : List Handle
  /-- Engine jobs reserved by the firing (R351). -/
  jobs   : List Nat
  /-- Work table entries reserved by a LAUNCH of the firing (R226). -/
  launches : List Nat
  /-- Its activation was purged, so its held actions are discarded at its END (R57). -/
  purged : Bool
  deriving DecidableEq, Repr

/-- A placement table entry (R62). -/
structure Place where
  valid : Bool
  vnode : Nat
  core  : Nat
  deriving DecidableEq, Repr

/-- A code table (R160): one of the presets of R164, or a loaded image of 256 entries and a header. -/
inductive CodeTable where
  | preset (image : Nat)
  | image (entries : List (BitVec 32)) (header : BitVec 32)
  deriving DecidableEq, Repr

/-- State of a tile (R98). -/
inductive TileState where
  | empty | filling | ready | draining
  deriving DecidableEq, Repr

/-- A tile table entry (R98); `rows`, `cols` hold the counts minus 1. -/
structure Tile where
  buf     : Nat
  state   : TileState
  esize   : Nat
  base    : Nat
  rows    : Nat
  cols    : Nat
  expect  : Nat
  arrived : Nat
  nref    : Nat
  deriving DecidableEq, Repr

/-- The Press format context (R263). -/
structure FmtCtx where
  afmt : Nat
  atab : Nat
  wfmt : Nat
  wtab : Nat
  ofmt : Nat
  otab : Nat
  sat  : Bool
  sa   : Int
  sw   : Int
  rm   : Rnd
  deriving DecidableEq, Repr

/-- A tag record (R270): expected sequence, step count, epilogue stage words, row-state base, present bit. -/
structure TagRec where
  expect  : Nat
  steps   : Nat
  stages  : List Word
  rsbase  : Nat
  present : Bool
  deriving DecidableEq, Repr

/-- A row-state entry: μ and σ as XF34 (R270). -/
structure RowState where
  mu    : BitVec 34
  sigma : BitVec 34
  deriving DecidableEq, Repr

/-- A Press slice with its buffers (R97, R263, R266, R270). -/
structure Press where
  fmt    : FmtCtx
  wbuf   : List Host.Cell
  abuf   : List Host.Cell
  cbuf   : Tab (BitVec 40)
  active : Tab (BitVec 19)
  shadow : Tab (BitVec 19)
  tags   : Tab TagRec
  rowst  : Tab RowState
  /-- Clears of MXCLR that the slice has still to perform: the issue order of the last job before each, the tile's entry and the row-state
  base at its release, and its operand (R271). -/
  clears : List (Nat × Tile × Nat × Vec)
  deriving DecidableEq, Repr

/-- State of a loop generator (R53). -/
inductive GenState where
  | idle | bound | run
  deriving DecidableEq, Repr

/-- A loop generator (R52, R53). -/
structure Gen where
  state  : GenState
  vnode  : Nat
  depth  : Nat
  bsrc   : Nat
  /-- The bound fields of the descriptor. -/
  dbound : Tab Nat
  /-- The bounds of the sweeps in progress. -/
  bounds : Tab Nat
  /-- The next index vector. -/
  idx    : Tab Nat
  /-- Levels whose sweep still needs its bound, highest first. -/
  need   : List Nat
  /-- LGSTOP or a checkpoint was met: the nest ends after the vector in progress. -/
  stop   : Bool
  /-- The nest is over and the END markers are still to be sent. -/
  done   : Bool
  /-- A CHECKPOINT was injected and is still to be sent (R81). -/
  marked : Bool
  /-- A CHECKPOINT has been sent: the generator holds its indices and bounds (R81). -/
  parked : Bool
  deriving DecidableEq, Repr

/-- The figures of a monitor unit (R88). -/
structure MonFig where
  min  : Nat
  max  : Nat
  cnt  : Nat
  sum  : Nat
  hist : Tab Nat
  deriving DecidableEq, Repr

/-- Configuration state of a core (R383). -/
inductive CfgState where
  | unloaded | loading | loaded | blocked
  deriving DecidableEq, Repr

/-- A translation that a TLB holds (R113): a 64 KiB or 16 MiB leaf of an address space. -/
structure TlbEnt where
  asid  : Nat
  vpage : Nat
  big   : Bool
  pte   : Word
  deriving DecidableEq, Repr

/-- A split-phase request whose parts have not all returned (R241). -/
structure Pending where
  id    : Nat
  frame : Nat
  gen   : Nat
  k     : Nat
  slot  : Nat
  size  : Nat
  /-- Parts still out. -/
  parts : Nat
  /-- Bytes and side-bands that returned, by their offset in the value. -/
  bytes : List Host.Cell
  sides : Tab Byte
  /-- A part was refused: zeros with NV are written (R392). -/
  failed : Bool
  deriving DecidableEq, Repr

/-- The unacknowledged-store counts (R129). -/
structure Unack where
  clus : Nat
  die  : Nat
  pkg  : Nat
  sys  : Nat
  load : Nat
  deriving DecidableEq, Repr

/-- A core, tenant or steward. Its local SRAM and instruction store lie in State.mem. -/
structure CoreSt where
  -- configuration (R92, R118, R206, R232, R383)
  cfg       : CfgState
  asid      : Nat
  jprio     : Nat
  jwork     : Nat
  gwork     : Nat
  detmode   : Bool
  fpool     : Nat
  poolKiB   : Nat
  spillk    : Nat
  spillbase : Nat
  darea     : Nat
  /-- The graph's descriptor area in HBM, by virtual node id (R63, log 25). -/
  dareaTab  : Tab Rec
  sealed    : BitVec 16
  dropped   : Bool
  -- dataflow (R29, R39, R62 to R65, R78, R79)
  frames    : Tab Frame
  chans     : Tab Chan
  credits   : Tab Int
  ready     : List Ready
  place     : Tab Place
  /-- The descriptor store, least recently dispatched first (R63, R64). -/
  descs     : Tab Rec
  /-- Nodes whose descriptor is being fetched (R63). -/
  fetching  : List Nat
  /-- Reservations of STREAM and MATCH slots, by frame × 64 + slot. -/
  resvs     : Tab Resv
  /-- Ports on which a SINK has counted its END, and its CHECKPOINT, by node: a mask of four bits each (R44, R83). -/
  sinkEnd   : Tab Nat
  sinkCk    : Tab Nat
  sinkDone  : List Nat
  gens      : Tab Gen
  /-- Nodes that stand at a checkpoint, each with the dynamic activations that it had when it came to stand there (R82). -/
  ckpt      : Tab (List Handle)
  -- issue (R45 to R51, R129, R133)
  firing    : Option Firing
  queue     : List Held
  pend      : List Pending
  unack     : Unack
  /-- A TLBINV of this steward waits for these dies (R229). -/
  tlbWait   : List Nat
  /-- Operand of that TLBINV. -/
  tlbOp     : Word
  halted    : Bool
  stopped   : Bool
  /-- A PKG or SYS atomic that the queue waits for (R135), by request id. -/
  atomWait  : Option Nat
  ctags     : Vector CodeTable 4
  -- engines (R71, R97, R98)
  tiles     : Tab Tile
  press     : Press
  jobSeq    : Nat
  -- CSRs (R89, R206, R366)
  firings   : Word
  fflags    : BitVec 7
  firstx    : Rec
  more      : Bool
  monsel0   : Word
  monsel1   : Word
  mon0      : MonFig
  mon1      : MonFig
  -- translation (R113)
  tlb       : List TlbEnt
  -- debugger (R407)
  dbgStop   : Bool
  dbgStep   : Bool
  -- ingest counts (R292)
  inflight  : Nat
  qcount    : Nat
  qover     : Bool
  qlast     : Nat
  /-- Compare buffer of each VOTE node (R430): the copy still missing and the value decided, oldest position first. -/
  votes     : Tab (List (Nat × Token))
  deriving DecidableEq, Repr

/-! ## Requests and messages -/

/-- A memory request after release (R391). -/
structure Req where
  id    : Nat
  kind  : AccKind
  ctx   : Ctx
  pc    : Nat
  asid  : Nat
  va    : Word
  size  : Nat
  /-- Byte offset of this part in the whole value (R241). -/
  ofs   : Nat
  data  : Vec
  side  : Byte
  k     : Nat
  slot  : Nat
  /-- Physical address and key id, once translated. -/
  pa    : Nat
  key   : Nat
  /-- UNACK fields in which it counts as a store: 1 CLUS, 2 DIE, 4 PKG, 8 SYS (R129). -/
  scopes : Nat
  /-- Published buffer of the page that translated it; 0 for an ordinary page (R141). -/
  pb    : Nat
  /-- A fill of the read-only cache: the invalidations of the cluster at its release, plus 1; else 0 (R144). -/
  fill  : Nat
  /-- UNACK fields in which the flag-map store that follows an STT counts already (R129, R174). -/
  mapScopes : Nat
  /-- It has been parked, so it holds the core's later ordered accesses until it has been performed (R395). -/
  wasParked : Bool
  /-- The device that sent it, when that is another one (R299). -/
  dev   : Option Nat
  deriving DecidableEq, Repr

/-- An agent of the network (R297). -/
inductive Agent where
  | core (id : Nat)
  | slice (cluster : Nat)
  | press (core : Nat)
  | copy (cluster : Nat)
  | router (cluster : Nat)
  | ingest (die : Nat)
  | work (die : Nat)
  | die (die : Nat)
  | host
  /-- Another device, at one of its cores (R298); requests and collective packets name core 0 there (log 18). -/
  | device (id core : Nat)
  deriving DecidableEq, Repr

/-- The four network classes (R296). -/
inductive NetClass where
  | request | response | token | collective
  deriving DecidableEq, Repr

/-- Where a frame token goes: a frame handle, or the node frame of a static destination (R219, R220). -/
inductive FrameDest where
  | handle (h : Handle)
  | node (vnode : Nat)
  deriving DecidableEq, Repr

/-- A chunk of 64 elements on its way (R305, R306, R311): of a member's contribution to a hoop, its elements; of a reduction, a
partial of some members in long-partial form (R170). The checksum is that of R171. -/
structure Chunk where
  ref    : Nat
  member : Nat
  index  : Nat
  use    : Nat
  /-- Elements of a hoop whose home is on another device, a free value (R311; log 62); 0 for other contributions. -/
  len    : Nat
  elems  : List (BitVec 32)
  forms  : List (BitVec 16 × List Word)
  sum    : Nat
  /-- Members that a partial counts. -/
  count  : Nat
  /-- It takes the alternative tree (R308). -/
  alt    : Bool
  /-- It has been discarded once and sent again (R421). -/
  again  : Bool
  desc   : Vec
  ctx    : Ctx
  pc     : Nat
  /-- Device of the member. -/
  dev    : Nat
  deriving DecidableEq, Repr

/-- What a packet carries. -/
inductive Msg where
  /-- Frame token or arrival: payload 0, 8 or 64 bytes into F[k]; the sender's handle for a HANDLER (R219, R40);
  `lost` for an ACTIVATION LOST message (R358). -/
  | frame (dest : FrameDest) (slot k amount payload : Nat) (data : Vec) (side : Byte) (sender : Handle) (lost : Bool)
  /-- Channel token to an input port of a node (R220); a steward's or an ingest unit's draws no port credit. -/
  | chan (vnode port : Nat) (tok : Token)
  /-- Returned credit units for the output port that feeds the named input port (R42, R80). -/
  | credit (vnode port : Nat) (units : Int)
  | access (r : Req)
  | loadResp (r : Req) (bytes : List Byte) (sides : List Byte)
  | atomResp (r : Req) (old : Word) (side : Byte)
  | ack (r : Req)
  /-- The refusal of a request at its home or by the network, with class and code (R370, R417). -/
  | refuse (r : Req) (cls code : Nat)
  /-- Refusal acknowledgement of a dropped token, with the credit it restores (R384, R417). -/
  | refuseTok (vnode port : Nat) (units : Int)
  | lgen (desc : Vec) (ctx : Ctx) (pc : Nat)
  /-- A LAUNCH command at its target, with the number of activations created so far (R226). -/
  | launch (id : Nat) (desc : Vec) (ctx : Ctx) (made : Nat)
  /-- A change of a work table entry's counter; `status` of the completion that lowers it (R56, R449). -/
  | work (index : Nat) (seq : Nat) (delta : Int) (status : Nat)
  | purge (die index : Nat)
  | purgeAck (die index core : Nat)
  | place (desc : Vec)
  /-- A CODESEAL on its way; requests of its core with a lower number were released before it (R143). -/
  | sealCmd (desc : Vec) (reqNo : Nat)
  | cfgld (desc : Vec)
  /-- A definition whose reads wait for a page (R309): 0 HPDEF, 2 PBDEF. -/
  | define (kind : Nat) (desc : Vec) (ctx : Ctx)
  /-- A definition report: reason code, member count, and where it goes (R303). -/
  | defReport (code members : Nat) (h : Handle) (slot fw : Nat)
  | redChunk (c : Chunk)
  | hpput (c : Chunk)
  /-- An HPWAIT for a hoop of another device, and the device that it comes from (R314). -/
  | hpwait (desc : Vec) (ctx : Ctx) (dev : Nat)
  /-- A home has taken a chunk of a contribution and asks its member's router for the next one (R311). -/
  | hpNext (c : Chunk)
  /-- The status word of a contribution, at the member's device (R305, R311). -/
  | putStatus (c : Chunk) (word : Word)
  /-- A reduction's tree is configured on another device, which answers with its members (R304). -/
  | redTree (desc : Vec) (ctx : Ctx) (det : Bool)
  | redReady (ref members : Nat) (ok : Bool)
  /-- A use has ended, by outcome and flags; a chunk has failed twice; a link of the tree is lost; and the chunk from which the
  alternative tree is taken (R307, R308, R423). -/
  | redEnd (ref use outcome flags : Nat)
  | redFail (ref use : Nat)
  | redLink (ref : Nat)
  | redCut (ref use index : Nat)
  | grant (ring slot : Nat)
  /-- Bytes of a Turn ring block for a slot of another device's ring entry: origin and hop count, part, place and bytes, the length of the
  block, and the job that sends it (R317); and the answer once the block has landed (R318). -/
  | block (ring slot : Nat) (tag : Nat × Nat) (isK : Bool) (ofs : Nat) (bytes : List Byte) (total : Nat) (cluster job : Nat)
  | blockDone (cluster job : Nat)
  /-- A copy job's READ and WRITE of the host's memory (R335), by queue, id and physical address. -/
  | copyRead (queue : JobQueue) (id pa len : Nat)
  | copyWrite (queue : JobQueue) (id pa : Nat) (bytes : List Byte)
  deriving DecidableEq, Repr

/-- A packet in the network; `held` while a reroute holds it at its source (R416). -/
structure Packet where
  src    : Agent
  dst    : Agent
  cls    : NetClass
  tenant : Nat
  msg    : Msg
  held   : Bool
  deriving DecidableEq, Repr

/-! ## Clusters -/

/-- State of an engine job (R72). -/
inductive JobState where
  | reserved | queued | issued
  deriving DecidableEq, Repr

/-- Engine job opcodes (R259, R318). -/
inductive JobOp where
  | mxldw | mxstrm | mxgang | mxrd | mxscan
  | cpy | cpym | cpyx | gath | turngo
  deriving DecidableEq, Repr

/-- How a copy job failed (R381): fcode, class, code and faulting address, where there is one. -/
structure JobFault where
  fcode : Nat
  cls   : Nat
  code  : Nat
  addr  : Option Nat
  deriving DecidableEq, Repr

/-- An engine job (R72, R265, R279). -/
structure Job where
  id      : Nat
  op      : JobOp
  ctx     : Ctx
  pc      : Nat
  desc    : Vec
  state   : JobState
  prio    : Nat
  /-- Cycle at which it reached its present priority (R74). -/
  since   : Nat
  /-- Tiles, as core and tile, whose nref it has raised (R260). -/
  refs    : List (Nat × Nat)
  /-- The format context in force at its release (R75). -/
  fmt     : FmtCtx
  /-- Issue order of the queue, from 1; 0 before issue. -/
  order   : Nat
  /-- Progress of a copy: lines done, bytes written to each receiver, elements and checksum of CPYX. -/
  line    : Nat
  bytes   : Nat
  aux     : Nat
  /-- Bytes of a BIAS stage captured at issue (R275), or of a copy's transformed source. -/
  buf     : List Byte
  /-- Side-bands of those bytes, and the place of the first in the job's order. -/
  sbuf    : List Byte
  bufAt   : Nat
  /-- A CPYX has read its source; the slot of a RELEASE has been granted again. -/
  ready   : Bool
  parked  : Bool
  fault   : Option JobFault
  cancelled : Bool
  srcDone : Bool
  recDone : Bool
  /-- The row of a GATH in progress and its source row, as its index was read (R283). -/
  row     : Option (Nat × Nat)
  /-- Bytes of the host's memory that its READs have brought, by physical address, and the READs and WRITEs that still want their
  answer (R335). -/
  hostIn  : List (Nat × List Byte)
  hostOut : List Nat
  /-- Tokens of an MXRD still to be sent (R274). -/
  toks    : List Token
  /-- Receivers' tiles, as core and tile, at which a block's bytes wait until the tile is EMPTY (R317). -/
  late    : List (Nat × Nat)
  reported : Bool
  /-- Cycle of its last progress (R431). -/
  progress : Nat
  deriving DecidableEq, Repr

/-- A fault buffer entry (R398). -/
structure FltEnt where
  wr    : Bool
  level : Nat
  asid  : Nat
  count : Nat
  vpage : Nat
  core  : Nat
  kind  : Nat
  deriving DecidableEq, Repr

/-- A request in translation or parked: a core's request, a copy job's line, the source read of a contribution, or an engine's
result. -/
inductive XReq where
  | core (r : Req)
  | copy (queue : JobQueue) (id : Nat) (asid : Nat) (va : Word) (wr : Bool)
  | source (asid : Nat) (va : Word) (m : Msg) (core : Nat)
  /-- A write of a result or of a generation word waits for its page (R141, R313); for a result, the collective. -/
  | wait (asid : Nat) (va : Word) (core : Nat) (who : Option Collective)
  deriving DecidableEq, Repr

/-- State of a slot of a ring entry (R317). -/
inductive RingSlot where
  | granted | landing | landed | releasing
  deriving DecidableEq, Repr

/-- A ring table entry (R316 to R318). -/
structure Ring where
  desc    : Vec
  core    : Nat
  slots   : Tab RingSlot
  /-- For each slot the origin index and hop count of its block. -/
  blocks  : Tab (Nat × Nat)
  /-- Forward of a slot still owed before it can be granted again. -/
  fwd     : Tab Bool
  /-- Grants held from the successor: its slot numbers, oldest first. -/
  grants  : List Nat
  /-- Blocks that another device sends, by slot: device, cluster and id of the job, and bytes still to come or to land (R317). -/
  incoming : Tab (Nat × Nat × Nat × Nat)
  /-- Bytes of such a block that wait at a receiver: slot, core, tile, place and bytes. -/
  late    : List (Nat × Nat × Nat × Nat × List Byte)
  failed  : Bool
  deriving DecidableEq, Repr

/-- A valid line of a cache slice (R104, R107): its address ÷ 128, the key id that tags it, and whether it is dirty. -/
structure SliceLine where
  line  : Nat
  key   : Nat
  dirty : Bool
  deriving DecidableEq, Repr

/-- A long accumulator (R168): a 320-bit two's-complement sum and the flags nan, pinf and ninf. -/
structure LongAcc where
  v    : BitVec 320
  nan  : Bool
  pinf : Bool
  ninf : Bool
  deriving DecidableEq, Repr

/-- One of the two trees of a reduction as a router's unit knows it (R304, R308): its parent, none at the root; its child routers;
and the members that count in its partials. -/
structure RedTree where
  parent : Option Agent
  kids   : List Nat
  need   : Nat
  deriving DecidableEq, Repr

/-- A chunk in progress at a router's reduction unit (R306): its sums, the combined checksum, and the members counted. -/
structure RedPart where
  use   : Nat
  index : Nat
  acc   : List LongAcc
  sum   : Nat
  count : Nat
  deriving DecidableEq, Repr

/-- The reduction unit of a router, for one reduction (R304 to R308). -/
structure RedUnit where
  desc    : Vec
  ctx     : Ctx
  /-- The job of the reduction runs in determinism mode (R308, R322). -/
  det     : Bool
  members : List Nat
  tree    : RedTree
  alt     : RedTree
  /-- Use and chunk from which the alternative tree is taken. -/
  cut     : Option (Nat × Nat)
  /-- In determinism mode a link to the parent is retired or degraded, so chunks wait for it. -/
  cutoff  : Bool
  /-- The use in progress. -/
  use     : Nat
  /-- REDPUTs that each local member has released, and the chunk from which its next one begins when a read of the one before failed. -/
  sent    : Tab Nat
  redo    : Tab Nat
  /-- Contributions of the local members whose use has not ended. -/
  puts    : List Chunk
  /-- Uses that failed, with their outcome (R423). -/
  lost    : Tab Nat
  parts   : List RedPart
  deriving DecidableEq, Repr

/-- A cluster of a die. -/
structure Cluster where
  /-- Valid lines of its cache slice, least recently accessed first (R104); their data stand in State.mem (log 22). -/
  lines   : List SliceLine
  /-- Read-only cache: line address and its 128 bytes (R103). -/
  rocache : Tab (List Byte)
  /-- Fills in flight at an invalidation are not installed (R144): the count of invalidations so far. -/
  roEpoch : Nat
  /-- Descriptor cache (R63), by virtual node id. -/
  dcache  : Tab Rec
  tlb     : List TlbEnt
  walking : List XReq
  parked  : List XReq
  fltbuf  : List FltEnt
  drop    : Bool
  stop    : Bool
  pressQ  : List Job
  copyQ   : List Job
  issueNo : Nat
  rings   : Tab Ring
  /-- Ring packets that reached an entry before its TURNDEF (R316): entry and slot. -/
  ringHeld : List (Nat × Nat)
  /-- Reduction unit of its router, by collective reference (R304). -/
  reds    : Tab RedUnit
  flags   : BitVec 8
  /-- Cycle from which CLFLAGS shows each bit of `flags` (R368). -/
  seen    : Tab Nat
  health  : BitVec 32
  deriving DecidableEq, Repr

/-! ## Dies -/

/-- State of a work table entry (R55). -/
inductive WorkState where
  | free | opened | done | cancelling
  deriving DecidableEq, Repr

/-- A work table entry (R55), with its completion status (R449) and what a cancel still waits for (R57). -/
structure Work where
  level    : Nat
  state    : WorkState
  counter  : Nat
  tenant   : Nat
  pidx     : Nat
  pdie     : Nat
  seq      : Nat
  chandle  : Handle
  cslot    : Nat
  status   : Nat
  /-- Reserved by a LAUNCH that is not released yet (R226). -/
  reserved : Bool
  /-- A LAUNCH has reserved the entry before, so the next one takes the next seq (R448). -/
  used     : Bool
  /-- Cores that have not acknowledged the purge yet. -/
  acks     : List Nat
  /-- Submission of a job entry: its source address and datagram (R337). -/
  sub      : Nat × Vec
  /-- Address of the graph image of a job entry that is loaded or about to be (R338). -/
  image    : Nat
  deriving DecidableEq, Repr

/-- What a hoop or a reduction is doing (R307, R315). -/
inductive CollPhase where
  | opened | closing | publishing
  deriving DecidableEq, Repr

/-- The contribution that a hoop's home is adding (R312, R424): its last chunk's fields, its lag, and the accumulators with what has been
added of it so far. -/
structure HoopPut where
  chunk : Chunk
  lag   : Nat
  acc   : Tab LongAcc
  deriving DecidableEq, Repr

/-- A hoop at a home router (R309 to R315). -/
structure Hoop where
  desc   : Vec
  ctx    : Ctx
  phase  : CollPhase
  /-- The definition is in force; until its lag table has been read, the hoop holds its ways only (R309). -/
  ready  : Bool
  /-- A result page was purged, so the round closes without it (R398). -/
  force  : Bool
  rho    : Nat
  acc    : Tab LongAcc
  ontime : List Nat
  late   : List Nat
  weight : Nat
  /-- Last accepted tag of each member. -/
  tags   : Tab Nat
  /-- Device and core from which each member's last contribution came (R427; log 66). -/
  senders : Tab (Nat × Nat)
  lags   : Tab Nat
  /-- The contribution in progress. -/
  cur    : Option HoopPut
  /-- Held waits, with the device of each. -/
  waits  : List (Vec × Ctx × Nat)
  deriving DecidableEq, Repr

/-- A reduction at its root (R304 to R308). -/
structure Reduction where
  desc    : Vec
  ctx     : Ctx
  phase   : CollPhase
  /-- A result page was purged, so its chunk is done without it (R398). -/
  force   : Bool
  /-- Members that the tree has, and other devices that have not yet answered that theirs is configured (R304). -/
  members : Nat
  waitDev : List Nat
  /-- Chunks of the use in progress that are complete and verified: their sums (R306). -/
  sums    : Tab (List LongAcc)
  /-- Chunks whose result has been written. -/
  written : List Nat
  flags   : Byte
  /-- The use number, which advances when a use ends (R307). -/
  use     : Nat
  deriving DecidableEq, Repr

/-- A published-buffer table entry (R115). -/
structure PubBuf where
  sel     : Bool
  npages  : Nat
  gen     : BitVec 32
  base0   : Nat
  base1   : Nat
  genaddr : Nat
  deriving DecidableEq, Repr

/-- A PUBL in progress (R141): the address space and buffer, what is still in flight at the old front, its arrival. -/
structure PublJob where
  asid   : Nat
  k      : Nat
  scope  : Scope
  op     : Word
  ctx    : Ctx
  /-- The hoop or reduction whose result it publishes. -/
  who    : Option Collective
  /-- Requests translated before the swap and not performed yet. -/
  waits  : List Nat
  /-- The store of the even generation was parked and purged (R398). -/
  purged : Bool
  deriving DecidableEq, Repr

/-- An ingest message (R287 to R291). -/
structure IngMsg where
  ticket : Nat
  desc   : Vec
  ctx    : Ctx
  core   : Nat
  chan   : Nat
  /-- Tokens still to be sent, once the message has been decoded; none before. -/
  out    : Option (List Token)
  /-- Set when the message is quarantined after the tokens: code, stage, offset, bytes consumed. -/
  bad    : Option (Nat × Nat × Nat × Nat)
  /-- Its END marker has been sent. -/
  closed : Bool
  /-- Cycle of its last progress while it held a credit (R386). -/
  progress : Nat
  deriving DecidableEq, Repr

/-- A vocabulary (R290): class table, boundary matrix rows, entries and byte-fallback base. -/
structure Vocab where
  classes  : Tab Nat
  matrix   : Tab Nat
  entries  : List (List Byte × Nat)
  fbbase   : BitVec 32
  deriving DecidableEq, Repr

/-- The QRING register (R389). -/
structure Qring where
  base : Nat
  head : Nat
  tail : Nat
  full : Bool
  ovf  : Bool
  deriving DecidableEq, Repr

/-- The error log of a die (R367). -/
structure ErrLog where
  recs    : Tab Rec
  head    : Nat
  tail    : Nat
  full    : Bool
  ovf     : Bool
  dropped : Nat
  deriving DecidableEq, Repr

/-- RESCTL (R411). -/
structure Resctl where
  hold     : Nat
  stallexp : Nat
  degn     : Nat
  degw     : Nat
  deriving DecidableEq, Repr

/-- A die with its 120 clusters' shared units. -/
structure Die where
  work      : Tab Work
  log       : ErrLog
  logPort   : Tab Word
  resctl    : Resctl
  /-- KERFREP (R420): the register word. -/
  kerfrep   : Word
  qring     : Qring
  harvest   : BitVec 120
  health    : BitVec 32
  /-- Root table address by address space (R110). -/
  roots     : Tab Nat
  /-- Walk cache: address space, address of a non-leaf entry, and the entry, oldest first (R113). -/
  walkc     : List (Nat × Nat × Word)
  /-- The walker's copy of the published-buffer tables, by address space × 256 + index (R115). -/
  pubs      : Tab PubBuf
  publs     : List PublJob
  farnode   : Tab Word
  /-- Parked-context table (R86): tenant and save-area address. -/
  parkedCtx : Tab (Nat × Nat)
  /-- Words of the port by which the steward saves and restores a context (R83 to R85, R406; log 9). -/
  ctxPort   : Tab Word
  /-- Contexts whose first ring overflow has been reported (R405). -/
  overrun   : List Nat
  hoops     : Tab Hoop
  reds      : Tab Reduction
  /-- Slice ways taken by hoops, by cluster (R107). -/
  hoopWays  : Tab Nat
  msgs      : List IngMsg
  ticket    : Nat
  ingCredits : Tab Int
  charTabs  : Tab (List (BitVec 32))
  dicts     : Tab (List Byte)
  vocabs    : Tab Vocab
  /-- Words of the load port of the ingest tables (log 9). -/
  ingPort   : Tab Word
  copyQ     : List Job
  issueNo   : Nat
  /-- Monitor units of other units: select word and figures, by unit number (R349). -/
  mons      : Tab (Word × MonFig)
  /-- Degraded link directions, by cluster × 4 + direction, and replays in the present window (R413). -/
  degraded  : List Nat
  replays   : Tab (Nat × Nat)
  deriving DecidableEq, Repr

/-! ## The part and the package -/

/-- A key id that holds a key (R54, R117): the tenant and the job to which it is allotted, and the number of the key. -/
structure KeyEnt where
  tenant : Nat
  job    : Nat
  no     : Nat
  deriving DecidableEq, Repr

/-- Rectangle of a region (R452), with the tenant and the job that own it. -/
structure Region where
  tenant : Nat
  job    : Nat
  x0     : Nat
  y0     : Nat
  w      : Nat
  h      : Nat
  deriving DecidableEq, Repr

/-- PWRSTAT (R348). -/
structure Power where
  mhz    : Nat
  watts  : Nat
  budget : Nat
  tmax   : Nat
  droop  : Nat
  thr    : Bool
  /-- Measurements in a row, of 10 µs each, with the draw 5 % or more below the budget (R346). -/
  low    : Nat
  /-- A sensor went above 105 °C and not all are at or below 100 °C again (R346). -/
  hot    : Bool
  deriving DecidableEq, Repr

/-- STARTSTAT (R433). -/
structure StartStat where
  stage   : Nat
  die     : Nat
  code    : Nat
  detail  : Nat
  fails   : Nat
  minimal : Bool
  deriving DecidableEq, Repr

/-- The boot store and the security processor (R339, R340, R344, R365, R432, R434). -/
structure Boot where
  security   : List Byte
  steward    : List Byte
  management : List Byte
  /-- Signatures of the three firmware images, 0 security, 1 steward, 2 management, and the key that checks them (R340, log 8). -/
  signatures : Tab (List Byte)
  fwKey      : List Byte
  imageKey   : List Byte
  dx         : Nat
  dy         : Nat
  dz         : Nat
  device     : Nat
  leaf       : Nat
  inProgress : Bool
  fails      : Nat
  /-- Health words kept across starts: clusters by die × 120 + cluster, dies, and device links. -/
  health     : Tab (BitVec 32)
  dieHealth  : Tab (BitVec 32)
  dlinks     : BitVec 32
  fused      : Tab (BitVec 120)
  deriving DecidableEq, Repr

/-- SPMBOX (R436). -/
structure Spmbox where
  words : Tab Word
  busy  : Bool
  deriving DecidableEq, Repr

/-- State of a graph context that does not run (R85); a context in RUNNING has no record. -/
inductive CtxPhase where
  | marking | drained | saved | switchedOut | restoring
  deriving DecidableEq, Repr

/-- A graph context that is being pre-empted (R85, R405): address space, work entry, state and the cycle of its first marker. -/
structure Drain where
  asid  : Nat
  phase : CtxPhase
  gwork : Nat
  since : Nat
  /-- Sinks that have reported, by core × 2^20 + node. -/
  sinks : List Nat
  deriving DecidableEq, Repr

/-- What the part has sent to the outside. -/
inductive Out where
  /-- A reply datagram to a submission (R337), with the source address of the submission. -/
  | reply (dest : Nat) (data : List Byte)
  /-- Data of an RDMA READ (R336). -/
  | readData (data : List Byte)
  /-- A negative answer to an RDMA operation (R336). -/
  | nak (code : Nat)
  /-- An SPDM response: its code and body (R343). -/
  | spdm (code : Nat) (body : List Byte)
  /-- An RDMA WRITE into the host's memory: queue pair, remote key and host virtual address (R334, R335). -/
  | hostWrite (qpn rkey : Nat) (va : Word) (data : List Byte)
  /-- An RDMA READ of the host's memory, of a number of bytes (R334, R335). -/
  | hostRead (qpn rkey : Nat) (va : Word) (len : Nat)
  /-- A write to another device's memory, by device and physical address there (R299). -/
  | deviceWrite (device : Nat) (pa : Nat) (data : List Byte)
  /-- A packet for another device, which leaves by a device link (R299, R300). -/
  | packet (p : Packet)
  /-- An RDMA WRITE or SEND has been performed (R336). -/
  | done
  /-- The management controller announces that the part is ready (R340). -/
  | ready
  deriving DecidableEq, Repr

/-- Which agent moves next, and how many core clock cycles pass before it (log 1). -/
inductive MoveKind where
  /-- The named core issues its next instruction. -/
  | issue (core : Nat)
  /-- An event of the part. -/
  | event (i : Instr)
  /-- A packet of another device arrives (R295, R299; log 18). -/
  | peer (p : Packet)
  /-- The packet at a place of the network leaves for another device (R295). -/
  | depart (pkt : Nat)
  deriving DecidableEq, Repr

/-- One entry of the agenda. -/
structure Move where
  dt   : Nat
  kind : MoveKind
  deriving DecidableEq, Repr

/-- The machine. -/
structure State where
  /-- Physical memory by 52-bit address, core windows' local SRAM and instruction stores among it (R91, R96, R108). -/
  mem      : List Host.Cell
  /-- Side-band byte of each 8-byte word of local SRAM, by address ÷ 8 (R93). -/
  side     : Tab Byte
  /-- HBM words that hold the poison pattern, by address ÷ 8 (R356). -/
  poison   : List Nat
  /-- Number of the key under which each line of HBM was written, by address ÷ 128 (R107, R117). -/
  lineKey  : Tab Nat
  cores    : Tab CoreSt
  clusters : Tab Cluster
  dies     : Tab Die
  net      : List Packet
  /-- Next request id. -/
  reqNo    : Nat
  /-- Key ids that hold a key (R54, R117). -/
  keys     : Tab KeyEnt
  /-- Keys that the security processor has made so far: the number of the next (R117; log 10). -/
  keyNo    : Nat
  /-- Regions that the stewards have allotted (R452; log 9). -/
  regions  : Tab Region
  /-- Host region table of die 0's CSR window (R334). -/
  hostTab  : Tab Rec
  drains   : List Drain
  /-- Job submissions that wait in each steward's queue (R337): die, source address and datagram. -/
  jobs     : List (Nat × Nat × Vec)
  /-- Queue pairs that the stewards have created: number in [23:0], address space in [35:24] (R333; log 9). -/
  qps      : Tab Word
  /-- Remote keys that the stewards have registered (R336; log 9): valid [0], key [63:32], first address [127:64], bytes [175:128],
  address space [187:176]. -/
  rkeys    : Tab Rec
  spmbox   : Spmbox
  power    : Power
  start    : StartStat
  /-- Start stage in progress, 1 to 7; 0 before a start and 8 when it is complete (R340). -/
  stage    : Nat
  boot     : Boot
  /-- Torus dimensions and the device's own id (R293). -/
  dx       : Nat
  dy       : Nat
  dz       : Nat
  device   : Nat
  /-- Device links that are trained, and their health word (R339, R365). -/
  links    : List Nat
  dlinks   : BitVec 32
  ports    : List Nat
  /-- Absent members that a collective holds for (R428): the hold's collective, member and the cycle it began. -/
  absent   : List (Collective × Nat × Nat)
  /-- Pairs whose old route crossed a link that has been retired: new packets of them are held (R416). -/
  rerouting : List (Agent × Agent × NetClass)
  /-- Agents whose dropped packets have been recorded with LINK code 0x05 (R415). -/
  noRoutes : List Agent
  outbox   : List Out
  /-- How far an SPDM requester has come in the flow: 1 version, 2 capabilities, 3 algorithms (R343, log 19). -/
  spdm     : Nat
  /-- Core clock cycles since reset (R206). -/
  cycle    : Nat
  /-- Free values drawn so far (log 5). -/
  fresh    : Nat
  agenda   : List Move
  /-- The core whose firing an instruction acts on. -/
  cur      : Nat
  deriving DecidableEq, Repr

/-! ## Why a step can stop -/

/-- Faults of the model. No fault of the hardware stops the machine: each of them is a next state. -/
inductive Fault where
  /-- An instruction was asked of a core that runs no firing. Raised by every instruction meaning, never by a step
  (a step dispatches or idles instead). Safe: no claim about an instruction can rest on it. -/
  | noFiring
  deriving DecidableEq, Repr

/-- Refusals of the model. -/
inductive Refusal where
  /-- The instruction has no meaning yet. Raised by the arms of exec only. Safe. -/
  | notModelled (mnemonic : String)
  /-- A steward-only opcode or CSR at a tenant core, which the code scanner keeps out of every sealed block (R179).
  Raised by the meanings of those opcodes. Safe. -/
  | stewardOnly (mnemonic : String)
  /-- A reserved encoding in a sealed block, which the code scanner keeps out (R178, R179). Raised by the step, when the word
  it has fetched decodes to no instruction. Safe. -/
  | reservedEncoding (reason : Nat)
  deriving DecidableEq, Repr

/-! ## Reset -/

/-- A free frame table entry (R29). -/
def Frame.zero : Frame :=
  { state := .free, fclass := 0, gen := 0, static := false, hframe := false, nslot := 0, poolofs := 0, vnode := 0,
    launch := 0, parent := 0, iter := 0, nld := 0, npst := 0, ncpy := 0, ntile := 0, contslot := 0, contwait := false,
    limits := { ld := 0, st := 0, cp := 0, tl := 0 }, body := none, wake := [], dying := false, progress := 0,
    reported := false }

/-- A channel table entry that is not in use (R78). -/
def Chan.zero : Chan :=
  { base := 0, depth := 0, en := false, head := 0, tail := 0, occ := 0, port := 0, vnode := 0, pcore := 0, pport := 0,
    rcfg := false, toks := [], times := [] }

/-- An empty tile (R98). -/
def Tile.zero : Tile :=
  { buf := 0, state := .empty, esize := 0, base := 0, rows := 0, cols := 0, expect := 0, arrived := 0, nref := 0 }

/-- An idle generator (R53). -/
def Gen.zero : Gen :=
  { state := .idle, vnode := 0, depth := 0, bsrc := 0, dbound := [], bounds := [], idx := [], need := [], stop := false,
    done := false, marked := false, parked := false }

/-- Zeroed monitor figures. -/
def MonFig.zero : MonFig := { min := 0, max := 0, cnt := 0, sum := 0, hist := [] }

/-- The format context at reset (R263). -/
def FmtCtx.reset : FmtCtx :=
  { afmt := 1, atab := 0, wfmt := 1, wtab := 0, ofmt := 0, otab := 0, sat := false, sa := 0, sw := 0, rm := .rne }

/-- A tag record before any MXCLR (log 4). -/
def TagRec.zero : TagRec := { expect := 0, steps := 0, stages := [], rsbase := 0, present := false }

/-- A row-state entry of two +0 (log 4). -/
def RowState.zero : RowState := { mu := 0, sigma := 0 }

/-- A Press slice at reset. -/
def Press.reset : Press :=
  { fmt := FmtCtx.reset, wbuf := [], abuf := [], cbuf := [], active := [], shadow := [], tags := [], rowst := [], clears := [] }

/-- A core at reset. -/
def CoreSt.reset : CoreSt :=
  { cfg := .unloaded, asid := 0, jprio := 0, jwork := 0, gwork := 0, detmode := false, fpool := 0, poolKiB := 64,
    spillk := 4, spillbase := 0, darea := 0, dareaTab := [], sealed := 0, dropped := false, frames := [], chans := [],
    credits := [], ready := [], place := [], descs := [], fetching := [], resvs := [], sinkEnd := [], sinkCk := [],
    sinkDone := [], gens := [], ckpt := [], firing := none, queue := [], pend := [],
    unack := { clus := 0, die := 0, pkg := 0, sys := 0, load := 0 }, tlbWait := [], tlbOp := 0, halted := false, stopped := false,
    atomWait := none, ctags := Vector.replicate 4 (.preset 0), tiles := [], press := Press.reset, jobSeq := 0,
    firings := 0, fflags := 0, firstx := 0, more := false, monsel0 := 0, monsel1 := 0, mon0 := MonFig.zero,
    mon1 := MonFig.zero, tlb := [], dbgStop := false, dbgStep := false, inflight := 0, qcount := 0, qover := false,
    qlast := 0, votes := [] }

/-- A cluster at reset. -/
def Cluster.reset : Cluster :=
  { lines := [], rocache := [], roEpoch := 0, dcache := [], tlb := [], walking := [], parked := [], fltbuf := [], drop := false,
    stop := false, pressQ := [], copyQ := [], issueNo := 0, rings := [], ringHeld := [], reds := [], flags := 0, seen := [], health := 0 }

/-- A free work table entry (R55). -/
def Work.zero : Work :=
  { level := 0, state := .free, counter := 0, tenant := 0, pidx := 0, pdie := 0, seq := 0, chandle := 0, cslot := 0,
    status := 0, reserved := false, used := false, acks := [], sub := (0, 0), image := 0 }

/-- A die at reset. -/
def Die.reset : Die :=
  { work := [], log := { recs := [], head := 0, tail := 0, full := false, ovf := false, dropped := 0 }, logPort := [],
    resctl := { hold := 0x100, stallexp := 28, degn := 64, degw := 4 }, kerfrep := 0,
    qring := { base := 0, head := 0, tail := 0, full := false, ovf := false }, harvest := 0, health := 0, roots := [],
    walkc := [], pubs := [], publs := [], farnode := [], parkedCtx := [], ctxPort := [], overrun := [], hoops := [], reds := [],
    hoopWays := [], msgs := [], ticket := 0, ingCredits := [], charTabs := [], dicts := [], vocabs := [], ingPort := [], copyQ := [],
    issueNo := 0, mons := [], degraded := [], replays := [] }

/-- The boot store of a part that has never started (log 4). -/
def Boot.empty : Boot :=
  { security := [], steward := [], management := [], signatures := [], fwKey := [], imageKey := [], dx := 1, dy := 1, dz := 1, device := 0,
    leaf := 0, inProgress := false, fails := 0, health := [], dieHealth := [], dlinks := 0, fused := [] }

/-- The machine right after power-on, before a start (R326, R340): nothing is listed in memory, every table is empty,
every register holds its reset value, or zero where the manual gives none (log 4). -/
def State.reset : State :=
  { mem := [], side := [], poison := [], lineKey := [], cores := [], clusters := [], dies := [], net := [], reqNo := 0,
    keys := [], keyNo := 0, regions := [], hostTab := [], drains := [], jobs := [], qps := [], rkeys := [], spmbox := { words := [], busy := false },
    power := { mhz := 2700, watts := 0, budget := 2400, tmax := 0, droop := 0, thr := false, low := 0, hot := false },
    start := { stage := 0, die := 0, code := 0, detail := 0, fails := 0, minimal := false }, stage := 0,
    boot := Boot.empty,
    dx := 1, dy := 1, dz := 1, device := 0, links := [], dlinks := 0, ports := [], absent := [], rerouting := [], noRoutes := [], outbox := [],
    spdm := 0,    cycle := 0, fresh := 0, agenda := [], cur := 0x7FF }

end Sys2Proof.Machine
end

