-- ==== Sys2Proof/Machine/Ops.lean ====
section
/-! DEFINITION. The named operations over tables, memory, cores, frames and slots, the network and the error log;
the issue of an instruction; and taking a fault, in one operation for every instruction (R351 to R355, R366). -/

namespace Sys2Proof.Machine

/-! ## Sparse tables -/

/-- The entry of a key, or the default. -/
def tabGet {α : Type} (d : α) : Tab α → Nat → α
  | [], _ => d
  | (k, v) :: t, a => if k = a then v else tabGet d t a

/-- The entry of a key, if it is listed. -/
def tabFind {α : Type} : Tab α → Nat → Option α
  | [], _ => none
  | (k, v) :: t, a => if k = a then some v else tabFind t a

/-- The table with one entry written, keys kept rising. -/
def tabSet {α : Type} : Tab α → Nat → α → Tab α
  | [], a, v => [(a, v)]
  | (k, w) :: t, a, v =>
    if k = a then (a, v) :: t
    else if a < k then (a, v) :: (k, w) :: t
    else (k, w) :: tabSet t a v

/-- The table without a key. -/
def tabDel {α : Type} (t : Tab α) (a : Nat) : Tab α := t.filter (fun e => e.1 != a)

/-! ## Physical memory (R108) -/

/-- A byte of memory; a byte that nothing has written reads as 0 (log 3). -/
def memByte : List Host.Cell → Nat → Byte
  | [], _ => 0
  | (k, v) :: t, a => if k = a then v else memByte t a

/-- Memory with one byte written, in canonical form: addresses rising, no byte that reads as an unlisted one does. -/
def memPut : List Host.Cell → Nat → Byte → List Host.Cell
  | [], a, v => if v = 0 then [] else [(a, v)]
  | (k, w) :: t, a, v =>
    if k = a then (if v = 0 then t else (a, v) :: t)
    else if a < k then (if v = 0 then (k, w) :: t else (a, v) :: (k, w) :: t)
    else (k, w) :: memPut t a v

/-- Every address of the list lies above a bound and no byte is 0. -/
def memAbove (b : Nat) : List Host.Cell → Bool
  | [] => true
  | (k, v) :: t => decide (b < k) && decide (v ≠ 0) && memAbove k t

/-- The canonical form of memory. -/
def memWf : List Host.Cell → Bool
  | [] => true
  | (k, v) :: t => decide (v ≠ 0) && memAbove k t

/-- n bytes from an address. -/
def memBytes (m : List Host.Cell) (a : Nat) : Nat → List Byte
  | 0 => []
  | n + 1 => memByte m a :: memBytes m (a + 1) n

/-- Bytes written from an address on. -/
def memPuts (m : List Host.Cell) (a : Nat) : List Byte → List Host.Cell
  | [] => m
  | b :: t => memPuts (memPut m a b) (a + 1) t

/-- The number that bytes hold, little-endian (R19). -/
def leNat : List Byte → Nat
  | [] => 0
  | b :: t => b.toNat + 256 * leNat t

/-- The n low bytes of a number, little-endian. -/
def leBytes : Nat → Nat → List Byte
  | 0, _ => []
  | n + 1, v => BitVec.ofNat 8 v :: leBytes n (v / 256)

/-! ## Fields of words -/

/-- Bits [lo + n - 1 : lo] of a word, as a number. -/
def fieldN {w : Nat} (v : BitVec w) (lo n : Nat) : Nat := v.toNat / 2 ^ lo % 2 ^ n

/-- One bit of a word. -/
def bitN {w : Nat} (v : BitVec w) (i : Nat) : Bool := v.getLsbD i

/-- The word with bits [lo + n - 1 : lo] replaced. -/
def setFieldN {w : Nat} (v : BitVec w) (lo n x : Nat) : BitVec w :=
  BitVec.ofNat w (v.toNat - fieldN v lo n * 2 ^ lo + x % 2 ^ n * 2 ^ lo)

/-- A Nat as a signed number of n bits. -/
def sextN (n v : Nat) : Int := if v % 2 ^ n < 2 ^ (n - 1) then (v % 2 ^ n : Nat) else ((v % 2 ^ n : Nat) : Int) - 2 ^ n

/-- Sign-extension of a BitVec to 64 bits. -/
def sext64 {n : Nat} (v : BitVec n) : Word := v.signExtend 64

/-- A scalar result as a temporary: bits [511:64] are zero (R197). -/
def zx (v : Word) : Vec := v.setWidth 512

/-- A Bool as a bit. -/
def b2n (b : Bool) : Nat := if b then 1 else 0

/-! ## Ids and addresses (R31, R96, R105, R108) -/

/-- The die of a core id (R31). -/
def dieOf (core : Nat) : Nat := core / 2048 % 4

/-- A steward core's id is die << 11 | 0x7FF (R206). -/
def isSteward (core : Nat) : Bool := core % 2048 == 0x7FF

/-- The steward core of a die. -/
def stewardOf (die : Nat) : Nat := die * 2048 + 0x7FF

/-- The cluster of a core, die × 120 + 12 y + x; a steward core sits at router (0, 0) of its die (R447). -/
def clusterOf (core : Nat) : Nat :=
  if isSteward core then dieOf core * 120 else dieOf core * 120 + 12 * (core / 128 % 16) + core / 8 % 16

/-- The core number in its cluster. -/
def coreInCluster (core : Nat) : Nat := core % 8

/-- The core with a number in a cluster. -/
def coreAt (cluster q : Nat) : Nat :=
  cluster / 120 * 2048 + cluster % 120 / 12 * 128 + cluster % 12 * 8 + q

/-- A core id names a tenant core of the package: y to 9, x to 11 (R31). -/
def coreExists (core : Nat) : Bool :=
  decide (core < 8192) && (isSteward core || (decide (core / 128 % 16 < 10) && decide (core / 8 % 16 < 12)))

/-- Physical address of offset o in a core window (R108). -/
def winAddr (core o : Nat) : Nat := 0x8000000000000 + core * 0x100000 + o

/-- Size of local SRAM (R92). -/
def sramSize : Nat := 0x60000

/-- Physical address of instruction word a of a core (R95, R96). -/
def codeAddr (core a : Nat) : Nat := winAddr core (0x80000 + 4 * a)

/-- Start of the self window (R91). -/
def selfBase : Nat := 0xFFFFFFFFFFF00000

/-- A frame handle (R31). -/
def mkHandle (core frame gen : Nat) : Handle := BitVec.ofNat 32 (core * 2 ^ 19 + frame * 2 ^ 9 + gen * 2 + 1)
/-- The core id of a handle. -/
def handleCore (h : Handle) : Nat := fieldN h 19 13
/-- The frame index of a handle. -/
def handleFrame (h : Handle) : Nat := fieldN h 9 10
/-- The generation of a handle. -/
def handleGen (h : Handle) : Nat := fieldN h 1 8
/-- The colour of an activation: bits [18:1] of its handle (R33). -/
def colourOf (frame gen : Nat) : Nat := frame * 256 + gen

/-- Frame words of a class (R26). -/
def classWords (cls : Nat) : Nat := 32 * 2 ^ cls
/-- 256-byte units of a class. -/
def classUnits (cls : Nat) : Nat := 2 ^ cls

/-! ## Access to the parts of the state -/

/-- A core of the package. -/
def State.core (s : State) (c : Nat) : CoreSt := tabGet CoreSt.reset s.cores c
/-- The state with one core replaced. -/
def State.setCore (s : State) (c : Nat) (x : CoreSt) : State := { s with cores := tabSet s.cores c x }
/-- The state with one core changed. -/
def State.modCore (s : State) (c : Nat) (f : CoreSt → CoreSt) : State := s.setCore c (f (s.core c))
/-- A cluster of the package. -/
def State.cluster (s : State) (c : Nat) : Cluster := tabGet Cluster.reset s.clusters c
/-- The state with one cluster changed. -/
def State.modCluster (s : State) (c : Nat) (f : Cluster → Cluster) : State :=
  { s with clusters := tabSet s.clusters c (f (s.cluster c)) }
/-- A die of the package. -/
def State.die (s : State) (d : Nat) : Die := tabGet Die.reset s.dies d
/-- The state with one die changed. -/
def State.modDie (s : State) (d : Nat) (f : Die → Die) : State := { s with dies := tabSet s.dies d (f (s.die d)) }
/-- A packet enters the network behind those already there; during a reroute of its pair it is held at its source (R416). -/
def State.send (s : State) (p : Packet) : State :=
  { s with net := s.net ++ [{ p with held := p.held || s.rerouting.contains (p.src, p.dst, p.cls) }] }
/-- The packet at a place in the network. -/
def State.pkt (s : State) (k : Nat) : Option Packet := s.net[k]?
/-- The network without the packet at a place. -/
def State.dropPkt (s : State) (k : Nat) : State := { s with net := s.net.eraseIdx k }

/-- Die-local tenant id of a core: the owner's address space id (R206). -/
def State.tenantOf (s : State) (core : Nat) : Nat := (s.core core).asid

/-! ## Bytes of memory with key, side-band and poison -/

/-- The address lies in a die's HBM range (R108). -/
def isHbm (pa : Nat) : Bool := decide (pa < 0x8000000000)

/-- A free value has been drawn (log 5). -/
def State.drawn (s : State) : State := { s with fresh := s.fresh + 1 }
/-- A free 16-bit value: ρ or a use number where there is none (log 62). -/
def State.freeTag (s : State) : Nat := (Config.freeWord s.fresh).toNat % 65536

/-- The number of the key that a key id holds; an id that holds none has a number of its own (log 10). -/
def State.keyNumber (s : State) (key : Nat) : Nat := ((tabFind s.keys key).map (·.no)).getD (2 ^ 32 + key)

/-- A fresh key is loaded under a key id and allotted to a job of a tenant (R117). -/
def State.loadKey (s : State) (key tenant job : Nat) : State :=
  { s with keys := tabSet s.keys key { tenant := tenant, job := job, no := s.keyNo }, keyNo := s.keyNo + 1 }

/-- The cluster whose slice is the home of an HBM address (R105). -/
def homeOf (pa : Nat) : Nat := pa / 0x2000000000 * 120 + pa % 0x2000000000 / 256 % 120

/-- The set of a line, of 1,024, in its home slice (R104; log 22). -/
def sliceSet (line : Nat) : Nat := (line % 0x40000000 / 2 / 120 * 2 + line % 2) % 1024

/-- Ways of a slice that its cache runs on: 16, less those retired (R364) and those that hoops hold (R107). -/
def State.cacheWays (s : State) (cluster : Nat) : Nat :=
  16 - fieldN (s.cluster cluster).health 28 4 - tabGet 0 (s.die (cluster / 120)).hoopWays cluster

/-- The valid line of a slice that holds an address. -/
def State.residentLine (s : State) (line : Nat) : Option SliceLine :=
  (s.cluster (homeOf (line * 128))).lines.find? (fun l => l.line == line)

/-- The number of the key under which a line stands or will stand in HBM: its tag's once it is dirty, else that of its last write-back. -/
def State.lineKeyNo (s : State) (line : Nat) : Option Nat :=
  match s.residentLine line with
  | some l => if l.dirty then some (s.keyNumber l.key) else tabFind s.lineKey line
  | none => tabFind s.lineKey line

/-- The bytes of a line as a fetch from HBM under a key id finds them (R107, R117). -/
def State.fetchLine (s : State) (key line : Nat) : List Byte :=
  let plain := memBytes s.mem (line * 128) 128
  match s.lineKeyNo line with
  | none => plain
  | some k =>
    if k = s.keyNumber key then plain
    else (List.range 8).flatMap (fun j => xtsReread line j k (s.keyNumber key) ((plain.drop (16 * j)).take 16))

/-- A byte read at its home under a key: a line that its slice holds under that key id gives it; else the line comes from HBM under
that key (R107, R117; log 10). -/
def State.readByte (s : State) (key pa : Nat) : Byte :=
  if isHbm pa && (s.residentLine (pa / 128)).all (fun l => l.key != key) && (s.lineKeyNo (pa / 128)).any (fun k => k != s.keyNumber key)
  then (s.fetchLine key (pa / 128)).getD (pa % 128) 0
  else memByte s.mem pa

/-- n bytes read at their home under a key. -/
def State.readBytes (s : State) (key pa : Nat) : Nat → List Byte
  | 0 => []
  | n + 1 => s.readByte key pa :: s.readBytes key (pa + 1) n

/-- A line leaves its slice; a dirty one is written back under the key of its tag (R104, R107). -/
def State.evictLine (s : State) (line : Nat) : State :=
  match s.residentLine line with
  | none => s
  | some l =>
    { s with lineKey := if l.dirty then tabSet s.lineKey line (s.keyNumber l.key) else s.lineKey }.modCluster (homeOf (line * 128))
      (fun k => { k with lines := k.lines.filter (fun x => x.line != line) })

/-- Lines of a slice that its ways cannot hold: in each set, the least recently accessed ones beyond their number (log 22). -/
def spareLines (ways : Nat) : List SliceLine → List Nat
  | [] => []
  | l :: t =>
    if (t.filter (fun x => sliceSet x.line == sliceSet l.line)).length < ways then spareLines ways t else l.line :: spareLines ways t

/-- A slice gives up what its ways cannot hold. -/
def State.trimSlice (s : State) (cluster : Nat) : State :=
  (spareLines (s.cacheWays cluster) (s.cluster cluster).lines).foldl State.evictLine s

/-- A line that is absent is allocated in its home slice under a key id (R104). -/
def State.allocLine (s : State) (key line : Nat) (wr : Bool) : State :=
  let fetched := s.fetchLine key line
  let s1 := if (s.lineKeyNo line).any (fun k => k != s.keyNumber key) then
      { s with mem := memPuts s.mem (line * 128) fetched, lineKey := tabSet s.lineKey line (s.keyNumber key) }
    else s
  (s1.modCluster (homeOf (line * 128)) (fun k => { k with lines := k.lines ++ [{ line := line, key := key, dirty := wr }] })).trimSlice
    (homeOf (line * 128))

/-- An access of a key id reaches the home slice of a line (R104, R107): a hit becomes the most recently accessed, and a line under
another key id is written back and read again. -/
def State.touchLine (s : State) (key line : Nat) (wr : Bool) : State :=
  match s.residentLine line with
  | some l =>
    if l.key = key then
      s.modCluster (homeOf (line * 128)) (fun k =>
        { k with lines := k.lines.filter (fun x => x.line != line) ++ [{ l with dirty := l.dirty || wr }] })
    else (s.evictLine line).allocLine key line wr
  | none => s.allocLine key line wr

/-- The lines of n bytes of HBM at an address are accessed under a key id. -/
def State.touchLines (s : State) (key pa n : Nat) (wr : Bool) : State :=
  if isHbm pa then (List.range ((pa % 128 + n + 127) / 128)).foldl (fun t j => t.touchLine key (pa / 128 + j) wr) s else s

/-- The key id under which an access that brings none of its own, such as the walker's, finds a line (log 10). -/
def State.plainKey (s : State) (pa : Nat) : Nat :=
  match s.residentLine (pa / 128) with
  | some l => l.key
  | none => ((s.keys.find? (fun e => tabFind s.lineKey (pa / 128) == some e.2.no)).map (·.1)).getD 0

/-- Such an access reaches the home slice of its line. -/
def State.touchPlain (s : State) (pa : Nat) (wr : Bool) : State :=
  if isHbm pa then
    (if (s.residentLine (pa / 128)).isSome then s.touchLine (s.plainKey pa) (pa / 128) wr
     else (s.modCluster (homeOf pa) (fun k =>
       { k with lines := k.lines ++ [{ line := pa / 128, key := s.plainKey pa, dirty := wr }] })).trimSlice (homeOf pa))
  else s

/-- The lines of n bytes of HBM at an address are accessed in that way. -/
def State.touchPlains (s : State) (pa n : Nat) (wr : Bool) : State :=
  (List.range ((pa % 128 + n + 127) / 128)).foldl (fun t j => t.touchPlain (pa / 128 * 128 + 128 * j) wr) s

/-- Side-band byte of the local SRAM word that holds an address (R93). -/
def State.sideAt (s : State) (pa : Nat) : Byte := tabGet 0 s.side (pa / 8)
/-- The state with the side-band byte of one word written. -/
def State.setSide (s : State) (pa : Nat) (b : Byte) : State := { s with side := tabSet s.side (pa / 8) b }

/-- The address lies in a core window (R108). -/
def isWin (pa : Nat) : Bool := decide (0x8000000000000 ≤ pa) && decide (pa < 0x8000000000000 + 8192 * 0x100000)
/-- Core of a core-window address. -/
def winCore (pa : Nat) : Nat := (pa - 0x8000000000000) / 0x100000
/-- Offset in a core window. -/
def winOfs (pa : Nat) : Nat := pa % 0x100000
/-- The address lies in the local SRAM of a core. -/
def isSram (pa : Nat) : Bool := isWin pa && decide (winOfs pa < sramSize)

/-- The words of 8 bytes that n bytes at an address touch, by address ÷ 8. -/
def wordsOf (pa n : Nat) : List Nat := (List.range ((pa % 8 + n + 7) / 8)).map (pa / 8 + ·)

/-- OR of the side-bands of the local SRAM words that an access touches; other memory keeps none. -/
def State.sideOr (s : State) (pa n : Nat) : Byte :=
  if isSram pa then (wordsOf pa n).foldl (fun b w => b ||| tabGet 0 s.side w) 0 else 0

/-- Bytes written at their home: in HBM under a key, losing the poison pattern of a word that is written and taking it
when the side-band says POISON (R356); in local SRAM with the side-band of each word touched replaced (R238). -/
def State.writeBytes (s : State) (key pa : Nat) (bs : List Byte) (side : Byte) : State :=
  let n := bs.length
  if isHbm pa then
    let s1 := s.touchLines key pa n true
    { s1 with mem := memPuts s1.mem pa bs,
              poison := (s1.poison.filter (fun w => !(wordsOf pa n).contains w)) ++
                (if bitN side 5 then wordsOf pa n else []) }
  else if isSram pa then
    { s with mem := memPuts s.mem pa bs,
             side := (wordsOf pa n).foldl (fun t w => tabSet t w side) s.side }
  else { s with mem := memPuts s.mem pa bs }

/-! ## Frames in local SRAM and in the spill area (R26, R92, R118) -/

/-- A frame table entry (R29). -/
def CoreSt.frame (c : CoreSt) (i : Nat) : Frame := tabGet Frame.zero c.frames i
/-- A core with one frame table entry replaced. -/
def CoreSt.setFrame (c : CoreSt) (i : Nat) (f : Frame) : CoreSt := { c with frames := tabSet c.frames i f }
/-- The state with one frame table entry changed. -/
def State.modFrame (s : State) (core i : Nat) (f : Frame → Frame) : State :=
  s.modCore core (fun c => c.setFrame i (f (c.frame i)))

/-- Where the frame words of a frame lie: the address of F0 in local SRAM, or of its body slot (R92, R118). -/
def State.frameBase (s : State) (core i : Nat) : Nat :=
  let c := s.core core
  let f := c.frame i
  match f.state, f.body with
  | .spilled, some b => c.spillbase + 4096 * b
  | _, _ => winAddr core (256 * f.poolofs)

/-- The frame's words are in its body slot. -/
def State.frameSpilled (s : State) (core i : Nat) : Bool := ((s.core core).frame i).state == .spilled

/-- Address of the side-band byte of word k of a spilled frame (R118). -/
def State.rowAddr (s : State) (core i k : Nat) : Nat :=
  let c := s.core core
  c.spillbase + 2 ^ c.spillk * 4096 + 512 * (c.frame i).body.getD 0 + k

/-- Frame word k (R26); the spill engine's area belongs to the steward's key 0 (log 26). -/
def State.fword (s : State) (core i k : Nat) : Word :=
  BitVec.ofNat 64 (leNat (s.readBytes 0 (s.frameBase core i + 8 * k) 8))

/-- Side-band byte of frame word k; a poisoned body word reads with POISON (R403), and bit 7 of a body row is ignored (R172). -/
def State.fside (s : State) (core i k : Nat) : Byte :=
  if s.frameSpilled core i then
    (s.readByte 0 (s.rowAddr core i k) &&& 0x7F) |||
      (if s.poison.contains ((s.frameBase core i + 8 * k) / 8) then 0x20 else 0)
  else s.sideAt (s.frameBase core i + 8 * k)

/-- Frame word k and its side-band written (R26, R118). -/
def State.setFword (s : State) (core i k : Nat) (v : Word) (side : Byte) : State :=
  let s1 := s.writeBytes 0 (s.frameBase core i + 8 * k) (leBytes 8 v.toNat) side
  if s.frameSpilled core i then s1.writeBytes 0 (s.rowAddr core i k) [side] 0 else s1

/-- Consecutive frame words written from word k on. -/
def State.setFwords (s : State) (core i k : Nat) (side : Byte) : List Word → State
  | [] => s
  | v :: t => (s.setFword core i k v side).setFwords core i (k + 1) side t

/-- Word count of a frame (R26). -/
def Frame.words (f : Frame) : Nat := classWords f.fclass

/-! ## Slot words (R34) -/

/-- Count of a slot word. -/
def slotCount (w : Word) : BitVec 24 := w.extractLsb' 0 24
/-- The armed bit. -/
def slotArmed (w : Word) : Bool := w.getLsbD 24
/-- The valid bit. -/
def slotValid (w : Word) : Bool := w.getLsbD 25
/-- Kind: 0 COUNT, 1 STREAM, 2 MATCH, 3 HANDLER. -/
def slotKind (w : Word) : Nat := fieldN w 26 2
/-- Priority of the ready entries that the slot pushes. -/
def slotPrio (w : Word) : Nat := fieldN w 28 2
/-- Reload mode. -/
def slotReload (w : Word) : Nat := fieldN w 30 2
/-- Threadlet entry. -/
def slotEntry (w : Word) : Nat := fieldN w 32 14
/-- Bind field. -/
def slotBind (w : Word) : Nat := fieldN w 48 16
/-- The slot word with another count. -/
def withCount (w : Word) (c : BitVec 24) : Word := setFieldN w 0 24 c.toNat
/-- The slot word with the armed bit written. -/
def withArmed (w : Word) (b : Bool) : Word := setFieldN w 24 1 (b2n b)
/-- The slot word with the valid bit written. -/
def withValid (w : Word) (b : Bool) : Word := setFieldN w 25 1 (b2n b)

/-- Entries of the ready queue at most (R65). -/
def readyMax : Nat := 64

/-- The descriptor of a node is resident in the core's store (R63). -/
def CoreSt.resident (c : CoreSt) (vnode : Nat) : Bool := c.descs.any (fun e => e.1 == vnode)

/-- A descriptor that is not resident is fetched (R63). -/
def CoreSt.want (c : CoreSt) (vnode : Nat) : CoreSt :=
  if c.resident vnode || c.fetching.contains vnode then c else { c with fetching := c.fetching ++ [vnode] }

/-- A ready entry of a frame (R65). -/
def newReady (frame entry prio slot : Nat) (cont : Bool) : Ready :=
  { frame := frame, entry := entry, prio := prio, bprio := prio, slot := slot, since := 0, cont := cont,
    home := none }

/-- A ready entry at the tail of the queue (R65); a descriptor that its dispatch needs is fetched (R63). -/
def State.pushReady (s : State) (core : Nat) (r : Ready) : State :=
  s.modCore core (fun c => ({ c with ready := c.ready ++ [{ r with since := s.cycle }] }).want (c.frame r.frame).vnode)

/-- What the reload mode does to the word of a slot that fires (R35, rule 5). -/
def reloadWord (w : Word) : Word :=
  match slotReload w with
  | 1 => withCount w (BitVec.ofNat 24 (slotBind w))
  | 2 => withValid w false
  | _ => withArmed w false

/-- The fire test of R35, rule 4, on an updated COUNT slot word. -/
def slotFires (w : Word) : Bool :=
  slotKind w == 0 && slotValid w && slotArmed w && slotCount w == 0

/-- A ready entry enters the queue, or a SPILLED frame goes to FILLING and the entry follows the fill-back (R30, R120). -/
def State.wake (s : State) (core : Nat) (r : Ready) : State :=
  if s.frameSpilled core r.frame then s.modFrame core r.frame (fun f => { f with state := .filling, wake := [r] })
  else s.pushReady core r

/-- Several ready entries of one frame (R226). -/
def State.wakeAll (s : State) (core i : Nat) (rs : List Ready) : State :=
  if rs.isEmpty then s
  else if s.frameSpilled core i then s.modFrame core i (fun f => { f with state := .filling, wake := rs })
  else rs.foldl (fun t r => t.pushReady core r) s

/-- A slot fires: its ready entry is pushed, after the fill-back of a SPILLED frame (R30, R35, R120). -/
def State.fire (s : State) (core frame slot : Nat) (w : Word) : State :=
  s.wake core (newReady frame (slotEntry w) (slotPrio w) slot false)

/-! ## Error records and the log (R363, R367) -/

/-- The fields of an error record (R363). -/
structure ErrInfo where
  cls    : Nat
  code   : Nat
  unit   : Nat
  retry  : Nat
  addr   : Option (Nat × Bool)
  /-- Content of the address field of a record that marks no address. -/
  raw    : Nat
  core   : Nat
  akind  : Nat
  aidx   : Nat
  pc     : Nat
  slot   : Nat
  vnode  : Nat
  colour : Nat
  launch : Nat
  iter   : Word
  tenant : Nat
  deriving DecidableEq, Repr

/-- The 256-bit record (R363). -/
def ErrInfo.toRec (e : ErrInfo) : Rec :=
  let (addrv, addrk, addr) := match e.addr with
    | none => (0, 0, e.raw)
    | some (a, pa) => (1, b2n pa, a)
  BitVec.ofNat 256 (e.cls % 2 ^ 8 + e.code % 2 ^ 8 * 2 ^ 8 + e.unit % 8 * 2 ^ 16 + e.retry % 4 * 2 ^ 19 + addrv * 2 ^ 21
    + addrk * 2 ^ 22 + e.core % 2 ^ 13 * 2 ^ 23 + e.akind % 16 * 2 ^ 36 + e.aidx % 16 * 2 ^ 40 + e.pc % 2 ^ 14 * 2 ^ 44
    + e.slot % 64 * 2 ^ 58 + e.vnode % 2 ^ 20 * 2 ^ 64 + e.colour % 2 ^ 18 * 2 ^ 84 + e.launch % 2 ^ 16 * 2 ^ 102
    + e.iter.toNat * 2 ^ 128 + addr % 2 ^ 52 * 2 ^ 192 + e.tenant % 2 ^ 12 * 2 ^ 244)

/-- A record of a unit that is no firing: firing fields zero. -/
def unitErr (cls code unit core akind aidx tenant : Nat) : ErrInfo :=
  { cls := cls, code := code, unit := unit, retry := 0, addr := none, raw := 0, core := core, akind := akind, aidx := aidx, pc := 0,
    slot := 0, vnode := 0, colour := 0, launch := 0, iter := 0, tenant := tenant }

/-- A record of a core that is no firing's: a steward core's agent kind is 9, with index 0 (R363). -/
def coreErr (cls code unit core tenant : Nat) : ErrInfo :=
  if isSteward core then unitErr cls code unit core 9 0 tenant else unitErr cls code unit core 0 (coreInCluster core) tenant

/-- A record of a firing, or of an action that it held (R363, R370). -/
def ctxErr (cls code unit : Nat) (x : Ctx) (pc : Nat) : ErrInfo :=
  { cls := cls, code := code, unit := unit, retry := 0, addr := none, raw := 0, core := x.core,
    akind := if isSteward x.core then 9 else 0, aidx := if isSteward x.core then 0 else coreInCluster x.core, pc := pc,
    slot := x.slot, vnode := x.vnode, colour := colourOf x.frame x.gen, launch := x.launch, iter := x.iter,
    tenant := x.tenant }

/-- A record is appended to a log, or dropped and counted when it is full (R367). -/
def ErrLog.append (l : ErrLog) (r : Rec) : ErrLog :=
  if l.full then { l with ovf := true, dropped := min 65535 (l.dropped + 1) }
  else
    let t := (l.tail + 1) % 256
    { l with recs := tabSet l.recs l.tail r, tail := t, full := t == l.head }

/-- A record enters a die's error log. -/
def State.logRec (s : State) (die : Nat) (r : Rec) : State := s.modDie die (fun d => { d with log := d.log.append r })

/-- A record enters the log of the die of its core. -/
def State.logErr (s : State) (e : ErrInfo) : State := s.logRec (dieOf e.core) e.toRec

/-- A bit of a cluster flag word is set; CLFLAGS shows a bit that was clear from 1 to 40 cycles later, any delay being free (R368,
log 69). -/
def State.setFlag (s : State) (cluster bit : Nat) : State :=
  if bitN (s.cluster cluster).flags bit then s
  else s.drawn.modCluster cluster (fun c =>
    { c with flags := c.flags ||| BitVec.ofNat 8 (2 ^ bit),
             seen := tabSet c.seen bit (s.cycle + 1 + (Config.freeWord s.fresh).toNat % 40) })

/-- A bit of a table of health words. -/
def healthSet (t : Tab (BitVec 32)) (i bit : Nat) : Tab (BitVec 32) := tabSet t i (tabGet 0 t i ||| BitVec.ofNat 32 (2 ^ bit))

/-- A bit of a cluster's health word is set, in the die's map and in the boot store, whose other bits stand as they were (R365). -/
def State.setHealth (s : State) (cluster bit : Nat) : State :=
  let s1 := s.modCluster cluster (fun k => { k with health := k.health ||| BitVec.ofNat 32 (2 ^ bit) })
  { s1 with boot := { s1.boot with health := healthSet s1.boot.health cluster bit } }

/-- A unit of a cluster is retired: its bit of the health map, and the cluster's lasting flag (R364, R365, R368). -/
def State.retireBit (s : State) (cluster bit : Nat) : State := (s.setHealth cluster bit).setFlag cluster 5

/-- A core is retired (R364); a steward core, which has no bit of its own in the health map, only sets the lasting flag of its
cluster (R365, R447). -/
def State.retireCore (s : State) (core : Nat) : State :=
  if isSteward core then s.setFlag (clusterOf core) 5 else s.retireBit (clusterOf core) (coreInCluster core)

/-- A cluster is fused off: its cores, Press and copy unit do not work; its router and slice do (R9, R10). -/
def State.fusedOff (s : State) (cluster : Nat) : Bool := bitN (s.die (cluster / 120)).harvest (cluster % 120)

/-! ## Placement and token sends (R62, R298) -/

/-- One placement entry as PLACE writes it (R231). -/
def placeEntry (t : Tab Place) (w : Word) : Tab Place :=
  tabSet t (fieldN w 34 7) { valid := bitN w 0, vnode := fieldN w 1 20, core := fieldN w 21 13 }

/-- The entries of a PLACE descriptor, written in index order (R231). DESIGN CHOICE: a count field of 7, for which R231 gives no
meaning, writes an eighth entry of zeros, which makes table index 0 invalid (log 78). -/
def placeAll (d : Vec) (t : Tab Place) : Tab Place :=
  (List.range (fieldN d 13 3 + 1)).foldl (fun t e => placeEntry t (BitVec.ofNat 64 (fieldN d (64 * e + 64) 64))) t

/-- The placement table of a core as a release finds it: a PLACE counts from its own release on, though it is still on its way (R62). -/
def State.placeTab (s : State) (core : Nat) : Tab Place :=
  s.net.foldl (fun t p => match p.msg with
    | .place d => if p.dst = .core core then placeAll d t else t
    | _ => t) (s.core core).place

/-- The core id that a placement table gives for a virtual node id (R62): the entry of lowest number, where two valid ones name the
node (log 71). -/
def placeOf (t : Tab Place) (vnode : Nat) : Option Nat :=
  (t.find? (fun e => e.2.valid && e.2.vnode == vnode)).map (fun e => e.2.core)

/-- A core id with y = 14 marks a far entry (R298). -/
def isFar (core : Nat) : Bool := core / 128 % 16 == 14

/-- Whether the far-node table of a die has a valid entry for a virtual node id: device and core (R298). -/
def Die.farOf (d : Die) (vnode : Nat) : Option (Nat × Nat) :=
  (d.farnode.find? (fun e => e.2.getLsbD 0 && fieldN e.2 1 20 == vnode)).map
    (fun e => (fieldN e.2 21 10, fieldN e.2 31 13))

/-- Where a static destination of a core's table leads: the agent of the destination core, on this device or another. -/
def State.resolve (s : State) (core vnode : Nat) : Option Agent :=
  match placeOf (s.placeTab core) vnode with
  | none => none
  | some c =>
    if isFar c then
      match (s.die (dieOf core)).farOf vnode with
      | none => none
      | some (dev, c2) => if dev = s.device then some (.core c2) else some (.device dev c2)
    else some (.core c)

/-- A token packet from a core. -/
def State.sendTok (s : State) (core : Nat) (dst : Agent) (m : Msg) : State :=
  s.send { src := .core core, dst := dst, cls := .token, tenant := s.tenantOf core, msg := m, held := false }

/-- A completion arrival of an amount to a frame handle; handle 0 names none. -/
def State.arrive (s : State) (src : Agent) (tenant : Nat) (h : Handle) (slot amount : Nat) : State :=
  if h = 0 then s
  else s.send { src := src, dst := .core (handleCore h), cls := .token, tenant := tenant,
                msg := .frame (.handle h) slot 0 amount 0 0 0 0 false, held := false }

/-- A word into F[fw] of a frame and an arrival of amount 1 at its slot: status, wait and report words (R230, R303). -/
def State.report (s : State) (src : Agent) (tenant : Nat) (h : Handle) (slot fw : Nat) (w : Word) : State :=
  if h = 0 then s
  else s.send { src := src, dst := .core (handleCore h), cls := .token, tenant := tenant,
                msg := .frame (.handle h) slot fw 1 8 (zx w) 0 0 false, held := false }

/-! ## The work table (R55, R56) -/

/-- A work table entry. -/
def State.work (s : State) (die i : Nat) : Work := tabGet Work.zero (s.die die).work i
/-- The state with one work table entry replaced. -/
def State.setWork (s : State) (die i : Nat) (w : Work) : State :=
  s.modDie die (fun d => { d with work := tabSet d.work i w })
/-- A launch or work table id (R55). -/
def mkLaunch (die seq i : Nat) : Nat := die * 2 ^ 14 + seq * 2 ^ 8 + i
/-- An entry returns to FREE; its sequence stays (R448). -/
def Work.freed (w : Work) : Work := { Work.zero with seq := w.seq, used := w.used }
/-- A launch entry that has sent its completion token returns to FREE (R448). -/
def Work.freeDone (w : Work) : Work := if w.level = 1 ∧ w.state = .done then w.freed else w
/-- The launch entries of a die that were DONE when a step began (R448). -/
def Die.freeDone (d : Die) : Die := { d with work := d.work.map (fun e => (e.1, e.2.freeDone)) }
/-- The work table entry that an id names. -/
def State.workOf (s : State) (id : Nat) : Work := s.work (id / 2 ^ 14 % 4) (id % 256)
/-- A change of the counter of a work table id travels to its die (R56). -/
def State.sendWork (s : State) (src : Agent) (id : Nat) (delta : Int) (status : Nat) : State :=
  s.send { src := src, dst := .work (id / 2 ^ 14 % 4), cls := .token, tenant := 0,
           msg := .work (id % 256) (id / 256 % 64) delta status, held := false }
/-- A change of the counter of a frame's launch: launch id 0 is that of a frame of no launch (R29, R40, R215). -/
def State.sendLaunch (s : State) (core id : Nat) (delta : Int) : State :=
  if id = 0 then s else s.sendWork (.core core) id delta 0
/-- A completion travels to the entry of the level above, when the id names an entry of that level (R56). -/
def State.sendParent (s : State) (src : Agent) (level id status : Nat) : State :=
  if (s.workOf id).level = level then s.sendWork src id (-1) status else s

/-! ## Freeing frames (R30, R121, R215) -/

/-- The frame leaves the table: state FREE, generation up by 1, its ready entries and reservations removed, its launch's
counter lowered. -/
def State.freeNow (s : State) (core i : Nat) : State :=
  let f := (s.core core).frame i
  let s1 := s.modCore core (fun c =>
    { (c.setFrame i { Frame.zero with gen := (f.gen + 1) % 256 }) with
      ready := c.ready.filter (fun r => r.frame != i), resvs := c.resvs.filter (fun e => e.1 / 64 != i) })
  s1.sendLaunch core f.launch (-1)

/-- A core's running firing runs on a frame. -/
def CoreSt.runsOn (c : CoreSt) (i : Nat) : Bool := c.firing.any (fun f => f.ctx.frame == i)

/-- A frame is freed under its own running firing (R30, R57, R215): its entry goes to FREE and its generation and ready entries with
it; the other fields stand until that firing's end, so that it still reaches its words (log 35). -/
def State.freeUnder (s : State) (core i : Nat) : State :=
  let f := (s.core core).frame i
  let s1 := s.modCore core (fun c =>
    { (c.setFrame i { f with state := .free, gen := (f.gen + 1) % 256, static := false, launch := 0, contwait := false }) with
      ready := c.ready.filter (fun r => r.frame != i), resvs := c.resvs.filter (fun e => e.1 / 64 != i) })
  s1.sendLaunch core f.launch (-1)

/-- A frame is freed as FFREE frees it; one in SPILLING or FILLING when its transfer completes (R121). -/
def State.freeFrame (s : State) (core i : Nat) : State :=
  match ((s.core core).frame i).state with
  | .free => s
  | .spilling => s.modFrame core i (fun f => { f with dying := true })
  | .filling => s.modFrame core i (fun f => { f with dying := true })
  | _ => if (s.core core).runsOn i then s.freeUnder core i else s.freeNow core i

/-- The running firing of a core is gone; a frame that was freed under it keeps only its generation. -/
def State.dropFiring (s : State) (core i : Nat) : State :=
  s.modCore core (fun c =>
    let f := c.frame i
    { (if f.state == .free then c.setFrame i { Frame.zero with gen := f.gen } else c) with firing := none })

/-! ## Tiles and queued jobs (R57, R98, R102, R260) -/

/-- A tile of a core. -/
def CoreSt.tile (c : CoreSt) (n : Nat) : Tile := tabGet Tile.zero c.tiles n
/-- The state with one tile changed. -/
def State.modTile (s : State) (core n : Nat) (f : Tile → Tile) : State :=
  s.modCore core (fun c => { c with tiles := tabSet c.tiles n (f (c.tile n)) })

/-- A tile loses a reference; a DRAINING tile that loses its last one is EMPTY (R102). -/
def Tile.unref (t : Tile) : Tile :=
  if t.state = .draining ∧ t.nref ≤ 1 then { t with nref := 0, state := .empty, arrived := 0 }
  else { t with nref := t.nref - 1 }

/-- The tiles of a list lose a reference each. -/
def State.dropRefs (s : State) (l : List (Nat × Nat)) : State :=
  l.foldl (fun t e => t.modTile e.1 e.2 Tile.unref) s

/-- The jobs of a queue (R70, R435). -/
def State.jobsOf (s : State) : JobQueue → List Job
  | .press c => (s.cluster c).pressQ
  | .copy c => (s.cluster c).copyQ
  | .steward d => (s.die d).copyQ

/-- The state with a queue changed. -/
def State.modJobs (s : State) (q : JobQueue) (f : List Job → List Job) : State :=
  match q with
  | .press c => s.modCluster c (fun k => { k with pressQ := f k.pressQ })
  | .copy c => s.modCluster c (fun k => { k with copyQ := f k.copyQ })
  | .steward d => s.modDie d (fun k => { k with copyQ := f k.copyQ })

/-- The copy queue of a core (R70, R435). -/
def copyQueueOf (core : Nat) : JobQueue := if isSteward core then .steward (dieOf core) else .copy (clusterOf core)

/-- A queued job of an activation, by core, frame and generation. -/
def jobOfFrame (core frame gen : Nat) (j : Job) : Bool :=
  j.state == .queued && j.ctx.core == core && j.ctx.frame == frame && j.ctx.gen == gen

/-- The queued jobs of an activation are withdrawn (R57): they leave their queues and the tiles lose their references. -/
def State.withdrawJobs (s : State) (core frame gen : Nat) : State :=
  let gone := (s.jobsOf (.press (clusterOf core)) ++ s.jobsOf (copyQueueOf core)).filter (jobOfFrame core frame gen)
  let keep : List Job → List Job := fun l => l.filter (fun j => !jobOfFrame core frame gen j)
  ((s.modJobs (.press (clusterOf core)) keep).modJobs (copyQueueOf core) keep).dropRefs (gone.flatMap (fun j => j.refs))

/-! ## Credits and channels (R42, R79) -/

/-- Unit cost of a token (R42). -/
def Token.cost (t : Token) : Nat := if t.kind == .data && t.vec then 5 else 1

/-- Key of a port's credits: node × 4 + port. -/
def portKey (vnode port : Nat) : Nat := vnode * 4 + port

/-- The channel that owns an input port of a node. -/
def CoreSt.chanOf (c : CoreSt) (vnode port : Nat) : Option Nat :=
  (c.chans.find? (fun e => e.2.en && e.2.vnode == vnode && e.2.port == port)).map (·.1)

/-- A channel table entry. -/
def CoreSt.chan (c : CoreSt) (i : Nat) : Chan := tabGet Chan.zero c.chans i

/-! ## Node descriptors (R25) -/

/-- Node kind code. -/
def ndKind (d : Rec) : Nat := fieldN d 0 3
/-- Default priority. -/
def ndPrio (d : Rec) : Nat := fieldN d 3 2
/-- Rounding mode code. -/
def ndRmode (d : Rec) : Nat := fieldN d 5 3
/-- Frame class of dynamic activations. -/
def ndClass (d : Rec) : Nat := fieldN d 8 3
/-- Copy index. -/
def ndCopy (d : Rec) : Nat := fieldN d 11 2
/-- Main entry. -/
def ndEntry (d : Rec) : Nat := fieldN d 16 14
/-- Marker entry. -/
def ndMarker (d : Rec) : Nat := fieldN d 30 14
/-- Tenant id. -/
def ndTenant (d : Rec) : Nat := fieldN d 44 12
/-- Consumption rate of an input port. -/
def ndInRate (d : Rec) (p : Nat) : Nat := fieldN d (64 + 4 * p) 4 + 1
/-- Production rate of an output port. -/
def ndOutRate (d : Rec) (p : Nat) : Nat := fieldN d (80 + 4 * p) 4 + 1
/-- An input port is present. -/
def ndInEn (d : Rec) (p : Nat) : Bool := d.getLsbD (96 + p)
/-- An output port is present. -/
def ndOutEn (d : Rec) (p : Nat) : Bool := d.getLsbD (100 + p)
/-- An input port carries vector tokens. -/
def ndInVec (d : Rec) (p : Nat) : Bool := d.getLsbD (104 + p)
/-- An output port carries vector tokens. -/
def ndOutVec (d : Rec) (p : Nat) : Bool := d.getLsbD (108 + p)
/-- Route of an output port: virtual node id and input port. -/
def ndRoute (d : Rec) (p : Nat) : Nat × Nat := (fieldN d (130 + 22 * p) 20, fieldN d (128 + 22 * p) 2)
/-- Flag-map base address. -/
def ndFmbase (d : Rec) : Nat := fieldN d 216 40 * 256

/-- The node descriptor of a virtual node id as the core knows it: resident, or in the descriptor area. -/
def CoreSt.nodeDesc (c : CoreSt) (vnode : Nat) : Rec :=
  match c.descs.find? (fun e => e.1 == vnode) with
  | some (_, d) => d
  | none => tabGet 0 c.dareaTab vnode

/-! ## Heads of channels and checkpoints (R42, R82) -/

/-- Tokens of an input port, oldest first. -/
def CoreSt.toksOf (c : CoreSt) (vnode p : Nat) : List Token :=
  match c.chanOf vnode p with
  | none => []
  | some i => (c.chan i).toks

/-- The token at the head of an input port. -/
def CoreSt.headOf (c : CoreSt) (vnode p : Nat) : Option Token := (c.toksOf vnode p).head?

/-- Present input ports of a node. -/
def inPorts (d : Rec) : List Nat := (List.range 4).filter (ndInEn d)
/-- Present output ports of a node. -/
def outPorts (d : Rec) : List Nat := (List.range 4).filter (ndOutEn d)
/-- Every port of a list shows a marker of one kind at its head. -/
def CoreSt.allHeads (c : CoreSt) (vnode : Nat) (k : TokKind) (ports : List Nat) : Bool :=
  !ports.isEmpty && ports.all (fun p => (c.headOf vnode p).any (fun t => t.kind == k))

/-- Input ports of a node that its own output ports do not feed (R82). -/
def markedPorts (vnode : Nat) (d : Rec) : List Nat :=
  (inPorts d).filter (fun p => !(outPorts d).any (fun o => ndRoute d o == (vnode, p)))

/-- CHECKPOINT stands at the head of every marked port (R82, step 1); a node without marked ports never stands so (log 72). -/
def CoreSt.atCheckpoint (c : CoreSt) (vnode : Nat) : Bool :=
  c.allHeads vnode .checkpoint (markedPorts vnode (c.nodeDesc vnode))

/-- The node frame of a node on a core (R28). -/
def CoreSt.nodeFrame (c : CoreSt) (vnode : Nat) : Option Nat :=
  (c.frames.find? (fun e => e.2.static && e.2.state != .free && e.2.vnode == vnode)).map (·.1)

/-- The node frame at an index belongs to a node that stands at a checkpoint, where none of its slots fires (R82, step 1). -/
def CoreSt.frameParked (c : CoreSt) (i : Nat) : Bool := (c.frame i).static && c.atCheckpoint (c.frame i).vnode

/-! ## The slot unit (R35, R36, R49) -/

/-- The ready queue of a core has a free entry (R49). -/
def CoreSt.readyRoom (c : CoreSt) : Bool := decide (c.ready.length < readyMax)

/-- A slot of the frame may fire now: the ready queue has room (R49) and no checkpoint stops the node (R82). -/
def CoreSt.mayFire (c : CoreSt) (i : Nat) : Bool := c.readyRoom && !c.frameParked i

/-- The slot's test is taken up again by an arrival of amount 0 at the core's own input, where it waits (R49, R82; log 40). -/
def State.testLater (s : State) (core frame slot : Nat) : State :=
  s.arrive (.core core) (s.tenantOf core) (mkHandle core frame ((s.core core).frame frame).gen) slot 0

/-- A slot word is updated and tested (R35, R36): the word is written, and a COUNT slot that comes to zero fires with its reload
mode in the same step, or later where it may not fire yet. -/
def State.updateSlot (s : State) (core frame slot : Nat) (w : Word) : State :=
  let side := s.fside core frame slot
  if slotFires w = false then s.setFword core frame slot w side
  else if (s.core core).mayFire frame then (s.setFword core frame slot (reloadWord w) side).fire core frame slot w
  else (s.setFword core frame slot w side).testLater core frame slot

/-! ## Taking a fault (R351 to R355, R358, R366) -/

/-- The record enters FIRSTX when it is empty; otherwise only the more bit is set (R366). -/
def CoreSt.latch (c : CoreSt) (r : Rec) : CoreSt :=
  if fieldN c.firstx 0 8 = 0 then { c with firstx := r } else { c with more := true }

/-- The fault handler's virtual node id (R354). -/
def faultNode : Nat := 0xFFFFF

/-- A fault token with the record goes to the job's fault handler, when the core's table names it (R354). -/
def State.faultToken (s : State) (core : Nat) (r : Rec) (h : Handle) : State :=
  match s.resolve core faultNode with
  | none => s
  | some dst => s.sendTok core dst (.frame (.node faultNode) 0 (fieldN r 0 8) 1 64 (r.setWidth 512) 0 h false)

/-- Reserved engine jobs of these ids are freed in a queue (R72, R351). -/
def dropJobs (q : List Job) (ids : List Nat) : List Job :=
  q.filter (fun j => !(ids.contains j.id && j.state == .reserved))

/-- The work table entry that an id names is still reserved by a LAUNCH that is not released (R226). -/
def Work.heldFor (w : Work) (id : Nat) : Bool := w.reserved && w.seq == id / 256 % 64

/-- Work table entries that a LAUNCH reserved and did not release return to FREE (R226). -/
def State.dropLaunches (s : State) : List Nat → State
  | [] => s
  | id :: t =>
    let die := id / 2 ^ 14 % 4
    let w := s.work die (id % 256)
    (if w.heldFor id then s.setWork die (id % 256) { w with state := .free, level := 0, reserved := false } else s).dropLaunches t

/-- Everything that a discarded firing held: its unreleased actions, reserved jobs and reserved launches (R57, R351). DESIGN CHOICE:
its FENCE marks go with them, as R133 does not say whether a mark outlives its firing (log 79). -/
def State.discardHeld (s : State) (core : Nat) (f : Firing) : State :=
  let s1 := s.modCore core (fun c => { c with queue := c.queue.filter (fun h => h.ended) })
  let drop : List Job → List Job := fun l => dropJobs l f.jobs
  ((s1.modJobs (.press (clusterOf core)) drop).modJobs (copyQueueOf core) drop).dropLaunches f.launches

/-- Frames freed one after the other. -/
def State.freeHandles (s : State) (core : Nat) : List Handle → State
  | [] => s
  | h :: t =>
    (if ((s.core core).frame (handleFrame h)).gen = handleGen h then s.freeFrame core (handleFrame h) else s).freeHandles core t

/-- A reservation is returned unconsumed: its credits go back to the ports (R352). -/
def CoreSt.returnResv (c : CoreSt) (vnode key : Nat) : CoreSt :=
  match tabFind c.resvs key with
  | none => c
  | some r => { c with resvs := tabDel c.resvs key,
                       credits := r.credits.foldl (fun t e => tabSet t (portKey vnode e.1)
                         (tabGet 0 t (portKey vnode e.1) + (e.2 : Int))) c.credits }

/-- Containment of a faulted tenant firing without its reports (R351, R352). -/
def State.containFiring (s : State) (core : Nat) (f : Firing) : State :=
  let s1 := ((s.discardHeld core f).dropFiring core f.ctx.frame).freeHandles core f.allocs
  let s2 := if ((s1.core core).frame f.ctx.frame).hframe && ((s1.core core).frame f.ctx.frame).gen == f.ctx.gen
    then s1.freeFrame core f.ctx.frame else s1
  if f.ctx.reserved && ((s2.core core).frame f.ctx.frame).gen == f.ctx.gen then
    let w := s2.fword core f.ctx.frame f.ctx.slot
    (s2.setFword core f.ctx.frame f.ctx.slot (withValid w false) (s2.fside core f.ctx.frame f.ctx.slot)).modCore core
      (fun c => c.returnResv f.ctx.vnode (f.ctx.frame * 64 + f.ctx.slot))
  else s2

/-- The containment unit of a fault at issue: the job for a SPILL fault of a tenant firing, else the firing (R350, R353, R404). -/
def faultUnit (core cls : Nat) : Nat := if cls = 0x0D ∧ isSteward core = false then 3 else 0

/-- A firing faults at issue: in tenant mode it is contained, latched, recorded and reported to the fault handler
(R351 to R355, R366); in steward mode it is recorded and issue stops (R353); its cluster flag is that of cluster (0, 0) (R368, R447). -/
def State.faultFiring (s : State) (core : Nat) (f : Firing) (e : ErrInfo) : State :=
  let r := e.toRec
  if isSteward core then ((s.setFlag (clusterOf core) 0).logErr e).modCore core (fun c => { c with halted := true })
  else
    let s1 := (s.containFiring core f).modCore core (fun c => c.latch r)
    let s2 := (s1.setFlag (clusterOf core) 0).logErr e
    if f.ctx.vnode = faultNode then s2 else s2.faultToken core r (mkHandle core f.ctx.frame f.ctx.gen)

/-- A firing faults at issue with a class, a code and an address. -/
def State.takeFault (s : State) (core : Nat) (f : Firing) (cls code : Nat) (addr : Option Nat) : State :=
  s.faultFiring core f { ctxErr cls code (faultUnit core cls) f.ctx f.pc with addr := addr.map (fun a => (a % 2 ^ 48, false)) }

/-- A held action is refused in the issuing core (R370): a record of unit 5 with the firing's fields, then a fault token. -/
def State.refuseAct (s : State) (x : Ctx) (pc cls code : Nat) (addr : Option (Nat × Bool)) : State :=
  let e := { ctxErr cls code 5 x pc with addr := addr }
  (s.logErr e).faultToken x.core e.toRec (mkHandle x.core x.frame x.gen)

/-! ## Issue of an instruction (R46, R51, R199, R374, R450) -/

/-- What the body of an instruction does once its issue limits hold. -/
inductive Body where
  /-- It is performed, and the program counter goes on to the next word. -/
  | done (s : State)
  /-- It is performed and places no action, though its kind is a held one (R70, R226). -/
  | bare (s : State)
  /-- It is performed, and the program counter goes to a word address. -/
  | jump (pc : Nat) (s : State)
  /-- It is performed and ends the firing. -/
  | ends (s : State)
  /-- It faults, with class, code and address (R374). -/
  | trap (cls code : Nat) (addr : Option Nat)
  /-- It consumes poison (R357). -/
  | poison (addr : Option Nat)
  /-- It waits: nothing is issued in this step. -/
  | wait

/-- The firing of the current core is replaced. -/
def State.setFiring (s : State) (f : Firing) : State := s.modCore s.cur (fun c => { c with firing := some f })

/-- An instruction has issued: it counts, its held action counts, and the program counter moves (R46, R197). -/
def State.advance (s : State) (held : Bool) (pc : Nat) : State :=
  match (s.core s.cur).firing with
  | none => s
  | some f => s.setFiring { f with pc := pc, issued := f.issued + 1, held := f.held + b2n held }

/-- The act occupies an entry of the commit queue; FENCE and CONT do not, and END is no action (R46, R133, R198). -/
def Act.entry : Act → Bool
  | .fence _ _ => false
  | .endMark => false
  | .cont _ _ => false
  | _ => true

/-- Occupied entries of the commit queue. -/
def CoreSt.occupied (c : CoreSt) : Nat := (c.queue.filter (fun h => h.act.entry)).length

/-- The lowest-numbered valid HANDLER slot of a frame (R358). -/
def State.handlerSlot (s : State) (core i : Nat) : Option Nat :=
  (List.range ((s.core core).frame i).nslot).find? (fun j =>
    slotValid (s.fword core i j) && slotKind (s.fword core i j) == 3)

/-- ACTIVATION LOST goes to the parent's HANDLER slot, or to the fault handler (R358). -/
def State.activationLost (s : State) (core : Nat) (x : Ctx) (r : Rec) (h : Handle) : State :=
  let pc := handleCore x.parent
  let pf := handleFrame x.parent
  let live := x.parent ≠ 0 ∧ ((s.core pc).frame pf).state ≠ .free ∧ ((s.core pc).frame pf).gen = handleGen x.parent
  match (if live then s.handlerSlot pc pf else none) with
  | some n => s.sendTok core (.core pc) (.frame (.handle x.parent) n 9 1 64 (r.setWidth 512) 0 h true)
  | none => if x.vnode = faultNode then s else s.faultToken core r h

/-- A firing consumes poison (R357, R358): a dynamic activation is contained and purged, a node frame's firing contained. -/
def State.takePoison (s : State) (core : Nat) (f : Firing) (addr : Option Nat) : State :=
  if isSteward core || ((s.core core).frame f.ctx.frame).static then s.takeFault core f 0x09 0 addr
  else
    let e := { ctxErr 0x09 0 1 f.ctx f.pc with addr := addr.map (fun a => (a % 2 ^ 48, false)) }
    let r := e.toRec
    let s1 := (s.containFiring core f).modCore core (fun c => c.latch r)
    let s2 := s1.withdrawJobs core f.ctx.frame f.ctx.gen
    let s3 := if ((s2.core core).frame f.ctx.frame).gen = f.ctx.gen then s2.freeFrame core f.ctx.frame else s2
    let s4 := ((s3.setFlag (clusterOf core) 0).setFlag (clusterOf core) 1).logErr e
    s4.activationLost core f.ctx r (mkHandle core f.ctx.frame f.ctx.gen)

/-- What the body of an instruction makes of the state. -/
def Body.apply (b : Body) (held : Bool) (f : Firing) (s : State) : State :=
  match b with
  | .done s' => s'.advance held (f.pc + 1)
  | .bare s' => s'.advance false (f.pc + 1)
  | .jump pc s' => s'.advance held pc
  | .ends s' => s'
  | .trap cls code addr => s.takeFault s.cur f cls code addr
  | .poison addr => s.takePoison s.cur f addr
  | .wait => s

/-- The issue of an instruction of the current core's firing: the limits of R46 in the order of R450, the wait for room in
the commit queue (R51, R67), then its body. -/
def issue (held : Bool) (body : Firing → State → Body) (s : State) : Host.Outcome State Fault Refusal :=
  match (s.core s.cur).firing with
  | none => .fault .noFiring
  | some f =>
    if (s.core s.cur).halted then .next s
    else if isSteward s.cur = false ∧ 256 ≤ f.issued then .next (s.takeFault s.cur f 0x02 0x01 none)
    else if held = true ∧ isSteward s.cur = false ∧ 48 ≤ f.held then .next (s.takeFault s.cur f 0x02 0x02 none)
    else if held = true ∧ 48 ≤ (s.core s.cur).occupied then .next s
    else .next ((body f s).apply held f s)

/-- An instruction that only a steward core may issue (R179, R182). -/
def stewardIssue (mnemonic : String) (held : Bool) (body : Firing → State → Body) (s : State) :
    Host.Outcome State Fault Refusal :=
  if isSteward s.cur then issue held body s else .refused (.stewardOnly mnemonic)

/-- An action enters the commit queue of the current core (R47). -/
def State.hold (s : State) (f : Firing) (a : Act) : State :=
  s.modCore s.cur (fun c => { c with queue := c.queue ++ [{ act := a, ctx := f.ctx, pc := f.pc, ended := false }] })

end Sys2Proof.Machine
end

