-- ==== Sys2Proof/Machine/Operands.lean ====
section
/-! DEFINITION. The operand forms: temporaries, immediates, addresses, and the state as an instruction's body sees it. -/

namespace Sys2Proof.Machine

/-- Temporary t of a firing (R177). -/
def Firing.t (f : Firing) (t : Temp) : Vec := f.temps.get t.toFin

/-- Bits [63:0] of a temporary, the scalar operand (R209). -/
def Firing.w (f : Firing) (t : Temp) : Word := (f.t t).setWidth 64

/-- The firing with a temporary written. -/
def Firing.setT (f : Firing) (t : Temp) (v : Vec) : Firing := { f with temps := f.temps.set t.toNat v t.isLt }

/-- The firing with a scalar result: T[td] := zx(v) (R197). -/
def Firing.setW (f : Firing) (t : Temp) (v : Word) : Firing := f.setT t (zx v)

/-- The firing with flags ORed into its flag set (R173); bit 7 of a side-band is ignored when it is read (R172). -/
def Firing.orFlags (f : Firing) (b : Byte) : Firing := { f with flags := f.flags ||| (b &&& 0x7F) }

/-- The body of an instruction that only changes its firing. -/
def onlyFiring (g : Firing → State → Firing) : Firing → State → Body := fun f s => .done (s.setFiring (g f s))

/-- The body of an instruction that only holds an action. -/
def onlyHold (a : Firing → State → Act) : Firing → State → Body := fun f s => .done (s.hold f (a f s))

/-- An instruction of two scalar sources (R209): T[td] := zx(op a b). -/
def intOp (op : Word → Word → Word) (td ta tb : Temp) : State → Host.Outcome State Fault Refusal :=
  issue false (onlyFiring fun f _ => f.setW td (op (f.w ta) (f.w tb)))

/-- An instruction of one scalar source: T[td] := zx(op a). -/
def intOp1 (op : Word → Word) (td ta : Temp) : State → Host.Outcome State Fault Refusal :=
  issue false (onlyFiring fun f _ => f.setW td (op (f.w ta)))

/-- A 20-bit immediate sign-extended from bit 19 (R207). -/
def sextImm (im : BitVec 20) : Word := im.signExtend 64

/-- A branch offset sign-extended (R184). -/
def sextOff (off : BitVec 17) : Int := off.toInt

/-- Bytes of a memory size (R236). -/
def memSz : MemSize → Nat
  | .b => 1 | .h => 2 | .w => 4 | .d => 8 | .v => 64

/-- Bytes of a split-phase size (R241). -/
def splitSz : SplitSize → Nat
  | .b => 1 | .h => 2 | .w => 4 | .d => 8 | .v64 => 64 | .v128 => 128 | .v256 => 256 | .v512 => 512

/-- Frame words that a split-phase load writes (R241). -/
def splitWords (z : SplitSize) : Nat := max 1 (splitSz z / 8)

/-- Bytes of an atomic width (R245). -/
def atomSz : AWidth → Nat
  | .w => 4 | .d => 8

/-- The address of LD, ST, STT and PST: T[tb] + sext(off) × size, modulo 2^64 (R236). -/
def memAddr (f : Firing) (z : MemSize) (tb : Temp) (off : BitVec 14) : Word :=
  f.w tb + BitVec.ofInt 64 (off.toInt * (memSz z : Int))

/-- The address is canonical: bits [63:48] equal bit 47 (R109). -/
def canonical (va : Word) : Bool := (va.setWidth 48).signExtend 64 == va

/-- The address lies in the self window (R91). -/
def inSelf (va : Word) : Bool := decide (selfBase ≤ va.toNat)

/-- Offset in the self window. -/
def selfOfs (va : Word) : Nat := va.toNat - selfBase

end Sys2Proof.Machine
end

