-- ==== Sys2Proof/Machine/Control.lean ====
section
/-! DEFINITION. System operations, CONT, immediates, integer operations and branches (R200 to R203, R207 to R211). -/

namespace Sys2Proof.Machine

/-! ## System operations (R201, R202) -/

/-- NOP: no effect (R201). -/
def execNop : State → Host.Outcome State Fault Refusal := issue false fun _ s => .done s

/-- The actions of the core's firing are marked as those of an ended firing: they may be released (R47). -/
def markEnded (q : List Held) : List Held := q.map (fun h => { h with ended := true })

/-- The firing ends with END or CONT: its held actions and the closing mark are queued for release, its flag set is ORed
into FFLAGS, and it is counted (R47, R173, R201); the actions of a purged activation are discarded (R57). -/
def endFiring (mark : Act) (f : Firing) (s : State) : State :=
  let s0 := if f.purged then s.discardHeld s.cur f else s.hold f mark
  (s0.modCore s.cur (fun c =>
    { c with queue := markEnded c.queue, fflags := c.fflags ||| f.flags.setWidth 7, firings := c.firings + 1 })).dropFiring
      s.cur f.ctx.frame

/-- END (R201). -/
def execEnd : State → Host.Outcome State Fault Refusal := issue false fun f s => .ends (endFiring .endMark f s)

/-- TRAP: a fault of class TRAP in tenant mode; on a steward core a record of unit 5, and issue goes on (R202). -/
def execTrap (code : BitVec 6) : State → Host.Outcome State Fault Refusal := issue false fun f s =>
  if isSteward s.cur then .done (s.logErr (ctxErr 0x01 code.toNat 5 f.ctx f.pc))
  else .trap 0x01 code.toNat none

/-- HALT: waits until the commit queue is empty, then issue stops on this steward core (R201). -/
def execHalt : State → Host.Outcome State Fault Refusal := stewardIssue "HALT" false fun _ s =>
  if (s.core s.cur).queue.isEmpty then .done (s.modCore s.cur (fun c => { c with halted := true })) else .wait

/-- ROINV is held; at release it invalidates the read-only cache (R201). -/
def execRoinv : State → Host.Outcome State Fault Refusal := issue true (onlyHold fun _ _ => .roinv)

/-- CONT (R203, R68): ends the firing and leaves a waiting continuation with its limits. -/
def execCont (ld st cp tl : BitVec 5) (sl : Slot) : State → Host.Outcome State Fault Refusal := issue false fun f s =>
  if ((s.core s.cur).frame f.ctx.frame).nslot ≤ sl.toNat then .trap 0x05 0x04 none
  else .ends (endFiring (.cont { ld := ld.toNat, st := st.toNat, cp := cp.toNat, tl := tl.toNat } sl.toNat) f s)

/-! ## Immediates and shifts (R207, R208) -/

/-- LI: T[td] := zx(sext(im)). -/
def execLi (td : Temp) (im : BitVec 20) : State → Host.Outcome State Fault Refusal :=
  issue false (onlyFiring fun f _ => f.setW td (sextImm im))

/-- LIH: T[td] := zx((T[ta] << 20) | im). -/
def execLih (td ta : Temp) (im : BitVec 20) : State → Host.Outcome State Fault Refusal :=
  intOp1 (fun a => (a <<< 20) ||| im.setWidth 64) td ta

/-- ADDI: T[td] := zx(T[ta] + sext(im)). -/
def execAddi (td ta : Temp) (im : BitVec 20) : State → Host.Outcome State Fault Refusal :=
  intOp1 (fun a => a + sextImm im) td ta

/-- ANDI: T[td] := zx(T[ta] & im). -/
def execAndi (td ta : Temp) (im : BitVec 20) : State → Host.Outcome State Fault Refusal :=
  intOp1 (fun a => a &&& im.setWidth 64) td ta

/-- ORI: T[td] := zx(T[ta] | im). -/
def execOri (td ta : Temp) (im : BitVec 20) : State → Host.Outcome State Fault Refusal :=
  intOp1 (fun a => a ||| im.setWidth 64) td ta

/-- XORI: T[td] := zx(T[ta] ^ im). -/
def execXori (td ta : Temp) (im : BitVec 20) : State → Host.Outcome State Fault Refusal :=
  intOp1 (fun a => a ^^^ im.setWidth 64) td ta

/-- SHLI. -/
def execShli (td ta : Temp) (amt : BitVec 6) : State → Host.Outcome State Fault Refusal :=
  intOp1 (fun a => a <<< amt.toNat) td ta

/-- SHRI: zeros shifted in. -/
def execShri (td ta : Temp) (amt : BitVec 6) : State → Host.Outcome State Fault Refusal :=
  intOp1 (fun a => a >>> amt.toNat) td ta

/-- SRAI: copies of bit 63 shifted in. -/
def execSrai (td ta : Temp) (amt : BitVec 6) : State → Host.Outcome State Fault Refusal :=
  intOp1 (fun a => a.sshiftRight amt.toNat) td ta

/-! ## Integer operations (R209, R157) -/

/-- ADD. -/
def execAdd (td ta tb : Temp) : State → Host.Outcome State Fault Refusal := intOp (fun a b => a + b) td ta tb
/-- SUB. -/
def execSub (td ta tb : Temp) : State → Host.Outcome State Fault Refusal := intOp (fun a b => a - b) td ta tb
/-- MUL: low 64 bits of the product. -/
def execMul (td ta tb : Temp) : State → Host.Outcome State Fault Refusal := intOp (fun a b => a * b) td ta tb
/-- MULH: high 64 bits of the signed 128-bit product. -/
def execMulh (td ta tb : Temp) : State → Host.Outcome State Fault Refusal :=
  intOp (fun a b => BitVec.ofInt 64 ((a.toInt * b.toInt) / 2 ^ 64)) td ta tb
/-- Signed quotient truncated towards zero; all ones by 0 (R157). -/
def divS (a b : Word) : Word := if b = 0 then BitVec.allOnes 64 else BitVec.ofInt 64 (a.toInt.tdiv b.toInt)
/-- Unsigned quotient; all ones by 0 (R157). -/
def divU (a b : Word) : Word := if b = 0 then BitVec.allOnes 64 else BitVec.ofNat 64 (a.toNat / b.toNat)
/-- Signed remainder with the sign of a; a by 0 (R157). -/
def remS (a b : Word) : Word := if b = 0 then a else BitVec.ofInt 64 (a.toInt.tmod b.toInt)
/-- DIV. -/
def execDiv (td ta tb : Temp) : State → Host.Outcome State Fault Refusal := intOp divS td ta tb
/-- DIVU. -/
def execDivu (td ta tb : Temp) : State → Host.Outcome State Fault Refusal := intOp divU td ta tb
/-- REM. -/
def execRem (td ta tb : Temp) : State → Host.Outcome State Fault Refusal := intOp remS td ta tb
/-- AND. -/
def execAnd (td ta tb : Temp) : State → Host.Outcome State Fault Refusal := intOp (fun a b => a &&& b) td ta tb
/-- OR. -/
def execOr (td ta tb : Temp) : State → Host.Outcome State Fault Refusal := intOp (fun a b => a ||| b) td ta tb
/-- XOR. -/
def execXor (td ta tb : Temp) : State → Host.Outcome State Fault Refusal := intOp (fun a b => a ^^^ b) td ta tb
/-- The shift amount b[5:0]. -/
def shAmt (b : Word) : Nat := b.toNat % 64
/-- SHL. -/
def execShl (td ta tb : Temp) : State → Host.Outcome State Fault Refusal := intOp (fun a b => a <<< shAmt b) td ta tb
/-- SHR. -/
def execShr (td ta tb : Temp) : State → Host.Outcome State Fault Refusal := intOp (fun a b => a >>> shAmt b) td ta tb
/-- SRA. -/
def execSra (td ta tb : Temp) : State → Host.Outcome State Fault Refusal :=
  intOp (fun a b => a.sshiftRight (shAmt b)) td ta tb
/-- MIN, signed. -/
def execMin (td ta tb : Temp) : State → Host.Outcome State Fault Refusal :=
  intOp (fun a b => if a.toInt ≤ b.toInt then a else b) td ta tb
/-- MAX, signed. -/
def execMax (td ta tb : Temp) : State → Host.Outcome State Fault Refusal :=
  intOp (fun a b => if a.toInt ≤ b.toInt then b else a) td ta tb
/-- SLT: 1 if a < b signed. -/
def execSlt (td ta tb : Temp) : State → Host.Outcome State Fault Refusal :=
  intOp (fun a b => if a.toInt < b.toInt then 1 else 0) td ta tb
/-- SLTU: 1 if a < b unsigned. -/
def execSltu (td ta tb : Temp) : State → Host.Outcome State Fault Refusal :=
  intOp (fun a b => if a.toNat < b.toNat then 1 else 0) td ta tb
/-- Leading zero bits, 0 to 64. -/
def clz64 (a : Word) : Nat := if a = 0 then 64 else 63 - a.toNat.log2
/-- Number of 1 bits. -/
def popc64 (a : Word) : Nat := (List.range 64).foldl (fun n i => n + b2n (a.getLsbD i)) 0
/-- CLZ. -/
def execClz (td ta : Temp) : State → Host.Outcome State Fault Refusal := intOp1 (fun a => BitVec.ofNat 64 (clz64 a)) td ta
/-- POPC. -/
def execPopc (td ta : Temp) : State → Host.Outcome State Fault Refusal := intOp1 (fun a => BitVec.ofNat 64 (popc64 a)) td ta
/-- SEL: a if c ≠ 0, else b. -/
def execSel (td ta tb tc : Temp) : State → Host.Outcome State Fault Refusal :=
  issue false (onlyFiring fun f _ => f.setW td (if f.w tc ≠ 0 then f.w ta else f.w tb))

/-! ## Branches (R210, R211) -/

/-- Whether a branch is taken (R210). -/
def brTaken (cc : BrCond) (a b : Word) : Bool :=
  match cc with
  | .beq => a == b
  | .bne => a != b
  | .blt => decide (a.toInt < b.toInt)
  | .bge => decide (b.toInt ≤ a.toInt)
  | .bltu => decide (a.toNat < b.toNat)
  | .bgeu => decide (b.toNat ≤ a.toNat)
  | .bra => true

/-- The word address that a taken branch goes to (R210); a target outside the instruction store, which the scanner keeps
out of every sealed block (R179), is the first address beyond the store, where the next fetch faults (R373; log 13). -/
def brTarget (pc : Nat) (off : BitVec 17) : Nat :=
  let a := (pc : Int) + sextOff off
  if 0 ≤ a ∧ a ≤ 16383 then a.toNat else 16384

/-- BR: PC := taken ? PC + sext(of) : PC + 1 (R210). -/
def execBr (cc : BrCond) (ta tb : Temp) (off : BitVec 17) : State → Host.Outcome State Fault Refusal :=
  issue false fun f s => if brTaken cc (f.w ta) (f.w tb) then .jump (brTarget f.pc off) s else .done s

/-- JMPI: PC := T[ta][13:0] (R211). -/
def execJmpi (ta : Temp) : State → Host.Outcome State Fault Refusal :=
  stewardIssue "JMPI" false fun f s => .jump (fieldN (f.w ta) 0 14) s

end Sys2Proof.Machine
end

