-- ==== Sys2Proof/Machine/Csr.lean ====
section
/-! DEFINITION. The control and status registers: CSRR, CSRW and CSRS (R204 to R206, R89, R129, R366, R368, R389, R399,
R420). -/

namespace Sys2Proof.Machine

/-! ## Register words -/

/-- COREID (R206). -/
def coreidWord (core : Nat) : Word := BitVec.ofNat 64 (core % 8192 + b2n (isSteward core) * 2 ^ 13)

/-- JOBID (R206). -/
def CoreSt.jobidWord (c : CoreSt) : Word :=
  BitVec.ofNat 64 (c.asid % 4096 + c.jprio % 4 * 2 ^ 12 + c.jwork % 2 ^ 16 * 2 ^ 16 + c.gwork % 2 ^ 16 * 2 ^ 32)

/-- UNACK (R129). -/
def Unack.word (u : Unack) : Word :=
  BitVec.ofNat 64 (u.clus % 4096 + u.die % 4096 * 2 ^ 12 + u.pkg % 4096 * 2 ^ 24 + u.sys % 4096 * 2 ^ 36
    + u.load % 4096 * 2 ^ 48)

/-- FIRSTX word j (R366). -/
def CoreSt.firstxWord (c : CoreSt) (j : Nat) : Word :=
  if j = 1 then BitVec.ofNat 64 (fieldN c.firstx 64 54 + b2n c.more * 2 ^ 54) else c.firstx.extractLsb' (64 * j) 64

/-- The monitor unit that MONMIN to MONHIST read (R89). -/
def CoreSt.monRead (c : CoreSt) : MonFig := if bitN c.monsel0 12 then c.mon1 else c.mon0

/-- MONHIST: bin b in bits [32b + 31 : 32b] (R89). -/
def MonFig.histWord (m : MonFig) : Vec :=
  BitVec.ofNat 512 ((List.range 16).foldl (fun n b => n + tabGet 0 m.hist b % 2 ^ 32 * 2 ^ (32 * b)) 0)

/-- The error log holds unread records (R367). -/
def ErrLog.unread (l : ErrLog) : Bool := l.full || l.head != l.tail

/-- The bits of a cluster flag word that the OR tree has brought to CLFLAGS by a cycle (R368). -/
def Cluster.shown (k : Cluster) (cycle : Nat) : BitVec 8 :=
  (List.range 8).foldl (fun w b => if bitN k.flags b && decide (tabGet 0 k.seen b ≤ cycle) then w ||| BitVec.ofNat 8 (2 ^ b) else w) 0

/-- CLFLAGS (R368). -/
def State.clflags (s : State) (die : Nat) : Word :=
  let flag (c : Nat) : BitVec 8 := (s.cluster (die * 120 + c)).shown s.cycle
  let any := (List.range 120).foldl (fun b c => b ||| flag c) 0
  let rows := (List.range 10).foldl (fun n y =>
    n + b2n ((List.range 12).any (fun x => flag (12 * y + x) != 0)) * 2 ^ (8 + y)) 0
  let l := (s.die die).log
  BitVec.ofNat 64 (any.toNat + rows + b2n l.unread * 2 ^ 18 + b2n l.ovf * 2 ^ 19)

/-- FLTBUF (R399). -/
def State.fltbufWord (s : State) (die : Nat) : Word :=
  let cl (c : Nat) : Cluster := s.cluster (die * 120 + c)
  let first := (List.range 120).find? (fun c => !(cl c).fltbuf.isEmpty)
  BitVec.ofNat 64 (b2n first.isSome + b2n ((List.range 120).any (fun c => (cl c).drop)) * 2
    + b2n ((List.range 120).any (fun c => (cl c).stop)) * 4 + first.getD 0x7F * 8)

/-- QRING (R389). -/
def Qring.word (q : Qring) : Word :=
  BitVec.ofNat 64 (q.base % 2 ^ 36 + q.head % 1024 * 2 ^ 36 + q.tail % 1024 * 2 ^ 46 + b2n q.full * 2 ^ 56
    + b2n q.ovf * 2 ^ 57)

/-! ## Reads and writes -/

/-- CSR numbers that a tenant core may name (R205). -/
def csrTenant (n : Nat) : Bool :=
  decide (n ≤ 6) || (decide (8 ≤ n) && decide (n ≤ 0xB)) || (decide (0x10 ≤ n) && decide (n ≤ 0x16))

/-- CSR numbers that are assigned (R205). -/
def csrAssigned (n : Nat) : Bool := csrTenant n || (decide (0x40 ≤ n) && decide (n ≤ 0x43))

/-- The value that a CSR reads (R205); an unassigned number reads a free value on a steward core (log 9). -/
def State.csrRead (s : State) (core n : Nat) : Vec :=
  let c := s.core core
  match n with
  | 0x000 => zx (coreidWord core)
  | 0x001 => zx c.jobidWord
  | 0x002 => zx (BitVec.ofNat 64 s.cycle)
  | 0x003 => zx c.firings
  | 0x004 => zx (c.fflags.setWidth 64)
  | 0x005 => zx c.unack.word
  | 0x006 => zx (BitVec.ofNat 64 (b2n c.detmode))
  | 0x008 => zx (c.firstxWord 0)
  | 0x009 => zx (c.firstxWord 1)
  | 0x00A => zx (c.firstxWord 2)
  | 0x00B => zx (c.firstxWord 3)
  | 0x010 => zx c.monsel0
  | 0x011 => zx c.monsel1
  | 0x012 => zx (BitVec.ofNat 64 (c.monRead.min % 2 ^ 32))
  | 0x013 => zx (BitVec.ofNat 64 (c.monRead.max % 2 ^ 32))
  | 0x014 => zx (BitVec.ofNat 64 (c.monRead.cnt % 2 ^ 32))
  | 0x015 => zx (BitVec.ofNat 64 c.monRead.sum)
  | 0x016 => c.monRead.histWord
  | 0x040 => zx (s.clflags (dieOf core))
  | 0x041 => zx (s.fltbufWord (dieOf core))
  | 0x042 => zx (s.die (dieOf core)).kerfrep
  | 0x043 => zx (s.die (dieOf core)).qring.word
  | _ => zx (Config.freeWord s.fresh)

/-- MONSEL as written: its clr bit is not stored (R89). -/
def monselWord (v : Word) : Word := setFieldN v 7 1 0

/-- KERFREP after a write of v: writing 1 to valid clears valid and count (R420). -/
def kerfrepClear (k v : Word) : Word := if bitN v 0 then setFieldN (setFieldN k 0 1 0) 43 16 0 else k

/-- QRING after a write: base and head are written, ovf is cleared where v1 holds 1; a head that moves makes room (R389). -/
def Qring.write (q : Qring) (v v1 : Word) : Qring :=
  let h := fieldN v 36 10
  { q with base := fieldN v 0 36, head := h, full := q.full && h == q.head, ovf := q.ovf && !bitN v1 57 }

/-- A write to a CSR: v for its RW fields, v1 for its W1C and WO fields (R204). -/
def State.csrWrite (s : State) (core n : Nat) (v v1 : Word) : State :=
  match n with
  | 0x004 => s.modCore core (fun c => { c with fflags := v.setWidth 7 })
  | 0x008 => s.modCore core (fun c => { c with firstx := c.firstx &&& ~~~(((v1.setWidth 8).setWidth 256)) })
  | 0x009 => s.modCore core (fun c => { c with more := c.more && !bitN v1 54 })
  | 0x010 => s.modCore core (fun c =>
      { c with monsel0 := monselWord v, mon0 := if bitN v1 7 then MonFig.zero else c.mon0 })
  | 0x011 => s.modCore core (fun c =>
      { c with monsel1 := monselWord v, mon1 := if bitN v1 7 then MonFig.zero else c.mon1 })
  | 0x042 => s.modDie (dieOf core) (fun d => { d with kerfrep := kerfrepClear d.kerfrep v1 })
  | 0x043 => s.modDie (dieOf core) (fun d => { d with qring := d.qring.write v v1 })
  | _ => s

/-- An unassigned number draws a free value at its read (log 9). -/
def State.csrDraw (s : State) (n : Nat) : State := if csrAssigned n then s else { s with fresh := s.fresh + 1 }

/-- A CSR instruction; the scanner keeps steward-only and unassigned numbers from a tenant core (R205, R372 code 0x09). -/
def csrOp (mnemonic : String) (csr : BitVec 12) (body : Firing → State → Body) (s : State) :
    Host.Outcome State Fault Refusal :=
  if isSteward s.cur || csrTenant csr.toNat then issue false body s else .refused (.stewardOnly mnemonic)

/-- CSRR: T[td] := zx(CSR) (R204). -/
def execCsrr (td : Temp) (csr : BitVec 12) : State → Host.Outcome State Fault Refusal :=
  csrOp "CSRR" csr fun f s => .done ((s.csrDraw csr.toNat).setFiring (f.setT td (s.csrRead s.cur csr.toNat)))

/-- CSRW: the CSR is written with T[ta] (R204). -/
def execCsrw (ta : Temp) (csr : BitVec 12) : State → Host.Outcome State Fault Refusal :=
  csrOp "CSRW" csr fun f s => .done (s.csrWrite s.cur csr.toNat (f.w ta) (f.w ta))

/-- CSRS: T[td] := zx(old CSR), and the bits of T[ta] are set in RW fields and written to W1C and WO fields (R204). -/
def execCsrs (td ta : Temp) (csr : BitVec 12) : State → Host.Outcome State Fault Refusal :=
  csrOp "CSRS" csr fun f s =>
    let old := s.csrRead s.cur csr.toNat
    let s1 := (s.csrDraw csr.toNat).csrWrite s.cur csr.toNat (old.setWidth 64 ||| f.w ta) (f.w ta)
    .done (s1.setFiring (f.setT td old))

end Sys2Proof.Machine
end

