-- ==== Sys2Proof/Machine/Frames.lean ====
section
/-! DEFINITION. Frame words, frames and slots: FLD, FST, FALLOC, FFREE, FSELF, FIDX and the slot instructions
(R212 to R217), with the allocation of a frame (R30) that LAUNCH and handler arrivals share. -/

namespace Sys2Proof.Machine

/-! ## The frame table entry as software reads it (R29) -/

/-- The code of a frame state (R29). -/
def frameStateCode : FrameState → Nat
  | .free => 0 | .local => 1 | .spilling => 2 | .spilled => 3 | .filling => 4

/-- Word q of a frame table entry, 0 to 3 (R29, R216). -/
def frameWordOf (f : Frame) (q : Nat) : Word :=
  match q with
  | 0 => BitVec.ofNat 64 (frameStateCode f.state + f.fclass % 8 * 2 ^ 3 + f.gen % 256 * 2 ^ 6 + b2n f.static * 2 ^ 14
      + b2n f.hframe * 2 ^ 15 + f.nslot % 128 * 2 ^ 16 + f.poolofs % 2048 * 2 ^ 24 + f.vnode % 2 ^ 20 * 2 ^ 35)
  | 1 => BitVec.ofNat 64 (f.launch % 2 ^ 16 + f.parent.toNat * 2 ^ 16)
  | 2 => f.iter
  | _ => BitVec.ofNat 64 (f.nld % 4096 + f.npst % 4096 * 2 ^ 12 + f.ncpy % 4096 * 2 ^ 24 + f.ntile % 4096 * 2 ^ 36
      + f.contslot % 64 * 2 ^ 48 + b2n f.contwait * 2 ^ 54)

/-! ## Frame words (R212, R213) -/

/-- Frame words that an access of a size touches (R180). -/
def frameSpan : FrameSize → Nat
  | .v => 8
  | _ => 1

/-- The frame words F[k] to F[k + n − 1] as one value, F[k] lowest (R212). -/
def State.fwords (s : State) (core frame k : Nat) : Nat → Nat
  | 0 => 0
  | n + 1 => (s.fword core frame k).toNat + 2 ^ 64 * s.fwords core frame (k + 1) n

/-- OR of the side-bands of n frame words from F[k] on. -/
def State.fsides (s : State) (core frame k : Nat) : Nat → Byte
  | 0 => 0
  | n + 1 => s.fside core frame k ||| s.fsides core frame (k + 1) n

/-- The value that FLD brings (R212). -/
def fldValue (s : State) (core frame : Nat) (size : FrameSize) (k : Nat) : Vec :=
  match size with
  | .d => zx (s.fword core frame k)
  | .v => BitVec.ofNat 512 (s.fwords core frame k 8)
  | .w => zx (((s.fword core frame k).setWidth 32).setWidth 64)
  | .ws => zx (((s.fword core frame k).setWidth 32).signExtend 64)

/-- A read of data marked POISON faults a tenant firing (R357); a steward firing reads on. -/
def poisoned (s : State) (side : Byte) : Bool := isPoison side && !isSteward s.cur

/-- FLD (R212). -/
def execFld (size : FrameSize) (t : Temp) (k : FWord) : State → Host.Outcome State Fault Refusal := issue false fun f s =>
  let fr := (s.core s.cur).frame f.ctx.frame
  if fr.words < k.toNat + frameSpan size then .trap 0x05 0x03 none
  else
    let side := s.fsides s.cur f.ctx.frame k.toNat (frameSpan size)
    if poisoned s side then .poison none
    else .done (s.setFiring ((f.setT t (fldValue s s.cur f.ctx.frame size k.toNat)).orFlags side))

/-- A frame word in the range is a slot word whose armed bit is 1 (R213, R374 SYNCWORD 0x01). -/
def State.armedIn (s : State) (core frame k n : Nat) : Bool :=
  (List.range n).any (fun j => decide (k + j < ((s.core core).frame frame).nslot) && slotArmed (s.fword core frame (k + j)))

/-- The words that FST writes (R212): W and WS keep the high half. -/
def fstWords (s : State) (core frame : Nat) (size : FrameSize) (v : Vec) (k : Nat) : List Word :=
  match size with
  | .d => [v.setWidth 64]
  | .v => (List.range 8).map (fun j => v.extractLsb' (64 * j) 64)
  | _ => [((s.fword core frame k) &&& 0xFFFFFFFF00000000) ||| ((v.setWidth 32).setWidth 64)]

/-- FST (R212, R213): every word written takes the flag set as its side-band. -/
def execFst (size : FrameSize) (t : Temp) (k : FWord) : State → Host.Outcome State Fault Refusal := issue false fun f s =>
  let fr := (s.core s.cur).frame f.ctx.frame
  if fr.words < k.toNat + frameSpan size then .trap 0x05 0x03 none
  else if s.armedIn s.cur f.ctx.frame k.toNat (frameSpan size) then .trap 0x04 0x01 none
  else .done (s.setFwords s.cur f.ctx.frame k.toNat f.flags (fstWords s s.cur f.ctx.frame size (f.t t) k.toNat))

/-! ## Allocation (R30, R214) -/

/-- The lowest index of a FREE frame table entry (R214, R325). -/
def CoreSt.freeEntry (c : CoreSt) : Option Nat :=
  (List.range 1024).find? (fun i => (c.frame i).state == .free)

/-- The poolofs of a frame that holds no run of the pool: SPILLED, or FILLING before its run is free. -/
def noRun : Nat := 2047

/-- The frame holds a run of the pool: LOCAL, SPILLING or FILLING with its run taken (R92). -/
def Frame.inPool (f : Frame) : Bool :=
  match f.state with
  | .local => true
  | .spilling => true
  | .filling => f.poolofs != noRun
  | _ => false

/-- Runs of the pool in use: position and length in 256-byte units. -/
def CoreSt.runs (c : CoreSt) : List (Nat × Nat) :=
  (c.frames.filter (fun e => e.2.inPool)).map (fun e => (e.2.poolofs, classUnits e.2.fclass))

/-- The lowest free run of a length in the frame pool (log 7). -/
def CoreSt.freeRun (c : CoreSt) (units : Nat) : Option Nat :=
  let runs := c.runs
  let fits (p : Nat) : Bool := decide (p + units ≤ c.fpool) &&
    runs.all (fun r => decide (p + units ≤ r.1) || decide (r.1 + r.2 ≤ p))
  let cands := (0 :: runs.map (fun r => r.1 + r.2)).filter fits
  cands.foldl (fun b p => match b with
    | none => some p
    | some q => some (min p q)) none

/-- The lowest free body slot of the spill area (log 7). -/
def CoreSt.freeBody (c : CoreSt) : Option Nat :=
  (List.range (2 ^ c.spillk)).find? (fun b => c.frames.all (fun e => e.2.body != some b))

/-- Bytes of a range cleared. -/
def memClear (m : List Host.Cell) (a n : Nat) : List Host.Cell :=
  m.filter (fun e => decide (e.1 < a) || decide (a + n ≤ e.1))

/-- Every frame word and side-band byte of a frame set to 0. -/
def State.clearFrame (s : State) (core i : Nat) : State :=
  let f := (s.core core).frame i
  let n := f.words
  if s.frameSpilled core i then
    (List.range n).foldl (fun t j => t.setFword core i j 0 0) s
  else
    let b := s.frameBase core i
    { s with mem := memClear s.mem b (8 * n),
             side := s.side.filter (fun e => decide (e.1 < b / 8) || decide (b / 8 + n ≤ e.1)) }

/-- The slot word that FALLOC gives every slot but S0 (R214). -/
def freshSlot (d : Rec) : Word :=
  BitVec.ofNat 64 (2 ^ 25 + ndPrio d * 2 ^ 28 + ndEntry d * 2 ^ 32)

/-- The first n slot words of a frame set as FALLOC sets them. -/
def State.initSlots (s : State) (core i n : Nat) (w : Word) : State :=
  s.setFwords core i 0 0 (List.replicate n w)

/-- What an allocation needs and finds: a FREE entry with a pool run, or a body slot for a frame born spilled (R30). -/
inductive Alloc where
  | noEntry
  | noRoom
  | ok (s : State) (i : Nat)

/-- A frame is allocated with zeroed words (R30, R214): in the pool when a run is free, otherwise born spilled. -/
def State.allocFrame (s : State) (core cls nslot vnode launch : Nat) (parent : Handle) (iter : Word) (hframe : Bool) : Alloc :=
  let c := s.core core
  match c.freeEntry with
  | none => .noEntry
  | some i =>
    let base : Frame := { Frame.zero with gen := (c.frame i).gen, fclass := cls, nslot := nslot, vnode := vnode,
                                          launch := launch, parent := parent, iter := iter, hframe := hframe,
                                          progress := s.cycle }
    match c.freeRun (classUnits cls), c.freeBody with
    | some p, _ =>
      .ok ((s.modFrame core i (fun _ => { base with state := .local, poolofs := p })).clearFrame core i) i
    | none, some b =>
      .ok ((s.modFrame core i (fun _ => { base with state := .spilled, body := some b, poolofs := noRun })).clearFrame core i) i
    | none, none => .noRoom

/-- The class that a cls field names: 0 is the node's class, 1 to 5 are codes 0 to 4 (R214). -/
def clsField (d : Rec) (cls : Nat) : Nat := if cls = 0 then ndClass d else cls - 1

/-- FALLOC (R214, R404). -/
def execFalloc (td ta : Temp) : State → Host.Outcome State Fault Refusal := issue false fun f s =>
  let r := f.w ta
  let d := (s.core s.cur).nodeDesc f.ctx.vnode
  let nslot := fieldN r 0 7
  let cls := fieldN r 7 3
  if 6 ≤ cls ∨ 64 < nslot ∨ classWords (clsField d cls) < nslot ∨ fieldN r 50 14 ≠ 0 then .trap 0x05 0x09 none
  else
    match s.allocFrame s.cur (clsField d cls) nslot f.ctx.vnode f.ctx.launch (mkHandle s.cur f.ctx.frame f.ctx.gen) f.ctx.iter false with
    | .noEntry => .done (s.setFiring (f.setW td 0))
    | .noRoom => .trap 0x0D 0x01 none
    | .ok s1 i =>
      let h := mkHandle s.cur i ((s.core s.cur).frame i).gen
      let s2 := s1.initSlots s.cur i nslot (freshSlot d)
      let w0 := setFieldN (setFieldN (freshSlot d) 0 24 (fieldN r 26 24)) 24 1 (fieldN r 10 1)
      let w0 := if bitN r 11 then setFieldN w0 32 14 (fieldN r 12 14) else w0
      let s3 := if nslot = 0 then s2 else s2.updateSlot s.cur i 0 w0
      let s4 := s3.sendLaunch s.cur f.ctx.launch 1
      .done (s4.setFiring ({ f with allocs := f.allocs ++ [h] }.setW td (h.setWidth 64)))

/-- FFREE is held; its handle must name a dynamic frame of the issuing core (R215, R374). -/
def execFfree (ta : Temp) : State → Host.Outcome State Fault Refusal := issue true fun f s =>
  let h : Handle := (f.w ta).setWidth 32
  if h.getLsbD 0 = false ∨ handleCore h ≠ s.cur ∨ ((s.core s.cur).frame (handleFrame h)).static then .trap 0x05 0x08 none
  else .done (s.hold f (.ffree h))

/-- FSELF: the firing's frame handle (R216). -/
def execFself (td : Temp) : State → Host.Outcome State Fault Refusal :=
  issue false (onlyFiring fun f s => f.setW td ((mkHandle s.cur f.ctx.frame f.ctx.gen).setWidth 64))

/-- FIDX: word T[ta][11:10] of the frame table entry T[ta][9:0] (R216). -/
def execFidx (td ta : Temp) : State → Host.Outcome State Fault Refusal :=
  issue false (onlyFiring fun f s =>
    f.setW td (frameWordOf ((s.core s.cur).frame (fieldN (f.w ta) 0 10)) (fieldN (f.w ta) 10 2)))

/-! ## Slots (R217) -/

/-- The body of a slot instruction: the slot must be below the frame's slot count (R374, ILLEGAL 0x04). -/
def slotBody (n : Slot) (b : Firing → State → Body) : Firing → State → Body := fun f s =>
  if ((s.core s.cur).frame f.ctx.frame).nslot ≤ n.toNat then .trap 0x05 0x04 none else b f s

/-- SLOTSET. -/
def execSlotset (n : Slot) (ta : Temp) : State → Host.Outcome State Fault Refusal :=
  issue true (slotBody n (onlyHold fun f _ => .slotSet n.toNat ((f.w ta).setWidth 24)))

/-- SLOTARM. -/
def execSlotarm (n : Slot) (ta : Temp) : State → Host.Outcome State Fault Refusal :=
  issue true (slotBody n (onlyHold fun f _ => .slotArm n.toNat ((f.w ta).setWidth 24)))

/-- SLOTRD: the slot word as present in this cycle. -/
def execSlotrd (td : Temp) (n : Slot) : State → Host.Outcome State Fault Refusal :=
  issue false (slotBody n (onlyFiring fun f s => f.setW td (s.fword s.cur f.ctx.frame n.toNat)))

/-- SLOTDIS. -/
def execSlotdis (n : Slot) : State → Host.Outcome State Fault Refusal :=
  issue true (slotBody n (onlyHold fun _ _ => .slotDis n.toNat))

end Sys2Proof.Machine
end

