-- ==== Sys2Proof/Machine/Translate.lean ====
section
/-! DEFINITION. Address spaces: the page walk, published buffers, the physical address map and what each instruction may
reach (R108 to R117, R240, R299, R334, R391). -/

namespace Sys2Proof.Machine

/-! ## The physical address map (R108) -/

/-- What a physical address names. -/
inductive Space where
  | hbm (pa : Nat)
  | remote (device offset : Nat)
  | win (core offset : Nat)
  | csr (die offset : Nat)
  | host (region offset : Nat)
  | reserved
  deriving DecidableEq, Repr

/-- The offset lies in the populated part of a die's HBM: 96 GiB, or 128 GiB on a -512 (R108). -/
def populated (ofs : Nat) : Bool := decide (ofs < 0x1800000000) || Config.is512

/-- What an address of the HBM rows names. -/
def hbmSpace (pa : Nat) : Space :=
  if pa < 0x8000000000 ∧ populated (pa % 0x2000000000) = true then .hbm pa else .reserved

/-- The address map (R108); the window of the device's own id reaches its own HBM (R299). -/
def State.spaceOf (s : State) (pa : Nat) : Space :=
  if pa < 0x8000000000 then hbmSpace pa
  else if 0x4000000000000 ≤ pa ∧ pa < 0x8000000000000 then
    let dev := (pa - 0x4000000000000) / 0x10000000000
    let o := pa % 0x10000000000
    if 0x8000000000 ≤ o then .reserved else if dev = s.device then hbmSpace o else .remote dev o
  else if isWin pa then (if coreExists (winCore pa) then .win (winCore pa) (winOfs pa) else .reserved)
  else if 0xA000000000000 ≤ pa ∧ pa < 0xA000004000000 then
    .csr ((pa - 0xA000000000000) / 0x1000000) (pa % 0x1000000)
  else if 0xC000000000000 ≤ pa ∧ pa < 0x10000000000000 then
    .host ((pa - 0xC000000000000) / 0x10000000000) (pa % 0x10000000000)
  else .reserved

/-- The stack of its die that holds an HBM address (R105). -/
def stackOf (pa : Nat) : Nat := pa % 0x2000000000 / 256 % 2

/-- The die of an HBM address. -/
def hbmDie (pa : Nat) : Nat := pa / 0x2000000000

/-! ## The page walk (R110, R111, R391) -/

/-- How a walk ends: at an entry with V = 0 of a level, refused with class and code, or at a leaf, with the address of its
entry. -/
inductive Walk where
  | absent (level : Nat)
  | bad (cls code : Nat)
  | leaf (entry : Nat) (pte : Word) (big : Bool)
  deriving DecidableEq, Repr

/-- A page-table entry as the walker reads it, in plaintext (log 10). -/
def State.pteAt (s : State) (a : Nat) : Word := BitVec.ofNat 64 (leNat (memBytes s.mem a 8))

/-- A non-leaf entry holds V, the next table's address and nothing else (R111). -/
def nonLeafOk (pte : Word) : Bool := fieldN pte 2 9 == 0 && fieldN pte 52 12 == 0

/-- A leaf's reserved field is zero; a 16 MiB leaf has PA[23:16] = 0 and pbidx = 0 (R111, R391 code 0x06). -/
def leafOk (pte : Word) (big : Bool) : Bool :=
  fieldN pte 61 3 == 0 && (!big || (fieldN pte 16 8 == 0 && fieldN pte 8 8 == 0))

/-- The published-buffer entry of an address space, when it is defined (R115). -/
def Die.pub (d : Die) (asid k : Nat) : Option PubBuf := tabFind d.pubs (asid * 256 + k)

/-- A non-leaf entry that a die's walk cache holds (R113). -/
def Die.cached (d : Die) (asid a : Nat) : Option Word := (d.walkc.find? (fun e => e.1 == asid && e.2.1 == a)).map (fun e => e.2.2)

/-- The walk from a table at a level: 3 at the root (R110). An entry that the walk cache holds is taken from there (R113). -/
def State.walkFrom (s : State) (die asid va : Nat) : Nat → Nat → Walk
  | level, table =>
    let a := table + 8 * (va / 2 ^ (16 + 8 * level) % 256)
    let held := if level = 0 then none else (s.die die).cached asid a
    let pte := held.getD (s.pteAt a)
    if held.isNone && s.poison.contains (a / 8) then .bad 0x08 0x07
    else if pte.getLsbD 0 = false then .absent level
    else match level with
      | 0 => if pte.getLsbD 1 = false ∨ leafOk pte false = false ∨
                (fieldN pte 8 8 ≠ 0 ∧ ((s.die die).pub asid (fieldN pte 8 8)).isNone) then .bad 0x06 0x06
             else .leaf a pte false
      | l + 1 =>
        if pte.getLsbD 1 then (if l = 0 ∧ leafOk pte true = true then .leaf a pte true else .bad 0x06 0x06)
        else if nonLeafOk pte then s.walkFrom die asid va l (fieldN pte 11 41 * 2048)
        else .bad 0x06 0x06

/-- The walk of an address of an address space at a die's walker (R110). -/
def State.walk (s : State) (die asid : Nat) (va : Word) : Walk :=
  s.walkFrom die asid va.toNat 3 (tabGet 0 (s.die die).roots asid)

/-- The non-leaf entries of the walk of an address, from a table at a level on. -/
def State.nonLeaves (s : State) (die asid va : Nat) : Nat → Nat → List (Nat × Nat × Word)
  | 0, _ => []
  | l + 1, table =>
    let a := table + 8 * (va / 2 ^ (24 + 8 * l) % 256)
    let pte := ((s.die die).cached asid a).getD (s.pteAt a)
    if pte.getLsbD 0 && !pte.getLsbD 1 then (asid, a, pte) :: s.nonLeaves die asid va l (fieldN pte 11 41 * 2048) else []

/-- An entry enters the walk cache of 256; the oldest goes when it is full (R113, log 11). -/
def Die.cache (d : Die) (e : Nat × Nat × Word) : Die :=
  if (d.cached e.1 e.2.1).isSome then d
  else { d with walkc := (if d.walkc.length < 256 then d.walkc else d.walkc.drop 1) ++ [e] }

/-- The walker keeps the non-leaf entries of a walk that it has made. -/
def State.fillWalk (s : State) (die asid : Nat) (va : Word) : State :=
  s.modDie die (fun d => (s.nonLeaves die asid va.toNat 3 (tabGet 0 (s.die die).roots asid)).foldl Die.cache d)

/-! ## Leaves (R111, R112, R115, R116) -/

/-- The physical address that a leaf gives, through the front or back copy of a published buffer (R116). -/
def State.leafPa (s : State) (die asid : Nat) (pte : Word) (big payload : Bool) (va : Word) : Nat :=
  let frame := fieldN pte 16 36
  let k := fieldN pte 8 8
  if big then frame / 256 * 2 ^ 24 + va.toNat % 2 ^ 24
  else if k = 0 then frame * 2 ^ 16 + va.toNat % 2 ^ 16
  else match (s.die die).pub asid k with
    | none => frame * 2 ^ 16 + va.toNat % 2 ^ 16
    | some b =>
      let copy := if b.sel = payload then b.base0 else b.base1
      copy * 2 ^ 16 + frame * 2 ^ 16 + va.toNat % 2 ^ 16

/-- The key id of a leaf; a core-window page has none (R111). -/
def leafKey (pte : Word) : Nat := if pte.getLsbD 7 then 0 else fieldN pte 52 9

/-- What an access needs of a page (R112). -/
structure Need where
  read  : Bool
  write : Bool
  deriving DecidableEq, Repr

/-- What a request of a core needs (R112). -/
def AccKind.need : AccKind → Need
  | .lds => { read := true, write := false }
  | .ldro => { read := true, write := false }
  | .atomic _ _ _ _ => { read := true, write := true }
  | _ => { read := false, write := true }

/-- The leaf grants what the access needs. -/
def permOk (pte : Word) (n : Need) : Bool := (!n.read || pte.getLsbD 2) && (!n.write || pte.getLsbD 3)

/-- The instruction reaches the address class (R240, R94, R96): the own core's window counts as own. -/
def reachOk (steward : Bool) (core : Nat) (k : AccKind) : Space → Bool
  | .hbm _ => k != .pst
  | .remote _ _ => k != .pst && k != .ldro
  | .host _ _ => k == .pst || k == .lds
  | .csr _ _ => steward && (k == .st || k == .pst || k == .lds)
  | .win c o =>
    if o < sramSize then k != .ldro && !(k == .pst && c == core)
    else if 0x80000 ≤ o ∧ o < 0x90000 then steward && k == .pst
    else steward && (k == .st || k == .pst || k == .lds)
  | .reserved => true

/-- The host region entry admits an access of n bytes at an offset (R334, R335, R391 code 0x07). -/
def hostOk (e : Rec) (asid ofs n : Nat) (wr : Bool) : Bool :=
  e.getLsbD 0 && fieldN e 168 12 == asid && decide (ofs + n ≤ fieldN e 128 40) && (!wr || e.getLsbD 1)

/-- A released request of a core meets its leaf: refused with class and code, or the physical address and key (R391). -/
def State.checkLeaf (s : State) (r : Req) (pte : Word) (big : Bool) : Except (Nat × Nat) (Nat × Nat) :=
  let die := dieOf r.ctx.core
  let pa := s.leafPa die r.asid pte big false r.va
  let sp := s.spaceOf pa
  if permOk pte r.kind.need = false then .error (0x06, 0x03)
  else if reachOk (isSteward r.ctx.core) r.ctx.core r.kind sp = false then .error (0x06, 0x04)
  else match sp with
    | .reserved => .error (0x06, 0x05)
    | .host h o =>
      if hostOk (tabGet 0 s.hostTab h) r.asid o r.size (r.kind == .pst) then .ok (pa, 0) else .error (0x06, 0x07)
    | .hbm p => .ok (p, leafKey pte)
    | _ => .ok (pa, 0)

/-- The physical address that an address of a core's address space names now, if its page is there. -/
def State.landing (s : State) (core asid : Nat) (va : Word) : Option Nat :=
  if inSelf va then some (winAddr core (selfOfs va))
  else match s.walk (dieOf core) asid va with
    | .leaf _ pte big => some (s.leafPa (dieOf core) asid pte big false va)
    | _ => none

/-- An ordered access of R128: not posted, not LDRO. -/
def AccKind.ordered : AccKind → Bool
  | .pst => false
  | .ldro => false
  | _ => true

/-- The home of a location lies on the die of a core (R123). -/
def State.localPa (s : State) (core pa : Nat) : Bool :=
  match s.spaceOf pa with
  | .hbm p => hbmDie p == dieOf core
  | .win c _ => dieOf c == dieOf core
  | .csr d _ => d == dieOf core
  | _ => false

/-- A request in translation is known to be far: its page is there, and its home lies on another die (R123; log 49). -/
def State.knownFar (s : State) (r : Req) : Bool := (s.landing r.ctx.core r.asid r.va).any (fun pa => !s.localPa r.ctx.core pa)

/-- Offset in a core's own local SRAM that an address of its address space reaches, if it does (R91, R94). -/
def State.ownOfs (s : State) (core : Nat) (va : Word) : Option Nat :=
  if inSelf va then (if selfOfs va < sramSize then some (selfOfs va) else none)
  else match s.walk (dieOf core) (s.core core).asid va with
    | .leaf _ pte big =>
      let pa := s.leafPa (dieOf core) (s.core core).asid pte big false va
      if isSram pa && winCore pa == core then some (winOfs pa) else none
    | _ => none

/-! ## The A and D bits (R112, R113) -/

/-- The walker reads a leaf and sets A, and D for a write, at its home slice (R112, R113). -/
def State.markPte (s : State) (entry : Nat) (pte : Word) (wr : Bool) : State × Word :=
  let p := setFieldN (if wr then setFieldN pte 6 1 1 else pte) 5 1 1
  (if p = pte then s.touchPlain entry false
   else { s.touchPlain entry true with mem := memPuts (s.touchPlain entry true).mem entry (leBytes 8 p.toNat) }, p)

/-- The walker reads the non-leaf entries of a walk that its cache does not hold through their home slices (R113). -/
def State.walkTouch (s : State) (die asid : Nat) (va : Word) : State :=
  ((s.nonLeaves die asid va.toNat 3 (tabGet 0 (s.die die).roots asid)).filter
    (fun e => ((s.die die).cached asid e.2.1).isNone)).foldl (fun t e => t.touchPlain e.2.1 false) s

/-! ## What a unit of the fabric reads and writes by virtual address (R63, R84, R86, R112) -/

/-- The page of an address is accessed: A, and D for a write, in its leaf, read through the home slices (R112, R113). -/
def State.markPage (s : State) (die asid : Nat) (wr : Bool) (va : Word) : State :=
  match s.walk die asid va with
  | .leaf entry pte _ => ((s.walkTouch die asid va).markPte entry pte wr).1
  | _ => s

/-- An address range cut at 64 KiB page boundaries: start and length of each part. -/
def pageSpans (va : Word) (n : Nat) : List (Word × Nat) :=
  let a := min n (65536 - va.toNat % 65536)
  (va, a) :: (if a < n then
    (List.range ((n - a + 65535) / 65536)).map (fun j => (va + BitVec.ofNat 64 (a + 65536 * j), min 65536 (n - a - 65536 * j)))
    else [])

/-- Physical address and key of a virtual address in HBM, when its page is mapped and grants what the access needs (R112). -/
def State.vaPa (s : State) (die asid : Nat) (need : Need) (va : Word) : Option (Nat × Nat) :=
  match s.walk die asid va with
  | .leaf _ pte big =>
    if permOk pte need then
      match s.spaceOf (s.leafPa die asid pte big false va) with
      | .hbm pa => some (pa, leafKey pte)
      | _ => none
    else none
  | _ => none

/-- Every page of a range is mapped in HBM and grants what the access needs. -/
def State.rangeOk (s : State) (die asid : Nat) (need : Need) (va : Word) (n : Nat) : Bool :=
  (pageSpans va n).all (fun e => (s.vaPa die asid need e.1).isSome)

/-- Bytes read at virtual addresses; none where a page gives no read. -/
def State.readVirt (s : State) (die asid : Nat) (va : Word) (n : Nat) : Option (List Byte) :=
  (List.range n).mapM (fun j =>
    (s.vaPa die asid { read := true, write := false } (va + BitVec.ofNat 64 j)).map (fun e => s.readByte e.2 e.1))

/-- Such a range has been read: A of its pages is set, and its lines have been accessed at their home slices (R104, R112). -/
def State.touchVirt (s : State) (die asid : Nat) (va : Word) (n : Nat) : State :=
  (pageSpans va n).foldl (fun t e => match t.vaPa die asid { read := true, write := false } e.1 with
    | some (pa, key) => (t.markPage die asid false e.1).touchLines key pa e.2 false
    | none => t) s

/-- Bytes written at virtual addresses, with D of their pages; a byte whose page gives no write is not written. -/
def State.writeVirt (s : State) (die asid : Nat) : Word → List Byte → State
  | _, [] => s
  | va, b :: t =>
    (match s.vaPa die asid { read := false, write := true } va with
     | some (pa, key) => (s.markPage die asid true va).writeBytes key pa [b] 0
     | none => s).writeVirt die asid (va + 1) t

/-! ## Regions of local SRAM (R92) -/

/-- Start of the token pool of a core (R92). -/
def CoreSt.poolStart (c : CoreSt) : Nat := sramSize - 1024 * c.poolKiB

/-- The frame whose run holds an offset of local SRAM, with the word index (R26, R92). -/
def CoreSt.frameAt (c : CoreSt) (o : Nat) : Option (Nat × Nat) :=
  (c.frames.find? (fun e => (e.2.state == .local || e.2.state == .spilling) && decide (256 * e.2.poolofs ≤ o)
      && decide (o < 256 * e.2.poolofs + 8 * e.2.words))).map (fun e => (e.1, (o - 256 * e.2.poolofs) / 8))

/-- A byte of local SRAM lies in an armed slot word (R213, R374). -/
def State.armedByte (s : State) (core o : Nat) : Bool :=
  match (s.core core).frameAt o with
  | none => false
  | some (i, k) => decide (k < ((s.core core).frame i).nslot) && slotArmed (s.fword core i k)

/-- Some byte of a range of local SRAM lies in an armed slot word. -/
def State.armedRange (s : State) (core o n : Nat) : Bool :=
  (wordsOf o n).any (fun w => s.armedByte core (8 * w))

/-- Some byte of a range of local SRAM lies in the token pool region. -/
def State.poolRange (s : State) (core o n : Nat) : Bool :=
  decide ((s.core core).poolStart < o + n) && decide (o < sramSize)

end Sys2Proof.Machine
end

