-- ==== Sys2Proof/Machine/Numbers.lean ====
section
/-! DEFINITION. Number formats and arithmetic (05_numbers.md): exact dyadic values, rounding into a format, the four
defined algorithms, code tables, the Press step and the long accumulators. Every value is computed exactly and
rounded once at the end. -/

namespace Sys2Proof.Machine

/-- A value of a floating format, exact: a NaN (signalling or not), an infinity, or ±m × 2^e (m = 0 is a signed zero). -/
inductive Num where
  | nan (signalling : Bool)
  | inf (neg : Bool)
  | fin (neg : Bool) (m : Nat) (e : Int)
  deriving DecidableEq, Repr

/-- Parameters of a floating format (R146, R148, R149, R153): width, fraction bits, exponent range, subnormals. -/
structure Fmt where
  width : Nat
  p     : Nat
  emin  : Int
  emax  : Int
  sub   : Bool
  deriving DecidableEq, Repr

/-- IEEE binary32. -/
def fmtF32 : Fmt := { width := 32, p := 23, emin := -126, emax := 127, sub := true }
/-- IEEE binary16. -/
def fmtH16 : Fmt := { width := 16, p := 10, emin := -14, emax := 15, sub := true }
/-- B16. -/
def fmtB16 : Fmt := { width := 16, p := 7, emin := -126, emax := 127, sub := true }
/-- E8M10 (R148). -/
def fmtE8M10 : Fmt := { width := 19, p := 10, emin := -126, emax := 127, sub := false }
/-- XF34 (R149). -/
def fmtXF34 : Fmt := { width := 34, p := 23, emin := -510, emax := 511, sub := false }

/-- Exponent bits of a format. -/
def Fmt.ebits (f : Fmt) : Nat := f.width - 1 - f.p

/-- 2^n for a natural n given as an Int (0 below). -/
def pow2i (n : Int) : Nat := 2 ^ n.toNat

/-- The value that the bits of a format hold. -/
def Fmt.decode (f : Fmt) (v : Nat) : Num :=
  let frac := v % 2 ^ f.p
  let ex := v / 2 ^ f.p % 2 ^ f.ebits
  let neg := v / 2 ^ (f.width - 1) % 2 == 1
  if ex = 2 ^ f.ebits - 1 then
    (if frac = 0 then .inf neg else .nan (frac / 2 ^ (f.p - 1) == 0))
  else if ex = 0 then
    (if f.sub then .fin neg frac (f.emin - f.p) else .fin neg 0 0)
  else .fin neg (2 ^ f.p + frac) ((ex : Int) - f.emax - f.p)

/-- The bits of a value that the format holds exactly; the NaN is the canonical one (R147). -/
def Fmt.encode (f : Fmt) (x : Num) : Nat :=
  match x with
  | .nan _ => (2 ^ f.ebits - 1) * 2 ^ f.p + 2 ^ (f.p - 1)
  | .inf neg => (if neg then 2 ^ (f.width - 1) else 0) + (2 ^ f.ebits - 1) * 2 ^ f.p
  | .fin neg m e =>
    let sg := if neg then 2 ^ (f.width - 1) else 0
    if m = 0 then sg
    else
      let l : Int := m.log2
      if l + e < f.emin then sg + m * pow2i (e - (f.emin - f.p)) / pow2i ((f.emin - f.p) - e)
      else
        let k := m * pow2i (f.p - l) / pow2i (l - f.p)
        sg + (l + e + f.emax).toNat * 2 ^ f.p + (k - 2 ^ f.p)

/-- The rounding mode that a code of R152 gives; DYN is resolved by its user. -/
def rndOfCode (c : Nat) : Rnd :=
  match c with
  | 1 => .rtz | 2 => .rdn | 3 => .rup | 4 => .rna | 7 => .dyn | _ => .rne

/-- Whether a magnitude is rounded up: the integer part is odd, the remainder over the divisor, more behind it. -/
def roundUp (rm : Rnd) (neg odd : Bool) (rem den : Nat) (sticky : Bool) : Bool :=
  let inexact := rem != 0 || sticky
  let above := decide (den < 2 * rem) || (2 * rem == den && sticky)
  let tie := 2 * rem == den && !sticky
  match rm with
  | .rtz => false
  | .rdn => neg && inexact
  | .rup => !neg && inexact
  | .rna => above || tie
  | _ => above || (tie && odd)

/-- A magnitude m × 2^e (with more behind it when sticky) as a multiple of 2^q: the count and whether it is exact. -/
def rndTo (rm : Rnd) (neg : Bool) (m : Nat) (e : Int) (sticky : Bool) (q : Int) : Nat × Bool :=
  if q ≤ e then (m * pow2i (e - q), !sticky)
  else
    let d := pow2i (q - e)
    let k := m / d
    (if roundUp rm neg (k % 2 == 1) (m % d) d sticky then k + 1 else k, m % d == 0 && !sticky)

/-- round_to (R153) with its flags. -/
def roundTo (f : Fmt) (rm : Rnd) (sat : Bool) (x : Num) (sticky : Bool := false) : Num × Byte :=
  match x with
  | .nan _ => (.nan false, flNone)
  | .inf n => (.inf n, flNone)
  | .fin neg m e =>
    if m = 0 then (.fin neg 0 0, flNone)
    else
      let ex : Int := m.log2 + e
      let q : Int := if f.emin ≤ ex then ex - f.p else if f.sub then f.emin - f.p else f.emin
      let (k, exact) := rndTo rm neg m e sticky q
      let fl := flIf (!exact) flNX ||| flIf (!exact && decide (ex < f.emin)) flUF
      if k = 0 then (.fin neg 0 0, fl)
      else if f.emax + 1 ≤ (k.log2 : Int) + q then
        let fl2 := fl ||| flOF ||| flNX
        if sat || rm == .rtz || (rm == .rdn && !neg) || (rm == .rup && neg)
          then (.fin neg (2 ^ (f.p + 1) - 1) (f.emax - f.p), fl2)
          else (.inf neg, fl2)
      else (.fin neg k q, fl)

/-- to_xf34 under RNE (R153). -/
def toXf34 (x : Num) (sticky : Bool := false) : Num × Byte := roundTo fmtXF34 .rne false x sticky
/-- to_e8m10 under RNE. -/
def toE8m10 (x : Num) : Num × Byte := roundTo fmtE8M10 .rne false x

/-- A signed integer as a value. -/
def numOfInt (i : Int) : Num := .fin (decide (i < 0)) i.natAbs 0

/-- round_int (R154): a signed or unsigned integer of w bits, clamped, with its flags. -/
def roundInt (signed : Bool) (w : Nat) (rm : Rnd) (x : Num) : Int × Byte :=
  let lo : Int := if signed then -(2 ^ (w - 1) : Nat) else 0
  let hi : Int := if signed then (2 ^ (w - 1) : Nat) - 1 else (2 ^ w : Nat) - 1
  match x with
  | .nan _ => (0, flNV)
  | .inf neg => (if neg then lo else hi, flNV)
  | .fin neg m e =>
    let (k, exact) := rndTo rm neg m e false 0
    let y : Int := if neg then -(k : Int) else k
    if y < lo then (lo, flNV) else if hi < y then (hi, flNV) else (y, flIf (!exact) flNX)

/-! ## Exact operations -/

/-- A signed dyadic m × 2^e. -/
structure Dya where
  m : Int
  e : Int
  deriving DecidableEq, Repr

/-- m × 2^(e − q), for q ≤ e. -/
def Dya.at (x : Dya) (q : Int) : Int := x.m * (pow2i (x.e - q) : Nat)
/-- Exact sum. -/
def Dya.add (x y : Dya) : Dya := let q := min x.e y.e; { m := x.at q + y.at q, e := q }
/-- Exact product. -/
def Dya.mul (x y : Dya) : Dya := { m := x.m * y.m, e := x.e + y.e }
/-- Negation. -/
def Dya.neg (x : Dya) : Dya := { m := -x.m, e := x.e }
/-- Exact difference. -/
def Dya.sub (x y : Dya) : Dya := x.add y.neg
/-- Multiplication by 2^k. -/
def Dya.scale (x : Dya) (k : Int) : Dya := { m := x.m, e := x.e + k }
/-- An integer. -/
def Dya.ofInt (i : Int) : Dya := { m := i, e := 0 }
/-- Strict order. -/
def Dya.lt (x y : Dya) : Bool := decide (x.at (min x.e y.e) < y.at (min x.e y.e))
/-- Order. -/
def Dya.le (x y : Dya) : Bool := decide (x.at (min x.e y.e) ≤ y.at (min x.e y.e))
/-- Equality of values. -/
def Dya.beq (x y : Dya) : Bool := x.le y && y.le x
/-- Floor of a dyadic. -/
def Dya.floor (x : Dya) : Int := if 0 ≤ x.e then x.m * (pow2i x.e : Nat) else x.m / (pow2i (-x.e) : Nat)
/-- The value of a dyadic; a zero takes the given sign. -/
def Dya.num (x : Dya) (zeroNeg : Bool := false) : Num :=
  if x.m = 0 then .fin zeroNeg 0 0 else .fin (decide (x.m < 0)) x.m.natAbs x.e

/-- The dyadic of a finite value (0 for the others). -/
def Num.dya : Num → Dya
  | .fin neg m e => { m := if neg then -(m : Int) else m, e := e }
  | _ => { m := 0, e := 0 }

/-- A NaN. -/
def Num.isNan : Num → Bool
  | .nan _ => true
  | _ => false
/-- A signalling NaN. -/
def Num.isSnan : Num → Bool
  | .nan s => s
  | _ => false
/-- An infinity. -/
def Num.isInf : Num → Bool
  | .inf _ => true
  | _ => false
/-- A zero of either sign. -/
def Num.isZero : Num → Bool
  | .fin _ m _ => m == 0
  | _ => false
/-- The sign bit; a NaN counts as positive. -/
def Num.sign : Num → Bool
  | .nan _ => false
  | .inf n => n
  | .fin n _ _ => n
/-- The value with its sign inverted. -/
def Num.negate : Num → Num
  | .nan s => .nan s
  | .inf n => .inf (!n)
  | .fin n m e => .fin (!n) m e
/-- The magnitude. -/
def Num.abs : Num → Num
  | .nan s => .nan s
  | .inf _ => .inf false
  | .fin _ m e => .fin false m e

/-- The exact sum before rounding (R155, R156), with the flag of an invalid operation. -/
def addX (rm : Rnd) (a b : Num) : Num × Byte :=
  match a, b with
  | .nan s, .nan t => (.nan false, flIf (s || t) flNV)
  | .nan s, _ => (.nan false, flIf s flNV)
  | _, .nan t => (.nan false, flIf t flNV)
  | .inf x, .inf y => if x = y then (.inf x, flNone) else (.nan false, flNV)
  | .inf x, _ => (.inf x, flNone)
  | _, .inf y => (.inf y, flNone)
  | .fin x m e, .fin y n g =>
    if m = 0 ∧ n = 0 then (.fin (if x = y then x else rm == .rdn) 0 0, flNone)
    else (((Num.fin x m e).dya.add (Num.fin y n g).dya).num (rm == .rdn), flNone)

/-- The exact product (R155, R156). -/
def mulX (a b : Num) : Num × Byte :=
  match a, b with
  | .nan s, .nan t => (.nan false, flIf (s || t) flNV)
  | .nan s, _ => (.nan false, flIf s flNV)
  | _, .nan t => (.nan false, flIf t flNV)
  | .inf x, y => if y.isZero then (.nan false, flNV) else (.inf (x != y.sign), flNone)
  | x, .inf y => if x.isZero then (.nan false, flNV) else (.inf (x.sign != y), flNone)
  | .fin x m e, .fin y n g => (.fin (x != y) (m * n) (e + g), flNone)

/-- The exact a × b + c (R155, R156): 0 × ∞ is invalid whatever c holds. -/
def fmaX (rm : Rnd) (a b c : Num) : Num × Byte :=
  let snan := a.isSnan || b.isSnan || c.isSnan
  let bad := (a.isZero && b.isInf) || (a.isInf && b.isZero)
  if a.isNan || b.isNan || c.isNan then (.nan false, flIf (snan || bad) flNV)
  else if bad then (.nan false, flNV)
  else addX rm (mulX a b).1 c

/-- The rounded quotient (R155, R156). -/
def divX (f : Fmt) (rm : Rnd) (a b : Num) : Num × Byte :=
  match a, b with
  | .nan s, .nan t => (.nan false, flIf (s || t) flNV)
  | .nan s, _ => (.nan false, flIf s flNV)
  | _, .nan t => (.nan false, flIf t flNV)
  | .inf x, .inf _ => let _ := x; (.nan false, flNV)
  | .inf x, y => (.inf (x != y.sign), flNone)
  | x, .inf y => (.fin (x.sign != y) 0 0, flNone)
  | .fin x m e, .fin y n g =>
    if n = 0 then (if m = 0 then (.nan false, flNV) else (.inf (x != y), flDZ))
    else if m = 0 then (.fin (x != y) 0 0, flNone)
    else
      let k := 80 + n.log2
      let num := m * 2 ^ k
      roundTo f rm false (.fin (x != y) (num / n) (e - g - k)) (num % n != 0)

/-- Integer square root, bit by bit from bit b down: r grows while its square stays below n. -/
def isqrtLoop (n : Nat) : Nat → Nat → Nat
  | 0, r => if (r + 1) * (r + 1) ≤ n then r + 1 else r
  | b + 1, r => isqrtLoop n b (if (r + 2 ^ (b + 1)) * (r + 2 ^ (b + 1)) ≤ n then r + 2 ^ (b + 1) else r)

/-- Integer square root. -/
def isqrt (n : Nat) : Nat := isqrtLoop n (n.log2 / 2) 0

/-- The rounded square root (R155, R156). -/
def sqrtX (f : Fmt) (rm : Rnd) (a : Num) : Num × Byte :=
  match a with
  | .nan s => (.nan false, flIf s flNV)
  | .inf n => if n then (.nan false, flNV) else (.inf false, flNone)
  | .fin neg m e =>
    if m = 0 then (.fin neg 0 0, flNone)
    else if neg then (.nan false, flNV)
    else
      let odd := e % 2
      let n := m * pow2i odd * 2 ^ 160
      let r := isqrt n
      roundTo f rm false (.fin false r ((e - odd) / 2 - 80)) (r * r != n)

/-- The order of two values that are no NaN; −0 equals +0. -/
def numLt (a b : Num) : Bool :=
  match a, b with
  | .inf x, .inf y => x && !y
  | .inf x, _ => x
  | _, .inf y => !y
  | x, y => x.dya.lt y.dya

/-- Equality of two values that are no NaN; −0 equals +0. -/
def numEq (a b : Num) : Bool :=
  match a, b with
  | .inf x, .inf y => x == y
  | .fin x m e, .fin y n g => (Num.fin x m e).dya.beq (Num.fin y n g).dya
  | _, _ => false

/-- Minimum or maximum of R250: −0 lies below +0, one NaN gives the other operand, a signalling NaN sets NV. -/
def minMaxX (isMax : Bool) (a b : Num) : Num × Byte :=
  let fl := flIf (a.isSnan || b.isSnan) flNV
  if a.isNan && b.isNan then (.nan false, fl)
  else if a.isNan then (b, fl)
  else if b.isNan then (a, fl)
  else
    let aLess := numLt a b || (numEq a b && a.sign && !b.sign)
    (if isMax then (if aLess then b else a) else (if aLess then a else b), fl)

/-! ## The defined algorithms (R158, R159) -/

/-- TE[j] = RN(2^(j/64)) × 2^23, first half. -/
def tabTE0 : List Nat :=
  [8388608, 8479954, 8572295, 8665641, 8760003, 8855394, 8951823, 9049301,
   9147842, 9247455, 9348154, 9449948, 9552851, 9656875, 9762032, 9868333,
   9975792, 10084422, 10194234, 10305242, 10417458, 10530897, 10645571, 10761494,
   10878679, 10997140, 11116891, 11237946, 11360319, 11484025, 11609078, 11735492]
/-- TE[j], second half. -/
def tabTE1 : List Nat :=
  [11863283, 11992466, 12123055, 12255067, 12388516, 12523418, 12659789, 12797645,
   12937002, 13077877, 13220286, 13364245, 13509772, 13656884, 13805598, 13955931,
   14107901, 14261526, 14416824, 14573813, 14732511, 14892937, 15055111, 15219050,
   15384775, 15552304, 15721658, 15892855, 16065917, 16240863, 16417715, 16596492]
/-- TE[j] = RN(2^(j/64)), j from 0 to 63. -/
def tabTE (j : Nat) : Dya := { m := ((tabTE0 ++ tabTE1)[j]?.getD 0 : Nat), e := -23 }

/-- LL[j] = RN(−log2(LR[j])) as mantissa and exponent, first half. -/
def tabLL0 : List (Nat × Int) :=
  [(0, 0), (12008627, -29), (11916944, -28), (8870345, -27), (11739063, -27), (14565902, -27),
   (8676036, -26), (10049361, -26), (11403473, -26), (12738911, -26), (14056175, -26), (15355760, -26),
   (16638133, -26), (8951871, -25), (9576509, -25), (10193189, -25), (10802114, -25), (11403473, -25),
   (11997456, -25), (12584237, -25), (13163987, -25), (13736879, -25), (14303072, -25), (14862718, -25),
   (15415966, -25), (15962965, -25), (16503850, -25), (8519380, -24), (8783912, -24), (9045584, -24),
   (9304458, -24), (9560590, -24)]
/-- LL[j], second half. -/
def tabLL1 : List (Nat × Int) :=
  [(9814042, -24), (10064868, -24), (10313120, -24), (10558852, -24), (10802115, -24), (11042957, -24),
   (11281424, -24), (11517567, -24), (11751428, -24), (11983050, -24), (12212478, -24), (12439753, -24),
   (12664910, -24), (12887995, -24), (13109041, -24), (13328086, -24), (13545167, -24), (13760320, -24),
   (13973575, -24), (14184970, -24), (14394533, -24), (14602296, -24), (14808293, -24), (15012550, -24),
   (15215098, -24), (15415968, -24), (15615183, -24), (15812770, -24), (16008758, -24), (16203170, -24),
   (16396035, -24), (16587377, -24)]
/-- LL[j], j from 0 to 63. -/
def tabLL (j : Nat) : Dya :=
  let (m, e) := (tabLL0 ++ tabLL1)[j]?.getD (0, 0)
  { m := (m : Nat), e := e }

/-- RN of a quotient of naturals: the XF34 value nearest to a ÷ b. -/
def rnQuot (a b : Nat) : Dya := (divX fmtXF34 .rne (.fin false a 0) (.fin false b 0)).1.dya
/-- RN of the square root of a quotient of naturals, from 200 bits of the quotient. -/
def rnSqrtQuot (a b : Nat) : Dya :=
  let n := a * 2 ^ 400 / b
  let r := isqrt n
  (toXf34 (.fin false r (-200)) true).1.dya

/-- LR[j] = RN(64/(64 + j)). -/
def tabLR (j : Nat) : Dya := rnQuot 64 (64 + j)
/-- RC[j] = RN(128/(129 + 2j)). -/
def tabRC (j : Nat) : Dya := rnQuot 128 (129 + 2 * j)
/-- RQ[j] = RN(sqrt(64/(65 + 2j))). -/
def tabRQ (j : Nat) : Dya := rnSqrtQuot 64 (65 + 2 * j)

/-- C1 = RN(ln 2). -/
def cC1 : Dya := { m := 11629080, e := -24 }
/-- C2 = RN((ln 2)²/2). -/
def cC2 : Dya := { m := 16121328, e := -26 }
/-- D1 = RN(1/ln 2). -/
def cD1 : Dya := { m := 12102203, e := -23 }
/-- D2 = RN(−1/(2 ln 2)). -/
def cD2 : Dya := { m := -12102203, e := -24 }
/-- D3 = RN(1/(3 ln 2)). -/
def cD3 : Dya := { m := 16136271, e := -25 }
/-- D4 = RN(−1/(4 ln 2)). -/
def cD4 : Dya := { m := -12102203, e := -25 }
/-- L2E = RN(log2 e) (R276). -/
def cL2E : Num := .fin false 12102203 (-23)
/-- G1 = RN(sqrt(2/π)) (R276). -/
def cG1 : Num := .fin false 13386282 (-24)
/-- G2 = RN(0.044715) (R276). -/
def cG2 : Num := .fin false 12003091 (-28)

/-- The rounding that ends each of the four algorithms: NX also when the case is not exact (R158). -/
def finish (f : Fmt) (rm : Rnd) (exact : Bool) (v : Dya) : Num × Byte :=
  let (y, fl) := roundTo f rm false v.num
  (y, fl ||| flIf (!exact) flNX)

/-- floor(log2 |x|) of a finite nonzero value. -/
def Num.ilog : Num → Int
  | .fin _ m e => m.log2 + e
  | _ => 0

/-- vexp2 (R159), with the rounding that ends it: whether the case is exact (R158), and v. -/
def vexp2With (fin : Bool → Dya → Num × Byte) (x : Num) : Num × Byte :=
  match x with
  | .nan s => (.nan false, flIf s flNV)
  | .inf neg => if neg then (.fin false 0 0, flNone) else (.inf false, flNone)
  | .fin neg m e =>
    let d := (Num.fin neg m e).dya
    let xc := if d.lt (Dya.ofInt (-512)) then Dya.ofInt (-512) else if (Dya.ofInt 512).lt d then Dya.ofInt 512 else d
    let k := (xc.scale 6).floor
    let fr := ((xc.scale 6).sub (Dya.ofInt k)).scale (-6)
    let i := k / 64
    let j := (k - 64 * i).toNat
    let v := ((tabTE j).mul (((Dya.ofInt 1).add (cC1.mul fr)).add ((cC2.mul fr).mul fr))).scale i
    fin (d.beq (Dya.ofInt d.floor)) v

/-- vexp2 (R158, R159). -/
def vexp2 (f : Fmt) (rm : Rnd) (x : Num) : Num × Byte := vexp2With (finish f rm) x

/-- |x| / 2^e of a finite nonzero value, with e := floor(log2 |x|). -/
def Num.mant : Num → Dya
  | .fin _ m _ => { m := (m : Nat), e := -(m.log2 : Nat) }
  | _ => { m := 1, e := 0 }

/-- vlog2 (R159). -/
def vlog2 (f : Fmt) (rm : Rnd) (x : Num) : Num × Byte :=
  match x with
  | .nan s => (.nan false, flIf s flNV)
  | .inf neg => if neg then (.nan false, flNV) else (.inf false, flNone)
  | .fin neg m e =>
    if m = 0 then (.inf true, flDZ)
    else if neg then (.nan false, flNV)
    else
      let ex := (Num.fin neg m e).ilog
      let mm := (Num.fin neg m e).mant
      let j := ((mm.sub (Dya.ofInt 1)).scale 6).floor.toNat
      let u := (mm.mul (tabLR j)).sub (Dya.ofInt 1)
      let poly := cD1.add (u.mul (cD2.add (u.mul (cD3.add (u.mul cD4)))))
      finish f rm (mm.beq (Dya.ofInt 1)) (((Dya.ofInt ex).add (tabLL j)).add (u.mul poly))

/-- vrcp (R159), with the rounding that ends it. -/
def vrcpWith (fin : Bool → Dya → Num × Byte) (x : Num) : Num × Byte :=
  match x with
  | .nan s => (.nan false, flIf s flNV)
  | .inf neg => (.fin neg 0 0, flNone)
  | .fin neg m e =>
    if m = 0 then (.inf neg, flDZ)
    else
      let ex := (Num.fin neg m e).ilog
      let mm := (Num.fin neg m e).mant
      let one := Dya.ofInt 1
      let v := if mm.beq one then one
        else
          let j := ((mm.sub one).scale 6).floor.toNat
          let g := one.sub (mm.mul (tabRC j))
          (tabRC j).mul (((one.add g).add (g.mul g)).add ((g.mul g).mul g))
      fin (mm.beq one) ((if neg then v.neg else v).scale (-ex))

/-- vrcp (R158, R159). -/
def vrcp (f : Fmt) (rm : Rnd) (x : Num) : Num × Byte := vrcpWith (finish f rm) x

/-- vrsq (R159). -/
def vrsq (f : Fmt) (rm : Rnd) (x : Num) : Num × Byte :=
  match x with
  | .nan s => (.nan false, flIf s flNV)
  | .inf neg => if neg then (.nan false, flNV) else (.fin false 0 0, flNone)
  | .fin neg m e =>
    if m = 0 then (.inf neg, flDZ)
    else if neg then (.nan false, flNV)
    else
      let e0 := (Num.fin neg m e).ilog
      let ex := e0 - e0 % 2
      let mm := (Num.fin neg m e).dya.scale (-ex)
      let one := Dya.ofInt 1
      let v := if mm.beq one then one
        else
          let j := ((mm.sub one).scale 5).floor.toNat
          let rq := tabRQ j
          let g := one.sub ((mm.mul rq).mul rq)
          let t2 := ((Dya.ofInt 3).mul (g.mul g)).scale (-3)
          let t3 := ((Dya.ofInt 5).mul ((g.mul g).mul g)).scale (-4)
          rq.mul (((one.add (g.scale (-1))).add t2).add t3)
      finish f rm (mm.beq one) (v.scale (-(ex / 2)))

/-! ## Code tables (R160 to R164) -/

/-- The entry of code c in a preset image, as an E8M10 value (R164). -/
def presetNum (image c : Nat) : Num :=
  let neg := decide (128 ≤ c)
  let k := c % 128
  match image with
  | 0 => numOfInt (sextI8 c)
  | 1 => .fin false c 0
  | 2 => if k / 8 = 0 then .fin neg (k % 8) (-9) else .fin neg (8 + k % 8) ((k / 8 : Nat) - 10 : Int)
  | 3 =>
    if k / 4 = 31 then (if k % 4 = 0 then .inf neg else .nan false)
    else if k / 4 = 0 then .fin neg (k % 4) (-16)
    else .fin neg (4 + k % 4) ((k / 4 : Nat) - 17 : Int)
  | _ =>
    if k = 0 then .fin neg 0 0
    else .fin neg ([1024, 1218, 1448, 1722][k % 4]?.getD 0) ((k / 4 : Nat) - 26 : Int)
where
  /-- A code as a signed byte. -/
  sextI8 (c : Nat) : Int := if c < 128 then c else (c : Int) - 256

/-- Entry word c of a code table as an E8M10 container (R160). -/
def CodeTable.entry (t : CodeTable) (c : Nat) : BitVec 19 :=
  match t with
  | .preset i =>
    let x := presetNum i c
    BitVec.ofNat 19 (fmtE8M10.encode x + (if x.isNan && decide (128 ≤ c) then 2 ^ 18 else 0))
  | .image es _ => (es[c]?.getD 0).setWidth 19

/-- The header word of a code table (R160, R164). -/
def CodeTable.header (t : CodeTable) : BitVec 32 :=
  match t with
  | .preset 0 => 0x00000009
  | .preset 1 => 0x0000000A
  | .preset 2 => 0x00000008
  | .preset 3 => 0x00007E04
  | .preset _ => 0x00000008
  | .image _ h => h

/-- The table's order: 0 SM, 1 TC, 2 UN. -/
def ctOrder (h : BitVec 32) : Nat := h.toNat % 4
/-- The NaN code is valid. -/
def ctNanv (h : BitVec 32) : Bool := h.getLsbD 2
/-- Saturate on encoding. -/
def ctSat (h : BitVec 32) : Bool := h.getLsbD 3
/-- The NaN code. -/
def ctNan (h : BitVec 32) : Nat := h.toNat / 256 % 256

/-- decode_code (R162). -/
def CodeTable.decode (t : CodeTable) (c : Nat) : Num :=
  if ctNanv t.header && c == ctNan t.header then .nan false else fmtE8M10.decode (t.entry c).toNat

/-- The codes in the order in which R161 reads them. -/
def codeOrder (order : Nat) : List Nat :=
  match order with
  | 0 => List.range 128
  | 1 => (List.range 128).map (· + 128) ++ List.range 128
  | _ => List.range 256

/-- The searched codes with their values, in order (R161, R163). -/
def CodeTable.searched (t : CodeTable) : List (Nat × Num) :=
  ((codeOrder (ctOrder t.header)).filter (fun c => !(ctNanv t.header && c == ctNan t.header))).filterMap (fun c =>
    let x := fmtE8M10.decode (t.entry c).toNat
    if x.isNan then none else some (c, x))

/-- Values strictly increase along a list. -/
def increasing : List (Nat × Num) → Bool
  | (_, x) :: (c, y) :: t => numLt x y && increasing ((c, y) :: t)
  | _ => true

/-- The table is ordered (R161). -/
def CodeTable.ordered (t : CodeTable) : Bool :=
  if ctOrder t.header = 3 then false
  else if ctOrder t.header = 0 then
    (List.range 128).all (fun c => decide ((t.entry c).toNat < 2 ^ 18) &&
      decide ((t.entry (c + 128)).toNat = (t.entry c).toNat + 2 ^ 18)) && increasing t.searched
  else increasing t.searched

/-- The nearest of a list of entries to a value: ties to the code with bit 0 clear, then to the smaller magnitude (R163);
between equal magnitudes of opposite sign the choice is free (log 75). -/
def nearest (x : Dya) : List (Nat × Num) → Option (Nat × Num)
  | [] => none
  | (c, y) :: t =>
    match nearest x t with
    | none => some (c, y)
    | some (c2, y2) =>
      let d1 := (y.dya.sub x).num.abs.dya
      let d2 := (y2.dya.sub x).num.abs.dya
      if d1.lt d2 then some (c, y)
      else if d2.lt d1 then some (c2, y2)
      else if c % 2 = 0 ∧ c2 % 2 = 1 then some (c, y)
      else if c % 2 = 1 ∧ c2 % 2 = 0 then some (c2, y2)
      else if y.abs.dya.lt y2.abs.dya then some (c, y)
      else if y2.abs.dya.lt y.abs.dya then some (c2, y2)
      else if Config.tieFirst c c2 then some (c, y) else some (c2, y2)

/-- encode_code (R163). -/
def CodeTable.encode (t : CodeTable) (x : Num) : Nat × Byte :=
  let h := t.header
  let sm := ctOrder h == 0
  match x with
  | .nan _ => (if ctNanv h then ctNan h else 0, flNV)
  | _ =>
    let y := if sm then x.abs else x
    let sgn := if sm && x.sign then 128 else 0
    let all := t.searched
    let fin := all.filter (fun e => !e.2.isInf)
    let saturated (neg : Bool) (extreme : Option (Nat × Num)) : Nat × Byte :=
      let infc := all.find? (fun e => e.2 == .inf neg)
      match infc, extreme with
      | some (c, _), none => (c + sgn, flOF ||| flNX)
      | none, none => (sgn, flOF ||| flNX)
      | some (c, _), some (m, _) => (if ctSat h then m + sgn else c + sgn, flOF ||| flNX)
      | none, some (m, _) => (m + sgn, flOF ||| flNX)
    match fin.reverse, fin with
    | (cm, vm) :: rest, (cl, vl) :: rest2 =>
      let vp := match rest with
        | (_, v) :: _ => v
        | [] => vm
      let vn := match rest2 with
        | (_, v) :: _ => v
        | [] => vl
      let top := vm.dya.add ((vm.dya.sub vp.dya).scale (-1))
      let bot := vl.dya.sub ((vn.dya.sub vl.dya).scale (-1))
      if (match y with
          | .inf n => !n
          | z => top.le z.dya) then saturated false (some (cm, vm))
      else if !sm && (match y with
          | .inf n => n
          | z => z.dya.le bot) then saturated true (some (cl, vl))
      else
        match nearest y.dya fin with
        | none => (sgn, flNone)
        | some (c, v) =>
          (c + sgn, flIf (!(v.dya.beq y.dya)) flNX ||| flIf (v.isZero && !y.isZero) flUF)
    | _, _ => saturated (!sm && x.sign) none

/-! ## The Press step (R166) -/

/-- One k-step of a C entry: accumulator, products of 32 pairs with the scales; the new value with NX and NV (R166). DESIGN CHOICE: where S
is 0 and only truncated parts of products are left, s is +0 and sets no NX (log 81). -/
def pressStep (acc : Num) (pairs : List (Num × Num)) (scale : Int) : Num × Byte :=
  let ps := pairs.map (fun (a, w) => (a, w, (mulX a w).1))
  let operandNan := ps.any (fun (a, w, _) => a.isNan || w.isNan)
  let prods := ps.map (fun (_, _, p) => p)
  let infs := prods.filter Num.isInf
  let mixed := infs.any Num.sign && infs.any (fun p => !p.sign)
  let (sv, fl) : Num × Byte :=
    if prods.any Num.isNan || mixed then (.nan false, flIf (!operandNan) flNV)
    else match infs with
      | p :: _ => (p, flNone)
      | [] =>
        let nz := prods.filter (fun p => !p.isZero)
        match nz with
        | [] => (.fin (prods.all Num.sign) 0 0, flNone)
        | p0 :: rest =>
          let emax := rest.foldl (fun m p => max m p.ilog) p0.ilog
          let q := emax - 47
          let trunc (p : Num) : Int × Bool :=
            let d := p.dya
            if q ≤ d.e then (d.at q, false)
            else (Int.tdiv d.m (pow2i (q - d.e) : Nat), decide (Int.tmod d.m (pow2i (q - d.e) : Nat) ≠ 0))
          let total := nz.foldl (fun s p => s + (trunc p).1) (0 : Int)
          let sticky := nz.any (fun p => (trunc p).2)
          if total = 0 then (.fin false 0 0, flNone)
          else
            let four : Dya := { m := 4 * total + (if sticky then (if total < 0 then -1 else 1) else 0), e := q + scale - 2 }
            let (y, f) := toXf34 four.num
            (y, f &&& flNX)
  let (t, fa) := addX .rne acc sv
  let (r, fr) := toXf34 t
  (r, fl ||| (fa &&& flNV) ||| (fr &&& flNX))

/-- An XF34 value. -/
def xf34Num (v : BitVec 34) : Num := fmtXF34.decode v.toNat
/-- The XF34 bits of a value. -/
def xf34Bits (x : Num) : BitVec 34 := BitVec.ofNat 34 (fmtXF34.encode x)

/-! ## Long accumulators (R168 to R171) -/

/-- fix(x): an FP32 contribution under a weight shift, as a long accumulator (R168). -/
def longFix (x : BitVec 32) (sh : Nat) : LongAcc :=
  match fmtF32.decode x.toNat with
  | .nan _ => { v := 0, nan := true, pinf := false, ninf := false }
  | .inf n => { v := 0, nan := false, pinf := !n, ninf := n }
  | .fin neg m e =>
    let k := m * pow2i (e + 160 - sh)
    { v := if neg then -(BitVec.ofNat 320 k) else BitVec.ofNat 320 k, nan := false, pinf := false, ninf := false }

/-- long_acc_add (R168). -/
def LongAcc.add (a b : LongAcc) : LongAcc :=
  { v := a.v + b.v, nan := a.nan || b.nan, pinf := a.pinf || b.pinf, ninf := a.ninf || b.ninf }

/-- The one rounding of a long accumulator to FP32 (R169). -/
def LongAcc.round (a : LongAcc) (rm : Rnd) : BitVec 32 × Byte :=
  if a.nan || (a.pinf && a.ninf) then (BitVec.ofNat 32 (fmtF32.encode (.nan false)), flIf (a.pinf && a.ninf) flNV)
  else if a.pinf then (BitVec.ofNat 32 (fmtF32.encode (.inf false)), flNone)
  else if a.ninf then (BitVec.ofNat 32 (fmtF32.encode (.inf true)), flNone)
  else
    let i := a.v.toInt
    let (y, fl) := roundTo fmtF32 rm false (if i = 0 then .fin false 0 0 else .fin (decide (i < 0)) i.natAbs (-160))
    (BitVec.ofNat 32 (fmtF32.encode y), fl)

/-- The prime of the chunk checksum (R171). -/
def checkP : Nat := 2 ^ 61 - 1

/-- The checksum of a chunk (R171); a chunk that is cut short counts its missing elements as 0. -/
def checksum (vs : List LongAcc) : Nat :=
  (vs.foldl (fun (p : Nat × Nat) a => (p.1 + 1, (p.2 + (p.1 + 1) * (a.v.toInt % (checkP : Int)).toNat) % checkP)) (0, 0)).2

/-- The header of the long-partial form of a long accumulator (R170). -/
def LongAcc.header (a : LongAcc) : BitVec 16 :=
  let m := a.v.toInt.natAbs
  let mask := (List.range 5).foldl (fun s i => s + (if m / 2 ^ (64 * i) % 2 ^ 64 = 0 then 0 else 2 ^ i)) 0
  BitVec.ofNat 16 ((if a.v.toInt < 0 then 1 else 0) + mask * 2 + (if a.nan then 64 else 0)
    + (if a.pinf then 128 else 0) + (if a.ninf then 256 else 0))

/-- The limbs of the long-partial form (R170). -/
def LongAcc.limbs (a : LongAcc) : List Word :=
  ((List.range 5).map (fun i => BitVec.ofNat 64 (a.v.toInt.natAbs / 2 ^ (64 * i)))).filter (· != 0)

/-- A long accumulator of +0. -/
def LongAcc.zero : LongAcc := { v := 0, nan := false, pinf := false, ninf := false }

/-- Its long-partial form (R170). -/
def LongAcc.form (a : LongAcc) : BitVec 16 × List Word := (a.header, a.limbs)

/-- The long accumulator that a form carries: the limbs whose mask bits are set stand in increasing order (R170). -/
def LongAcc.ofForm (f : BitVec 16 × List Word) : LongAcc :=
  let m := ((List.range 5).foldl (fun (p : Nat × List Word) i =>
    if f.1.getLsbD (1 + i) then (p.1 + (p.2.headD 0).toNat * 2 ^ (64 * i), p.2.drop 1) else p) (0, f.2)).1
  { v := if f.1.getLsbD 0 then -(BitVec.ofNat 320 m) else BitVec.ofNat 320 m, nan := f.1.getLsbD 6, pinf := f.1.getLsbD 7,
    ninf := f.1.getLsbD 8 }

end Sys2Proof.Machine
end

