-- ==== Sys2Proof/Machine/Tokens.lean ====
section
/-! DEFINITION. Tokens, channels, generators and launches at issue: SEND, SENDV, SIG, CHPOP, CHPEEK, CHPUSH, CHEND,
CHRCFG, LGEN, LGSTOP and LAUNCH (R218 to R226), with the checks of R374. -/

namespace Sys2Proof.Machine

/-! ## Sends (R218 to R220) -/

/-- The descriptor of the firing's node. -/
def State.ndOf (s : State) (f : Firing) : Rec := (s.core s.cur).nodeDesc f.ctx.vnode

/-- The static destination word of an output port's route (R25, R32). -/
def routeWord (d : Rec) (p : Nat) : Nat := (ndRoute d p).1 * 8 + (ndRoute d p).2 * 2

/-- The output port, if any, whose route a static destination equals (R220). -/
def routePort (d : Rec) (dest : Handle) : Option Nat :=
  (List.range 4).find? (fun p => ndOutEn d p && routeWord d p == dest.toNat)

/-- The destination passes the check of R374, ILLEGAL 0x07. -/
def destOk (s : State) (f : Firing) (dest : Handle) (sig : Bool) : Bool :=
  dest.getLsbD 0 || ((isSteward s.cur || (routePort (s.ndOf f) dest).isSome) && (!sig || fieldN dest 1 2 == 0))

/-- A send with a destination word, held (R218). -/
def sendBody (sig : Bool) (th : Temp) (a : Firing → Handle → Act) : Firing → State → Body := fun f s =>
  let dest : Handle := (f.w th).setWidth 32
  if destOk s f dest sig then .done (s.hold f (a f dest)) else .trap 0x05 0x07 none

/-- SEND (R219, R220). -/
def execSend (rel : Option SendScope) (tv th : Temp) (n : Slot) (k : FWord) : State → Host.Outcome State Fault Refusal :=
  issue true (sendBody false th fun f dest => .send rel dest n.toNat k.toNat 1 8 (zx (f.w tv)) f.flags)

/-- SENDV (R219, R220). -/
def execSendv (rel : Option SendScope) (tv th : Temp) (n : Slot) (k : FWord) : State → Host.Outcome State Fault Refusal :=
  issue true (sendBody false th fun f dest => .send rel dest n.toNat k.toNat 1 64 (f.t tv) f.flags)

/-- SIG with an amount in its fw field (R219, R220). -/
def execSig (rel : Option SendScope) (th : Temp) (n : Slot) (amount : BitVec 9) : State → Host.Outcome State Fault Refusal :=
  issue true (sendBody true th fun f dest => .send rel dest n.toNat amount.toNat amount.toNat 0 0 f.flags)

/-- SIG with its amount in T[tv][22:0]; its fw field is 0 (R219, R220). -/
def execSigReg (rel : Option SendScope) (tv th : Temp) (n : Slot) : State → Host.Outcome State Fault Refusal :=
  issue true (sendBody true th fun f dest => .send rel dest n.toNat 0 (fieldN (f.w tv) 0 23) 0 0 f.flags)

/-! ## Channels (R222, R223) -/

/-- The held action is a CHPOP of a port by an ended firing of a node. -/
def Held.popOf (h : Held) (vnode port : Nat) : Bool := h.ended && h.ctx.vnode == vnode && h.act == .chPop port

/-- Tokens of a port that a queued END or CONT still consumes beyond the firing's own CHPOPs: what is left of its reservation
(R38). -/
def CoreSt.endDue (c : CoreSt) (port : Nat) (h : Held) : Nat :=
  let ends := match h.act with
    | .endMark => true
    | .cont _ _ => true
    | _ => false
  if h.ended && h.ctx.reserved && ends then
    ((tabFind c.resvs (h.ctx.frame * 64 + h.ctx.slot)).elim 0 (fun r => tabGet 0 r.inToks port))
      - (c.queue.filter (fun g => g.popOf h.ctx.vnode port && g.ctx.frame == h.ctx.frame && g.ctx.slot == h.ctx.slot)).length
  else 0

/-- Consumptions of a port by firings that have ended and are not released yet (R38, R42, R222). -/
def CoreSt.popsDue (c : CoreSt) (vnode port : Nat) : Nat :=
  (c.queue.filter (fun h => h.popOf vnode port)).length
    + (c.queue.filter (fun h => h.ctx.vnode == vnode)).foldl (fun n h => n + c.endDue port h) 0

/-- CHPOPs of a port by the running firing whose consumption is still held: all of a tenant firing's, and those of a steward firing
that are not released yet (R47, R222). -/
def CoreSt.popsHeld (c : CoreSt) (f : Firing) (port : Nat) : Nat :=
  if isSteward f.ctx.core then (c.queue.filter (fun h => !h.ended && h.act == .chPop port)).length else tabGet 0 f.pops port

/-- The token at the firing's read position on an input port (R222). -/
def State.tokenAt (s : State) (f : Firing) (port : Nat) : Option Token :=
  let c := s.core s.cur
  match c.chanOf f.ctx.vnode port with
  | none => none
  | some i => (c.chan i).toks[c.popsDue f.ctx.vnode port + c.popsHeld f port]?

/-- The data of a token as a temporary: 512 bits, or a scalar's 64. -/
def Token.value (t : Token) : Vec := if t.vec then t.data else zx (t.data.setWidth 64)

/-- The info word of CHPEEK (R222). -/
def tokKindCode : TokKind → Nat
  | .data => 0 | .endm => 1 | .checkpoint => 2 | .reconfig => 3

/-- The info word of CHPEEK (R222). -/
def infoWord : Option Token → Word
  | none => 0
  | some t => BitVec.ofNat 64 (tokKindCode t.kind + t.side.toNat * 2 ^ 2 + t.colour % 2 ^ 18 * 2 ^ 10 + 2 ^ 28
      + fieldN t.data 0 32 * 2 ^ 32)

/-- The firing reads a POISON-marked DATA token (R357); a steward firing reads on. -/
def tokPoison (s : State) (t : Token) : Bool := t.kind == .data && isPoison t.side && !isSteward s.cur

/-- The body of an input operation that reads a token's data (R222, R357, R374). -/
def readBody (vec : Bool) (p : Port) (g : Firing → Token → State → State) : Firing → State → Body := fun f s =>
  let d := s.ndOf f
  if ndInEn d p.toNat = false ∨ ndInVec d p.toNat ≠ vec then .trap 0x05 0x05 none
  else match s.tokenAt f p.toNat with
    | none => .trap 0x05 0x06 none
    | some t => if tokPoison s t then .poison none else .done (g f t s)

/-- CHPOP: reads a token at issue; its consumption is held (R222). -/
def execChpop (vec : Bool) (td : Temp) (p : Port) : State → Host.Outcome State Fault Refusal :=
  issue true (readBody vec p fun f t s =>
    (s.setFiring { ((f.setT td t.value).orFlags t.side) with
      pops := tabSet f.pops p.toNat (tabGet 0 f.pops p.toNat + 1) }).hold f (.chPop p.toNat))

/-- CHPEEK: the info word of the token at the next read position, or its data with V (R222). -/
def execChpeek (vec : Bool) (td : Temp) (p : Port) : State → Host.Outcome State Fault Refusal :=
  if vec then issue false (readBody true p fun f t s => s.setFiring ((f.setT td t.value).orFlags t.side))
  else issue false fun f s =>
    if ndInEn (s.ndOf f) p.toNat then .done (s.setFiring (f.setW td (infoWord (s.tokenAt f p.toNat))))
    else .trap 0x05 0x05 none

/-- The body of an output operation: the port must be present (R374). -/
def outBody (p : Port) (ok : Rec → Firing → Bool) (a : Firing → Act) : Firing → State → Body := fun f s =>
  let d := s.ndOf f
  if ndOutEn d p.toNat && ok d f then .done (s.hold f (a f)) else .trap 0x05 0x05 none

/-- CHPUSH (R222). -/
def execChpush (vec : Bool) (ta : Temp) (p : Port) : State → Host.Outcome State Fault Refusal :=
  issue true (outBody p (fun d _ => ndOutVec d p.toNat == vec)
    fun f => .chPush p.toNat vec (if vec then f.t ta else zx (f.w ta)) f.flags)

/-- CHEND: an END marker with data 0 (R222). -/
def execChend (p : Port) : State → Host.Outcome State Fault Refusal :=
  issue true (outBody p (fun _ _ => true) fun f => .chEnd p.toNat f.flags)

/-- The depth operand of CHRCFG (R222). -/
def rcfgDepth (f : Firing) (ta : Temp) : Nat := fieldN (f.w ta) 0 14

/-- CHRCFG: a RECONFIG token with a depth of 1 to 8,192 units (R222). -/
def execChrcfg (ta : Temp) (p : Port) : State → Host.Outcome State Fault Refusal :=
  issue true (outBody p (fun _ f => decide (1 ≤ rcfgDepth f ta) && decide (rcfgDepth f ta ≤ 8192))
    fun f => .chRcfg p.toNat (rcfgDepth f ta) f.flags)

/-! ## Generators (R224, R225) -/

/-- A descriptor field that must be zero is zero. -/
def zeroF (d : Vec) (lo n : Nat) : Bool := fieldN d lo n == 0

/-- The zero fields of an LGEN descriptor (R224). -/
def lgenOk (d : Vec) : Bool := zeroF d 13 3 && zeroF d 45 19 && zeroF d 192 320

/-- LGEN: the command travels at release; T[td] := 0 (R224). -/
def execLgen (td ta : Temp) : State → Host.Outcome State Fault Refusal := issue true fun f s =>
  if lgenOk (f.t ta) then .done ((s.setFiring (f.setW td 0)).hold f (.lgen (f.t ta))) else .trap 0x05 0x0A none

/-- LGSTOP (R225). -/
def execLgstop (g : Port) : State → Host.Outcome State Fault Refusal := issue true (onlyHold fun _ _ => .lgstop g.toNat)

/-! ## Launches (R226) -/

/-- The four extents of a launch. -/
def launchExt (d : Vec) (j : Nat) : Nat := fieldN d (32 + 16 * j) 16 + 1

/-- Number of activations of a launch. -/
def launchCount (d : Vec) : Nat := launchExt d 0 * launchExt d 1 * launchExt d 2 * launchExt d 3

/-- The descriptor of LAUNCH holds no reserved or out-of-range field (R226, R374); a slot count above the words of a
class that it names is out of range. DESIGN CHOICE: an image offset at or beyond the end of local SRAM is none, and the frame's words
come from the core window behind it (log 78). -/
def launchOk (d : Vec) : Bool :=
  let cls := fieldN d 20 3
  let nslot := fieldN d 24 7
  zeroF d 23 1 && zeroF d 31 1 && zeroF d 134 26 && zeroF d 180 332 && decide (cls < 6) && decide (nslot ≤ 64)
    && (cls == 0 || decide (nslot ≤ 32 * 2 ^ (cls - 1))) && fieldN d 160 3 == 0 && decide (launchCount d ≤ 1024)

/-- The lowest FREE work table entry of a die that no LAUNCH has reserved (R226, log 7). -/
def State.freeWork (s : State) (die : Nat) : Option Nat :=
  (List.range 256).find? (fun i => (s.work die i).state == .free && !(s.work die i).reserved)

/-- The sequence that a LAUNCH gives an entry (R448). -/
def Work.nextSeq (w : Work) : Nat := if w.used then (w.seq + 1) % 64 else w.seq

/-- The entry of a launch as reserved at issue (R226): it is FREE until the release. -/
def launchWork (s : State) (w : Work) (d : Vec) : Work :=
  let g := (s.core s.cur).gwork
  { Work.zero with level := 1, tenant := s.tenantOf s.cur, pidx := g % 256, pdie := g / 2 ^ 14 % 4, seq := w.nextSeq,
                   chandle := d.extractLsb' 96 32, cslot := fieldN d 128 6, reserved := true, used := true }

/-- LAUNCH: reserves a work table entry and writes the launch id, or 64 one-bits when none is free (R226). -/
def execLaunch (td ta : Temp) : State → Host.Outcome State Fault Refusal := issue true fun f s =>
  let d := f.t ta
  if launchOk d = false then .trap 0x05 0x0A none
  else match s.freeWork (dieOf s.cur) with
    | none => .bare (s.setFiring (f.setW td (BitVec.allOnes 64)))
    | some i =>
      let w := launchWork s (s.work (dieOf s.cur) i) d
      let id := mkLaunch (dieOf s.cur) w.seq i
      let f1 := { f.setW td (BitVec.ofNat 64 id) with launches := f.launches ++ [id] }
      .done (((s.setWork (dieOf s.cur) i w).setFiring f1).hold f (.launch id d))

end Sys2Proof.Machine
end

