-- ==== Sys2Proof/Machine/Vector.lean ====
section
/-! DEFINITION. Vector instructions: VARITH, VINT, VPERM, VCVT, VDEC, VENC and CTLD at issue (R248 to R258). -/

namespace Sys2Proof.Machine

/-! ## Lanes (R248) -/

/-- Lane i of b bits. -/
def laneN (b : Nat) (v : Vec) (i : Nat) : Nat := v.toNat / 2 ^ (b * i) % 2 ^ b

/-- The number that the first n lanes make. -/
def lanesNat (b : Nat) (g : Nat → Nat) : Nat → Nat
  | 0 => 0
  | n + 1 => lanesNat b g n + g n % 2 ^ b * 2 ^ (b * n)

/-- The temporary whose lanes a function gives. -/
def ofLanes (b : Nat) (g : Nat → Nat) : Vec := BitVec.ofNat 512 (lanesNat b g (512 / b))

/-- OR of the flags of n lanes. -/
def laneFlags (g : Nat → Byte) : Nat → Byte
  | 0 => 0
  | n + 1 => laneFlags g n ||| g n

/-- The firing with a vector result whose lanes give value and flags (R248). -/
def Firing.setLanes (f : Firing) (td : Temp) (b : Nat) (g : Nat → Nat × Byte) : Firing :=
  (f.setT td (ofLanes b (fun i => (g i).1))).orFlags (laneFlags (fun i => (g i).2) (512 / b))

/-- The rounding mode in force: DYN is the node's, and RNE on a steward core (R152, R248). -/
def State.rmOf (s : State) (f : Firing) (r : Rnd) : Rnd :=
  if r = .dyn then
    (if isSteward s.cur then .rne
     else match rndOfCode (ndRmode (s.ndOf f)) with
      | .dyn => .rne
      | m => m)
  else r

/-! ## VARITH (R249, R250) -/

/-- The format of a floating type. -/
def ftFmt : FType → Fmt
  | .f32 => fmtF32 | .b16 => fmtB16 | .h16 => fmtH16

/-- An exact result rounded into a format, with the flags of both steps (R153, R155). -/
def rounded (fm : Fmt) (rm : Rnd) (x : Num × Byte) : Nat × Byte :=
  let (y, fl) := roundTo fm rm false x.1
  (fm.encode y, x.2 ||| fl)

/-- A result that is already of the format. -/
def encoded (fm : Fmt) (x : Num × Byte) : Nat × Byte := (fm.encode x.1, x.2)

/-- A lane operation on up to three sources of a floating type (R249). -/
def varith (ty : FType) (rm : Rnd) (td ta tb tc : Temp) (op : Fmt → Rnd → Num → Num → Num → Nat × Byte) :
    State → Host.Outcome State Fault Refusal :=
  issue false (onlyFiring fun f s =>
    let fm := ftFmt ty
    let b := fm.width
    let m := s.rmOf f rm
    f.setLanes td b fun i =>
      op fm m (fm.decode (laneN b (f.t ta) i)) (fm.decode (laneN b (f.t tb) i)) (fm.decode (laneN b (f.t tc) i)))

/-- VADD. -/
def execVadd (ty : FType) (rm : Rnd) (td ta tb : Temp) : State → Host.Outcome State Fault Refusal :=
  varith ty rm td ta tb 0 fun fm m a b _ => rounded fm m (addX m a b)
/-- VSUB: a + (−b), where a NaN keeps its kind. -/
def execVsub (ty : FType) (rm : Rnd) (td ta tb : Temp) : State → Host.Outcome State Fault Refusal :=
  varith ty rm td ta tb 0 fun fm m a b _ => rounded fm m (addX m a b.negate)
/-- VMUL. -/
def execVmul (ty : FType) (rm : Rnd) (td ta tb : Temp) : State → Host.Outcome State Fault Refusal :=
  varith ty rm td ta tb 0 fun fm m a b _ => rounded fm m (mulX a b)
/-- VFMA: a × b + c, rounded once. -/
def execVfma (ty : FType) (rm : Rnd) (td ta tb tc : Temp) : State → Host.Outcome State Fault Refusal :=
  varith ty rm td ta tb tc fun fm m a b c => rounded fm m (fmaX m a b c)
/-- VFMS: a × b − c, rounded once. -/
def execVfms (ty : FType) (rm : Rnd) (td ta tb tc : Temp) : State → Host.Outcome State Fault Refusal :=
  varith ty rm td ta tb tc fun fm m a b c => rounded fm m (fmaX m a b c.negate)
/-- VMIN (R250): the rounding field is ignored. -/
def execVmin (ty : FType) (rm : Rnd) (td ta tb : Temp) : State → Host.Outcome State Fault Refusal :=
  varith ty rm td ta tb 0 fun fm _ a b _ => encoded fm (minMaxX false a b)
/-- VMAX (R250). -/
def execVmax (ty : FType) (rm : Rnd) (td ta tb : Temp) : State → Host.Outcome State Fault Refusal :=
  varith ty rm td ta tb 0 fun fm _ a b _ => encoded fm (minMaxX true a b)
/-- VDIV. -/
def execVdiv (ty : FType) (rm : Rnd) (td ta tb : Temp) : State → Host.Outcome State Fault Refusal :=
  varith ty rm td ta tb 0 fun fm m a b _ => encoded fm (divX fm m a b)
/-- VSQRT. -/
def execVsqrt (ty : FType) (rm : Rnd) (td ta : Temp) : State → Host.Outcome State Fault Refusal :=
  varith ty rm td ta 0 0 fun fm m a _ _ => encoded fm (sqrtX fm m a)
/-- VRCP. -/
def execVrcp (ty : FType) (rm : Rnd) (td ta : Temp) : State → Host.Outcome State Fault Refusal :=
  varith ty rm td ta 0 0 fun fm m a _ _ => encoded fm (vrcp fm m a)
/-- VRSQ. -/
def execVrsq (ty : FType) (rm : Rnd) (td ta : Temp) : State → Host.Outcome State Fault Refusal :=
  varith ty rm td ta 0 0 fun fm m a _ _ => encoded fm (vrsq fm m a)
/-- VEXP2. -/
def execVexp2 (ty : FType) (rm : Rnd) (td ta : Temp) : State → Host.Outcome State Fault Refusal :=
  varith ty rm td ta 0 0 fun fm m a _ _ => encoded fm (vexp2 fm m a)
/-- VLOG2. -/
def execVlog2 (ty : FType) (rm : Rnd) (td ta : Temp) : State → Host.Outcome State Fault Refusal :=
  varith ty rm td ta 0 0 fun fm m a _ _ => encoded fm (vlog2 fm m a)

/-! ## VINT (R251) -/

/-- Lane width of an integer type. -/
def itBits : IType → Nat
  | .i32 => 32 | .i16 => 16 | .i8 => 8 | .ub => 8

/-- The type is signed. -/
def itSigned : IType → Bool
  | .ub => false
  | _ => true

/-- A lane as an integer of its type. -/
def itVal (ty : IType) (v : Nat) : Int := if itSigned ty then sextN (itBits ty) v else (v : Int)

/-- An integer as a lane: modulo 2^b, or clamped to the type's range with OF (R157). -/
def itLane (ty : IType) (sat : Bool) (x : Int) : Nat × Byte :=
  let b := itBits ty
  let lo : Int := if itSigned ty then -(2 ^ (b - 1) : Nat) else 0
  let hi : Int := if itSigned ty then (2 ^ (b - 1) : Nat) - 1 else (2 ^ b : Nat) - 1
  if sat then
    (if x < lo then ((lo % (2 ^ b : Nat)).toNat, flOF) else if hi < x then (hi.toNat, flOF) else ((x % (2 ^ b : Nat)).toNat, flNone))
  else ((x % (2 ^ b : Nat)).toNat, flNone)

/-- The shift amount of a lane: the low log2 b bits. -/
def itShift (ty : IType) (v : Nat) : Nat := v % itBits ty

/-- A lane operation on two integer sources. -/
def vint (ty : IType) (td ta tb : Temp) (op : Nat → Nat → Nat × Byte) : State → Host.Outcome State Fault Refusal :=
  issue false (onlyFiring fun f _ =>
    let b := itBits ty
    f.setLanes td b fun i => op (laneN b (f.t ta) i) (laneN b (f.t tb) i))

/-- VIADD. -/
def execViadd (ty : IType) (sat : Bool) (td ta tb : Temp) : State → Host.Outcome State Fault Refusal :=
  vint ty td ta tb fun a b => itLane ty sat (itVal ty a + itVal ty b)
/-- VISUB. -/
def execVisub (ty : IType) (sat : Bool) (td ta tb : Temp) : State → Host.Outcome State Fault Refusal :=
  vint ty td ta tb fun a b => itLane ty sat (itVal ty a - itVal ty b)
/-- VIMUL. -/
def execVimul (ty : IType) (sat : Bool) (td ta tb : Temp) : State → Host.Outcome State Fault Refusal :=
  vint ty td ta tb fun a b => itLane ty sat (itVal ty a * itVal ty b)
/-- VAND. -/
def execVand (ty : IType) (td ta tb : Temp) : State → Host.Outcome State Fault Refusal :=
  vint ty td ta tb fun a b => (a &&& b, flNone)
/-- VOR. -/
def execVor (ty : IType) (td ta tb : Temp) : State → Host.Outcome State Fault Refusal :=
  vint ty td ta tb fun a b => (a ||| b, flNone)
/-- VXOR. -/
def execVxor (ty : IType) (td ta tb : Temp) : State → Host.Outcome State Fault Refusal :=
  vint ty td ta tb fun a b => (a ^^^ b, flNone)
/-- VSHL. -/
def execVshl (ty : IType) (sat : Bool) (td ta tb : Temp) : State → Host.Outcome State Fault Refusal :=
  vint ty td ta tb fun a b => itLane ty sat (itVal ty a * (2 ^ itShift ty b : Nat))
/-- VSHR: zeros shifted in. -/
def execVshr (ty : IType) (td ta tb : Temp) : State → Host.Outcome State Fault Refusal :=
  vint ty td ta tb fun a b => (a / 2 ^ itShift ty b, flNone)
/-- VSRA: sign copies shifted in; for UB, as VSHR. -/
def execVsra (ty : IType) (td ta tb : Temp) : State → Host.Outcome State Fault Refusal :=
  vint ty td ta tb fun a b => itLane ty false (itVal ty a / (2 ^ itShift ty b : Nat))

/-! ## VPERM (R252 to R254) -/

/-- The floating format of a storage type, if it is one. -/
def vtFmt : VType → Option Fmt
  | .f32 => some fmtF32
  | .b16 => some fmtB16
  | .h16 => some fmtH16
  | _ => none

/-- A lane of an integer storage type as a number; a C8 lane counts as its code. -/
def vtInt (ty : VType) (v : Nat) : Int :=
  match ty with
  | .i32 => sextN 32 v
  | .i16 => sextN 16 v
  | .i8 => sextN 8 v
  | _ => (v : Int)

/-- A compare of two integers; UN is never true. -/
def cmpInt (cond : CmpCond) (a b : Int) : Bool :=
  match cond with
  | .eq => decide (a = b)
  | .ne => decide (a ≠ b)
  | .lt => decide (a < b)
  | .le => decide (a ≤ b)
  | .gt => decide (b < a)
  | .ge => decide (b ≤ a)
  | .un => false

/-- A compare of two floating values with its flag (R253). -/
def cmpNum (cond : CmpCond) (a b : Num) : Bool × Byte :=
  let un := a.isNan || b.isNan
  let quiet := flIf (a.isSnan || b.isSnan) flNV
  let loud := flIf un flNV
  match cond with
  | .eq => (!un && numEq a b, quiet)
  | .ne => (un || !numEq a b, quiet)
  | .lt => (!un && numLt a b, loud)
  | .le => (!un && (numLt a b || numEq a b), loud)
  | .gt => (!un && numLt b a, loud)
  | .ge => (!un && (numLt b a || numEq a b), loud)
  | .un => (un, quiet)

/-- A lane of VCMP: all ones or zero (R252). -/
def cmpLane (ty : VType) (cond : CmpCond) (a b : Nat) : Nat × Byte :=
  let (c, fl) := match vtFmt ty with
    | some fm => cmpNum cond (fm.decode a) (fm.decode b)
    | none => (cmpInt cond (vtInt ty a) (vtInt ty b), flNone)
  (if c then 2 ^ ty.bits - 1 else 0, fl)

/-- VCMP. -/
def execVcmp (ty : VType) (cond : CmpCond) (td ta tb : Temp) : State → Host.Outcome State Fault Refusal :=
  issue false (onlyFiring fun f _ => f.setLanes td ty.bits fun i =>
    cmpLane ty cond (laneN ty.bits (f.t ta) i) (laneN ty.bits (f.t tb) i))

/-- VSEL. -/
def execVsel (ty : VType) (td ta tb tc : Temp) : State → Host.Outcome State Fault Refusal :=
  issue false (onlyFiring fun f _ => f.setT td (ofLanes ty.bits fun i =>
    if laneN ty.bits (f.t tc) i ≠ 0 then laneN ty.bits (f.t ta) i else laneN ty.bits (f.t tb) i))

/-- VPERM. -/
def execVperm (ty : VType) (td ta tb : Temp) : State → Host.Outcome State Fault Refusal :=
  issue false (onlyFiring fun f _ => f.setT td (ofLanes ty.bits fun i =>
    laneN ty.bits (f.t ta) (laneN ty.bits (f.t tb) i % (512 / ty.bits))))

/-- VBCAST. -/
def execVbcast (ty : VType) (td ta : Temp) : State → Host.Outcome State Fault Refusal :=
  issue false (onlyFiring fun f _ => f.setT td (ofLanes ty.bits fun _ => laneN ty.bits (f.t ta) 0))

/-- The lane that VEXT and VINS name: T[tb][5:0] mod L. -/
def laneIdx (ty : VType) (v : Vec) : Nat := fieldN v 0 6 % (512 / ty.bits)

/-- VEXT. -/
def execVext (ty : VType) (td ta tb : Temp) : State → Host.Outcome State Fault Refusal :=
  issue false (onlyFiring fun f _ =>
    f.setT td (BitVec.ofNat 512 (laneN ty.bits (f.t ta) (laneIdx ty (f.t tb)))))

/-- VINS: the other lanes of T[td] keep their values. -/
def execVins (ty : VType) (td ta tb : Temp) : State → Host.Outcome State Fault Refusal :=
  issue false (onlyFiring fun f _ => f.setT td (ofLanes ty.bits fun i =>
    if i = laneIdx ty (f.t tb) then laneN ty.bits (f.t ta) 0 else laneN ty.bits (f.t td) i))

/-- One level of the tree of VRED: neighbours are combined (R254). -/
def redLevel (comb : Nat → Nat → Nat × Byte) : List Nat → List Nat × Byte
  | a :: b :: t =>
    let (r, fl) := comb a b
    let (rest, fl2) := redLevel comb t
    (r :: rest, fl ||| fl2)
  | l => (l, flNone)

/-- The tree of VRED, for a number of levels. -/
def redTree (comb : Nat → Nat → Nat × Byte) : Nat → List Nat → List Nat × Byte
  | 0, l => (l, flNone)
  | n + 1, l =>
    let (l1, fl) := redLevel comb l
    let (l2, fl2) := redTree comb n l1
    (l2, fl ||| fl2)

/-- The combination of two lanes (R254). -/
def redComb (ty : VType) (op : RedOp) (rm : Rnd) (a b : Nat) : Nat × Byte :=
  match vtFmt ty with
  | some fm =>
    match op with
    | .sum => rounded fm rm (addX rm (fm.decode a) (fm.decode b))
    | .min => encoded fm (minMaxX false (fm.decode a) (fm.decode b))
    | .max => encoded fm (minMaxX true (fm.decode a) (fm.decode b))
  | none =>
    match op with
    | .sum => ((a + b) % 2 ^ ty.bits, flNone)
    | .min => (if vtInt ty a ≤ vtInt ty b then a else b, flNone)
    | .max => (if vtInt ty a ≤ vtInt ty b then b else a, flNone)

/-- VRED. -/
def execVred (ty : VType) (op : RedOp) (td ta : Temp) : State → Host.Outcome State Fault Refusal :=
  issue false (onlyFiring fun f s =>
    let n := 512 / ty.bits
    let (l, fl) := redTree (redComb ty op (s.rmOf f .dyn)) n.log2 ((List.range n).map (laneN ty.bits (f.t ta)))
    (f.setT td (BitVec.ofNat 512 (l.headD 0))).orFlags fl)

/-! ## Conversions and code tables (R255 to R258) -/

/-- A CTLD of a table stands at the head of the commit queue and is being released (R165, R258). -/
def State.ctldBusy (s : State) (table : Nat) : Bool :=
  match (s.core s.cur).queue.head? with
  | some h => (h.ended || isSteward s.cur) && (match h.act with
    | .ctld n _ => n == table
    | _ => false)
  | none => false

/-- A code table of the current core. -/
def State.ctag (s : State) (ct : BitVec 2) : CodeTable := (s.core s.cur).ctags.get ct.toFin

/-- The value of a source lane (R256). -/
def vtValue (tab : CodeTable) (ty : VType) (v : Nat) : Num :=
  match ty with
  | .c8 => tab.decode v
  | _ =>
    match vtFmt ty with
    | some fm => fm.decode v
    | none => numOfInt (vtInt ty v)

/-- A value as a destination lane (R256); a signalling NaN sets NV (R147). -/
def vtLane (tab : CodeTable) (ty : VType) (rm : Rnd) (x : Num) : Nat × Byte :=
  match ty with
  | .c8 => tab.encode x
  | _ =>
    match vtFmt ty with
    | some fm => rounded fm rm (x, flIf x.isSnan flNV)
    | none =>
      let (y, fl) := roundInt (decide (ty ≠ .ub)) ty.bits rm x
      ((y % (2 ^ ty.bits : Nat)).toNat, fl)

/-- The lanes of VCVT: conversion i reads lane si and writes lane di (R256). -/
def vcvtLane (tab : CodeTable) (src dst : VType) (rm : Rnd) (part : Nat) (a d : Vec) (j : Nat) : Nat × Byte :=
  let n := 512 / max src.bits dst.bits
  if dst.bits < src.bits then
    (if part * n ≤ j ∧ j < part * n + n then vtLane tab dst rm (vtValue tab src (laneN src.bits a (j - part * n)))
     else (laneN dst.bits d j, flNone))
  else
    let si := if src.bits < dst.bits then part * n + j else j
    vtLane tab dst rm (vtValue tab src (laneN src.bits a si))

/-- VCVT: with a C8 type, r names the table and rounding is DYN; it waits for a CTLD of its table (R255, R256, R258). -/
def execVcvt (src dst : VType) (r part : BitVec 3) (td ta : Temp) : State → Host.Outcome State Fault Refusal :=
  issue false fun f s =>
    let c8 := decide (src = .c8 ∨ dst = .c8)
    let ct : BitVec 2 := if c8 then r.setWidth 2 else 0
    let rm := s.rmOf f (if c8 then .dyn else rndOfCode r.toNat)
    if c8 && s.ctldBusy ct.toNat then .wait
    else .done (s.setFiring (f.setLanes td dst.bits
      (vcvtLane (s.ctag ct) src dst rm part.toNat (f.t ta) (f.t td))))

/-- The container of a code's entry: the entry's bits exactly, or the canonical NaN for the NaN code (R162, R257). -/
def codeContainer (tab : CodeTable) (c : Nat) : Nat :=
  if ctNanv tab.header && c == ctNan tab.header then 0x3FE00 else (tab.entry c).toNat

/-- VDEC (R257). -/
def execVdec (ct : Port) (part : BitVec 3) (td ta : Temp) : State → Host.Outcome State Fault Refusal := issue false fun f s =>
  if s.ctldBusy ct.toNat then .wait
  else .done (s.setFiring (f.setT td (ofLanes 32 fun i =>
    codeContainer (s.ctag ct) (laneN 8 (f.t ta) (16 * part.toNat + i)))))

/-- VENC: the bytes of other parts keep their values (R257). -/
def execVenc (ct : Port) (part : BitVec 3) (td ta : Temp) : State → Host.Outcome State Fault Refusal := issue false fun f s =>
  if s.ctldBusy ct.toNat then .wait
  else .done (s.setFiring (f.setLanes td 8 fun j =>
    if 16 * part.toNat ≤ j ∧ j < 16 * part.toNat + 16 then
      (s.ctag ct).encode (fmtE8M10.decode (laneN 32 (f.t ta) (j - 16 * part.toNat) % 2 ^ 19))
    else (laneN 8 (f.t td) j, flNone)))

/-- The operand of CTLD is legal: zero bits, a preset image 0 to 4, or an image inside local SRAM (R258, R374). -/
def ctldOk (v : Word) : Bool :=
  fieldN v 22 42 == 0 &&
    (if bitN v 0 then decide (8 * fieldN v 4 18 + 1028 ≤ sramSize) else decide (fieldN v 1 3 ≤ 4))

/-- CTLD is held; the table changes at its release (R258). -/
def execCtld (ct : Port) (ta : Temp) : State → Host.Outcome State Fault Refusal := issue true fun f s =>
  if ctldOk (f.w ta) then .done (s.hold f (.ctld ct.toNat (f.w ta))) else .trap 0x05 0x0A none

end Sys2Proof.Machine
end

