-- ==== Sys2Proof/Machine/Engines.lean ====
section
/-! DEFINITION. Tiles, engine jobs and ingest submission at issue: TDEF, TSTAT, TREL, the Press opcodes, the copy opcodes,
JSTAT, JCAN, INGS and INGQ (R259 to R292, R377), with the job queues, their ids and eligibility (R70 to R76, R100). -/

namespace Sys2Proof.Machine

/-! ## Tiles (R97 to R99, R262) -/

/-- State code of a tile (R98). -/
def tileStateCode : TileState → Nat
  | .empty => 0 | .filling => 1 | .ready => 2 | .draining => 3

/-- The 128-bit tile entry (R98). -/
def Tile.entry (t : Tile) : Vec :=
  BitVec.ofNat 512 (t.buf % 4 + tileStateCode t.state * 2 ^ 2 + t.esize % 4 * 2 ^ 4 + t.base % 4096 * 2 ^ 8
    + t.rows % 4096 * 2 ^ 20 + t.cols % 4096 * 2 ^ 32 + t.expect % 2 ^ 24 * 2 ^ 64 + t.arrived % 2 ^ 24 * 2 ^ 88
    + t.nref % 256 * 2 ^ 112)

/-- Bytes of an element size code. -/
def esizeBytes (e : Nat) : Nat := 2 ^ e

/-- Row pitch in bytes of a W or A tile (R99). -/
def pitchOf (cols esize : Nat) : Nat := ((cols + 1) * esizeBytes esize + 63) / 64 * 64
/-- Row pitch in bytes of a tile. -/
def Tile.pitch (t : Tile) : Nat := pitchOf t.cols t.esize

/-- The geometry of a tile operand is legal (R98, R99, R262, R374). -/
def tdefOk (g : Vec) : Bool :=
  let buf := fieldN g 0 2
  let es := fieldN g 4 2
  let base := fieldN g 8 12
  let rows := fieldN g 20 12
  let cols := fieldN g 32 12
  zeroF g 2 2 && zeroF g 6 2 && zeroF g 44 20 && zeroF g 88 40 && buf != 3
    && (if buf = 2 then decide (cols ≤ 15) && zeroF g 64 24 && decide (base + rows + 1 ≤ 4096)
        else es != 3 && decide (base * 64 + (rows + 1) * pitchOf cols es ≤ 131072))

/-- TDEF (R262). -/
def execTdef (tile : Slot) (ta : Temp) : State → Host.Outcome State Fault Refusal := issue true fun f s =>
  if tdefOk (f.t ta) then .done (s.hold f (.tdef tile.toNat (f.t ta))) else .trap 0x05 0x0A none

/-- TSTAT: the tile entry as it stands (R262). -/
def execTstat (td : Temp) (tile : Slot) : State → Host.Outcome State Fault Refusal :=
  issue false (onlyFiring fun f s => f.setT td ((s.core s.cur).tile tile.toNat).entry)

/-- TREL (R262). -/
def execTrel (tile : Slot) : State → Host.Outcome State Fault Refusal := issue true (onlyHold fun _ _ => .trel tile.toNat)

/-! ## Commands of the Press (R263, R271, R275) -/

/-- A format context from its descriptor; DYN becomes the node's mode (R152, R263). -/
def fmtOf (d : Vec) (rmode : Rnd) : FmtCtx :=
  { afmt := fieldN d 0 3, atab := fieldN d 3 2, wfmt := fieldN d 5 3, wtab := fieldN d 8 2, ofmt := fieldN d 10 3,
    otab := fieldN d 13 2, sat := bitN d 15, sa := sextN 7 (fieldN d 16 7), sw := sextN 7 (fieldN d 23 7),
    rm := match rndOfCode (fieldN d 30 3) with
      | .dyn => rmode
      | m => m }

/-- A descriptor of MXFMT holds no reserved code (R263, R264): F32 is an output format only. -/
def mxfmtOk (d : Vec) : Bool :=
  zeroF d 33 479 && decide (fieldN d 0 3 < 4) && decide (fieldN d 5 3 < 4) && decide (fieldN d 10 3 < 5)
    && fieldN d 30 3 != 5 && fieldN d 30 3 != 6

/-- A command of the Press: its descriptor is checked and held; T[td] := 0 (R259). -/
def pressCommand (td ta : Temp) (ok : Vec → Bool) (a : Vec → Act) : State → Host.Outcome State Fault Refusal :=
  issue true fun f s =>
    if ok (f.t ta) then .done ((s.setFiring (f.setW td 0)).hold f (a (f.t ta))) else .trap 0x05 0x0A none

/-- MXFMT. -/
def execMxfmt (td ta : Temp) : State → Host.Outcome State Fault Refusal := pressCommand td ta mxfmtOk .mxfmt

/-- Word of stage j of an MXEPI descriptor. -/
def stageWord (d : Vec) (j : Nat) : Word := BitVec.ofNat 64 (fieldN d (64 + 56 * j) 56)

/-- Bits of a stage word above its parameters are zero, and its codes are assigned (R275, R276). -/
def stageOk (w : Word) : Bool :=
  let g (lo : Nat) : Bool := decide (fieldN w lo 3 < 6)
  match fieldN w 0 3 with
  | 0 => fieldN w 35 29 == 0
  | 1 => fieldN w 19 45 == 0
  | 2 => g 3 && fieldN w 6 58 == 0
  | 3 => g 3 && g 6 && g 9 && g 12 && fieldN w 36 28 == 0
  | 4 => true
  | 5 => fieldN w 51 13 == 0
  | _ => false

/-- A stage that MXRD applies is followed by a SOFTMAX somewhere before it: SOFTMAX must be the last applied stage. -/
def softmaxLast : List Word → Bool
  | [] => true
  | w :: t => (fieldN w 0 3 != 4 || t.all (fun v => fieldN v 0 3 == 5)) && softmaxLast t

/-- The stages of an MXEPI descriptor. -/
def mxepiStages (d : Vec) : List Word := (List.range (fieldN d 6 4)).map (stageWord d)

/-- The descriptor of MXEPI is legal (R275): at most 8 stages, at most one SOFTMAX, last, and one RECUR. -/
def mxepiOk (d : Vec) : Bool :=
  let n := fieldN d 6 4
  let st := mxepiStages d
  zeroF d 22 42 && decide (n ≤ 8) && (List.range 8).all (fun j => decide (j < n) || stageWord d j == 0)
    && st.all stageOk && softmaxLast st && decide ((st.filter (fun w => fieldN w 0 3 == 4)).length ≤ 1)
    && decide ((st.filter (fun w => fieldN w 0 3 == 5)).length ≤ 1)

/-- MXEPI. -/
def execMxepi (td ta : Temp) : State → Host.Outcome State Fault Refusal := pressCommand td ta mxepiOk .mxepi

/-- MXCLR. -/
def execMxclr (td ta : Temp) : State → Host.Outcome State Fault Refusal :=
  pressCommand td ta (fun d => zeroF d 24 488) .mxclr

/-! ## Job queues (R70 to R72, R435) -/

/-- A job of a queue by its id. -/
def State.jobIn (s : State) (q : JobQueue) (id : Nat) : Option Job := (s.jobsOf q).find? (fun j => j.id == id)

/-- A job changed in its queue. -/
def State.modJob (s : State) (q : JobQueue) (id : Nat) (f : Job → Job) : State :=
  s.modJobs q (fun l => l.map (fun j => if j.id == id then f j else j))

/-- The queue of the issuing core that a job id names: bit [15] is 0 for the Press (R71). -/
def queueOfId (core id : Nat) : JobQueue :=
  if isSteward core ∨ 0x8000 ≤ id then copyQueueOf core else .press (clusterOf core)

/-- The job that an id names in the issuing cluster, or in the steward's own queue. -/
def State.jobNamed (s : State) (core id : Nat) : Option Job :=
  if isSteward core ∧ id < 0x8000 then none else s.jobIn (queueOfId core id) id

/-- Jobs of a core in a queue (R70). -/
def State.quotaUsed (s : State) (q : JobQueue) (core : Nat) : Nat :=
  ((s.jobsOf q).filter (fun j => j.ctx.core == core)).length

/-- Sequences of a core's live jobs in either queue (R71). -/
def State.liveSeqs (s : State) (core : Nat) : List Nat :=
  ((if isSteward core then [] else s.jobsOf (.press (clusterOf core))) ++ s.jobsOf (copyQueueOf core)).filterMap
    (fun j => if j.ctx.core = core then some (j.id % 4096) else none)

/-- The next job sequence: the counter's value, passing over those of live jobs (R71). -/
def nextJobSeq (live : List Nat) : Nat → Nat → Nat
  | 0, q => q
  | n + 1, q => if live.contains q then nextJobSeq live n ((q + 1) % 4095) else q

/-- A job id (R71, R435). -/
def mkJobId (copy : Bool) (core seq : Nat) : Nat :=
  b2n copy * 2 ^ 15 + (if isSteward core then 0 else coreInCluster core * 2 ^ 12) + seq

/-- A RESERVED job (R72). -/
def newJob (id : Nat) (op : JobOp) (x : Ctx) (pc : Nat) (d : Vec) (fmt : FmtCtx) (cycle : Nat) : Job :=
  { id := id, op := op, ctx := x, pc := pc, desc := d, state := .reserved, prio := x.prio, since := cycle, refs := [], fmt := fmt, order := 0,
    line := 0, bytes := 0, aux := 0, buf := [], sbuf := [], bufAt := 0, ready := false, parked := false, hostIn := [],
    hostOut := [], fault := none, cancelled := false, srcDone := false, recDone := false, row := none, toks := [], late := [], reported := false, progress := cycle }

/-- The refusal word of R377. -/
def refusalWord (code : Nat) : Word := BitVec.ofNat 64 (0xFFFF + code * 2 ^ 16)

/-- A job opcode at issue: quota, then the lowest check that fails, then the reservation (R70, R71, R377). -/
def jobBody (td ta : Temp) (op : JobOp) (copy : Bool) (check : Firing → State → Vec → Option Nat) : Firing → State → Body :=
  fun f s =>
    let d := f.t ta
    let q := if copy then copyQueueOf s.cur else .press (clusterOf s.cur)
    if 8 ≤ s.quotaUsed q s.cur then .bare (s.setFiring (f.setW td (refusalWord 0)))
    else match check f s d with
      | some code => .bare (s.setFiring (f.setW td (refusalWord code)))
      | none =>
        let c := s.core s.cur
        let seq := nextJobSeq (s.liveSeqs s.cur) 17 c.jobSeq
        let id := mkJobId copy s.cur seq
        let j := newJob id op f.ctx f.pc d c.press.fmt s.cycle
        let s1 := (s.modCore s.cur (fun c => { c with jobSeq := (seq + 1) % 4095 })).modJobs q (fun l => l ++ [j])
        .done ((s1.setFiring { f.setW td (BitVec.ofNat 64 id) with jobs := f.jobs ++ [id] }).hold f (.job id))

/-- The first check that fails. -/
def firstFail (l : List (Bool × Nat)) : Option Nat := (l.find? (fun e => e.1)).map (fun e => e.2)

/-! ## Checks of Press jobs (R264, R265, R273, R377) -/

/-- Bytes per element of a Press format (R264). -/
def fmtBytes : Nat → Nat
  | 0 => 4 | 1 => 2 | 2 => 2 | 3 => 1 | _ => 4

/-- The format context that a job issued now meets at its release: of the last MXFMT held, or the one in force (R377). -/
def State.fmtAhead (s : State) (f : Firing) : FmtCtx :=
  (s.core s.cur).queue.foldl (fun c h => match h.act with
    | .mxfmt d => fmtOf d (s.rmOf f .dyn)
    | _ => c) (s.core s.cur).press.fmt

/-- The tile is a W (0) or A (1) tile with elements of n bytes. -/
def Tile.holds (t : Tile) (buf n : Nat) : Bool := t.buf == buf && t.esize != 3 && esizeBytes t.esize == n

/-- The core's Press slice is retired or fused off, or the core has none (R9, R364, R377 code 0x06; log 27). -/
def State.pressGone (s : State) (core : Nat) : Bool :=
  isSteward core || s.fusedOff (clusterOf core) || bitN (s.cluster (clusterOf core)).health (8 + coreInCluster core)

/-- Checks of MXLDW. -/
def mxldwCheck (f : Firing) (s : State) (d : Vec) : Option Nat :=
  let t := (s.core s.cur).tile (fieldN d 72 6)
  firstFail [(!(zeroF d 70 2 && zeroF d 98 414), 1), (!t.holds 0 (fmtBytes (s.fmtAhead f).wfmt), 3), (s.pressGone s.cur, 6)]

/-- Checks of the k-step jobs: MXSTRM and MXGANG. -/
def kstepCheck (gang : Bool) (f : Firing) (s : State) (d : Vec) : Option Nat :=
  let c := s.core s.cur
  let a := c.tile (fieldN d 72 6)
  let t := c.tile (fieldN d 110 6)
  let rows := fieldN d 98 12 + 1
  let leads := !gang || fieldN d 154 7 == 0
  firstFail
    [(!(zeroF d 70 2 && zeroF d 162 350 && (gang || zeroF d 145 16)), 1),
     ((leads && !a.holds 1 (fmtBytes (s.fmtAhead f).afmt)) || t.buf != 2, 3),
     ((leads && decide (a.rows + 1 < fieldN d 78 12 + rows)) || decide (t.rows + 1 < fieldN d 116 12 + rows), 4),
     (s.pressGone s.cur, 6)]

/-- Checks of MXSCAN (R265, R278). -/
def mxscanCheck (f : Firing) (s : State) (d : Vec) : Option Nat :=
  let c := s.core s.cur
  let a := c.tile (fieldN d 72 6)
  let t := c.tile (fieldN d 110 6)
  let m := fieldN d 98 12 + 1
  firstFail
    [(!(zeroF d 70 2 && zeroF d 144 1 && zeroF d 161 351), 1),
     (!a.holds 1 (fmtBytes (s.fmtAhead f).afmt) || t.buf != 2, 3),
     (decide (2048 < m) || decide (a.rows + 1 < fieldN d 78 12 + m) || decide (t.rows + 1 < fieldN d 116 12 + 2 * m), 4),
     (bitN d 116, 5), (s.pressGone s.cur, 6)]

/-- Columns that an MXRD writes into its destination tile: the tag's, or a SOFTMAX gang's whole row (R277). -/
def mxrdCols (d : Vec) (tag : Tile) : Nat :=
  if fieldN d 118 2 = 1 then 16 * fieldN d 191 7 + tag.cols + 1 else tag.cols + 1

/-- The tag record of a C tile. -/
def Press.tag (p : Press) (n : Nat) : TagRec := tabGet TagRec.zero p.tags n

/-- C tiles that the GATE stages of a tag read (R273, R275). -/
def gateTiles (st : List Word) : List Nat :=
  st.flatMap (fun w => if fieldN w 0 3 = 3 then
    (List.range 3).filterMap (fun j => if bitN w (33 + j) then some (fieldN w (15 + 6 * j) 6) else none) else [])

/-- Checks of MXRD (R273, R274, R277). -/
def mxrdCheck (f : Firing) (s : State) (d : Vec) : Option Nat :=
  let c := s.core s.cur
  let t := c.tile (fieldN d 72 6)
  let dt := c.tile (fieldN d 122 6)
  let lk := c.tile (fieldN d 158 6)
  let mode := fieldN d 118 2
  let dkind := fieldN d 120 2
  let rows := fieldN d 90 12 + 1
  let e := if mode = 1 then 4 else fmtBytes (s.fmtAhead f).ofmt
  let p := fieldN d 156 2
  let gates := if mode = 2 then [] else (gateTiles (c.press.tag (fieldN d 72 6)).stages).map c.tile
  firstFail
    [(!(zeroF d 70 2 && zeroF d 205 307), 1),
     (dkind == 3 || (mode == 1 && dkind != 0), 2),
     (t.buf != 2 || ((mode == 1 || mode == 3) && lk.buf != 2) || gates.any (fun g => g.buf != 2) || (dkind == 0 && !dt.holds 1 e), 3),
     (decide (t.rows + 1 < fieldN d 78 12 + rows) || gates.any (fun g => decide (g.rows + 1 < fieldN d 78 12 + rows) || decide (g.cols < t.cols))
        || (mode == 1 && decide (lk.rows + 1 < fieldN d 78 12 + rows))
        || (dkind == 0 && (decide (dt.rows + 1 < fieldN d 128 12 + rows) || decide (dt.cols + 1 < mxrdCols d t)))
        || (dkind == 1 && decide (sramSize < 8 * fieldN d 140 16 + rows * 16 * e)), 4),
     (s.pressGone s.cur, 6),
     (dkind == 2 && !(ndOutEn (s.ndOf f) p && ndOutVec (s.ndOf f) p), 8)]

/-- MXLDW. -/
def execMxldw (td ta : Temp) : State → Host.Outcome State Fault Refusal := issue true (jobBody td ta .mxldw false mxldwCheck)
/-- MXSTRM. -/
def execMxstrm (td ta : Temp) : State → Host.Outcome State Fault Refusal :=
  issue true (jobBody td ta .mxstrm false (kstepCheck false))
/-- MXGANG. -/
def execMxgang (td ta : Temp) : State → Host.Outcome State Fault Refusal :=
  issue true (jobBody td ta .mxgang false (kstepCheck true))
/-- MXRD. -/
def execMxrd (td ta : Temp) : State → Host.Outcome State Fault Refusal := issue true (jobBody td ta .mxrd false mxrdCheck)
/-- MXSCAN. -/
def execMxscan (td ta : Temp) : State → Host.Outcome State Fault Refusal := issue true (jobBody td ta .mxscan false mxscanCheck)

/-! ## Checks of copy jobs (R279, R281, R377) -/

/-- A 48-bit virtual address field, sign-extended. -/
def va48 (d : Vec) (lo : Nat) : Word := (BitVec.ofNat 48 (fieldN d lo 48)).signExtend 64

/-- Bytes per row and rows of a copy. -/
def cpyRowb (d : Vec) : Nat := fieldN d 212 16 + 1
/-- Rows of a copy. -/
def cpyRows (d : Vec) : Nat := fieldN d 228 16 + 1
/-- Source stride. -/
def cpySstride (d : Vec) : Int := sextN 24 (fieldN d 244 24)
/-- Destination stride. -/
def cpyDstride (d : Vec) : Int := sextN 24 (fieldN d 268 24)
/-- The destination is a tile. -/
def cpyTiled (d : Vec) : Bool := bitN d 113

/-- Receivers of a CPYM, of a TURNDEF's landing, or the core of a tile destination (R281, R316). -/
def maskReceivers (core : Nat) (form : Bool) (cmask xmask xcore : Nat) : List Nat :=
  let k := clusterOf core
  if form then
    ((List.range 12).filter (fun x => xmask / 2 ^ x % 2 == 1)).map (fun x => coreAt (k / 12 * 12 + x) xcore)
  else ((List.range 8).filter (fun q => cmask / 2 ^ q % 2 == 1)).map (fun q => coreAt k q)

/-- The tiles that a copy fills: of each receiver, as core and tile (R100, R279, R281). -/
def copyFills (op : JobOp) (core : Nat) (d : Vec) : List (Nat × Nat) :=
  if cpyTiled d then
    (match op with
     | .cpym => (maskReceivers core (bitN d 426) (fieldN d 406 8) (fieldN d 414 12) (fieldN d 437 3)).map
         (fun r => (r, fieldN d 164 6))
     | _ => [(coreAt (clusterOf core) (fieldN d 170 3), fieldN d 164 6)])
  else []

/-- First byte of row r of a copy within a tile's extent, or from the start of a memory destination. -/
def rowOfs (d : Vec) (r : Nat) : Int := (r : Int) * cpyDstride d

/-- Bytes of a W or A tile. -/
def Tile.extent (t : Tile) : Nat := (t.rows + 1) * t.pitch

/-- The rows of a copy lie within a range of n bytes from an offset: the first and last row do, since rows move by a stride. -/
def rowsWithin (d : Vec) (ofs : Int) (n : Nat) : Bool :=
  let last := rowOfs d (cpyRows d - 1)
  let lo := ofs + min 0 last
  let hi := ofs + max 0 last + (cpyRowb d : Int)
  decide (0 ≤ lo) && decide (hi ≤ (n : Int))

/-- The copy unit that serves a core is retired or fused off (R9, R364). -/
def State.copyGone (s : State) (core : Nat) : Bool := s.fusedOff (clusterOf core) || bitN (s.cluster (clusterOf core)).health 16

/-- The destination rows of a copy stay inside the fill target, or inside local SRAM for a CPYM to memory; of a PACK, whose bytes are
not known at issue, its end record at least, and a CRC writes none (R279, R281, R282; log 83). -/
def copyInside (op : JobOp) (s : State) (d : Vec) : Bool :=
  if cpyTiled d then
    (op == .cpyx && fieldN d 292 3 == 2) || (copyFills op s.cur d).all (fun e =>
      let n := ((s.core e.1).tile e.2).extent
      if op == .cpyx && fieldN d 292 3 == 0 then decide (fieldN d 173 24 + 8 ≤ n) else rowsWithin d (fieldN d 173 24 : Nat) n)
  else if op = .cpym then
    let va := va48 d 164
    inSelf va && rowsWithin d (selfOfs va : Nat) sramSize
  else true

/-- Checks of the copy jobs. -/
def copyCheck (op : JobOp) (_ : Firing) (s : State) (d : Vec) : Option Nat :=
  let x := fieldN d 292 3
  let sc := fieldN d 110 3
  firstFail
    [(!(zeroF d 70 2 && zeroF d 114 2 && zeroF d 440 72 && (op == .cpyx || zeroF d 292 3)
        && (op != .cpym || zeroF d 72 32) && (!cpyTiled d || zeroF d 197 15)), 1),
     (sc == 0 || decide (5 ≤ sc) || (op == .cpyx && (decide (3 ≤ x) || fieldN d 295 2 == 3)), 2),
     ((copyFills op s.cur d).any (fun e => decide (2 ≤ ((s.core e.1).tile e.2).buf)), 3),
     (!copyInside op s d, 4), (s.copyGone s.cur, 6), (decide (4194304 < cpyRowb d * cpyRows d), 7)]

/-- CPY. -/
def execCpy (td ta : Temp) : State → Host.Outcome State Fault Refusal := issue true (jobBody td ta .cpy true (copyCheck .cpy))
/-- CPYM. -/
def execCpym (td ta : Temp) : State → Host.Outcome State Fault Refusal :=
  issue true (jobBody td ta .cpym true (copyCheck .cpym))
/-- CPYX. -/
def execCpyx (td ta : Temp) : State → Host.Outcome State Fault Refusal :=
  issue true (jobBody td ta .cpyx true (copyCheck .cpyx))
/-- GATH. -/
def execGath (td ta : Temp) : State → Host.Outcome State Fault Refusal :=
  issue true (jobBody td ta .gath true (copyCheck .gath))

/-! ## Rings, as TURNGO reads them (R316 to R318) -/

/-- A ring entry of a core's cluster. -/
def State.ring (s : State) (cluster n : Nat) : Option Ring := tabFind (s.cluster cluster).rings n
/-- Slots R of a ring entry. -/
def Ring.count (r : Ring) : Nat := fieldN r.desc 14 2 + 1

/-- Checks of TURNGO (R318, R377). -/
def turngoCheck (_ : Firing) (s : State) (d : Vec) : Option Nat :=
  let n := ((s.ring (clusterOf s.cur) (fieldN d 32 2)).map Ring.count).getD 0
  firstFail
    [(!(zeroF d 37 3 && zeroF d 174 2 && zeroF d 205 307), 1),
     (bitN d 34 && decide (n ≤ fieldN d 35 2), 4), (s.copyGone s.cur, 6)]

/-- TURNGO. -/
def execTurngo (td ta : Temp) : State → Host.Outcome State Fault Refusal :=
  issue true (jobBody td ta .turngo true turngoCheck)

/-! ## Tag records and eligibility (R73, R75, R100, R269, R270, R278) -/

/-- The job is a Press job that carries a sequence (R73, R273). -/
def Job.sequenced (j : Job) : Bool :=
  match j.op with
  | .mxstrm => true
  | .mxgang => true
  | .mxscan => true
  | .mxrd => fieldN j.desc 118 2 != 2
  | _ => false

/-- The tag and the sequence of a Press job (R265, R273). -/
def Job.tagSeq (j : Job) : Nat × Nat :=
  match j.op with
  | .mxrd => (fieldN j.desc 72 6, fieldN j.desc 102 16)
  | _ => (fieldN j.desc 110 6, fieldN j.desc 128 16)

/-- The job is a SOFTMAX drain. -/
def Job.isSoftmax (j : Job) : Bool := j.op == .mxrd && fieldN j.desc 118 2 == 1

/-- Tiles that a job names, as core and tile (R100, R269, R273). -/
def State.jobNames (s : State) (j : Job) : List (Nat × Nat) :=
  let c := j.ctx.core
  match j.op with
  | .mxldw => [(c, fieldN j.desc 72 6)]
  | .mxstrm => [(c, fieldN j.desc 72 6), (c, fieldN j.desc 110 6)]
  | .mxscan => [(c, fieldN j.desc 72 6), (c, fieldN j.desc 110 6)]
  | .mxgang => (if fieldN j.desc 154 7 = 0 then [(c, fieldN j.desc 72 6)] else []) ++ [(c, fieldN j.desc 110 6)]
  | .mxrd =>
    let mode := fieldN j.desc 118 2
    (c, fieldN j.desc 72 6) :: ((if mode = 1 ∨ mode = 3 then [(c, fieldN j.desc 158 6)] else [])
      ++ (if mode = 2 then [] else (gateTiles ((s.core c).press.tag (fieldN j.desc 72 6)).stages).map (fun t => (c, t))))
  | _ => []

/-- Tiles that a job fills (R100); those of a TURNGO are known at its issue, by its grant (R317). -/
def Job.fills (j : Job) : List (Nat × Nat) :=
  match j.op with
  | .mxrd => if fieldN j.desc 120 2 = 0 then [(j.ctx.core, fieldN j.desc 122 6)] else []
  | .cpy => copyFills .cpy j.ctx.core j.desc
  | .cpym => copyFills .cpym j.ctx.core j.desc
  | .cpyx => copyFills .cpyx j.ctx.core j.desc
  | .gath => copyFills .gath j.ctx.core j.desc
  | _ => []

/-- Condition 1 of R73: no predecessor is live. -/
def State.predsDone (s : State) (j : Job) : Bool :=
  [fieldN j.desc 0 16, fieldN j.desc 16 16].all (fun p => p == 0xFFFF || (s.jobNamed j.ctx.core p).isNone)

/-- Condition 2 of R73 with R100: named tiles are READY, fill targets neither READY nor DRAINING. -/
def State.tilesReady (s : State) (j : Job) : Bool :=
  (s.jobNames j).all (fun e => ((s.core e.1).tile e.2).state == .ready)
    && j.fills.all (fun e => ((s.core e.1).tile e.2).state == .empty || ((s.core e.1).tile e.2).state == .filling)

/-- Condition 3 of R73, with the link's sequence in SOFTMAX mode (R273). -/
def State.seqReady (s : State) (j : Job) : Bool :=
  let p := (s.core j.ctx.core).press
  !j.sequenced || ((p.tag j.tagSeq.1).expect == j.tagSeq.2
    && (!j.isSoftmax || (p.tag (fieldN j.desc 158 6)).expect == fieldN j.desc 164 16))

/-- What an MXSCAN needs of its tag besides (R278). -/
def State.scanReady (s : State) (j : Job) : Bool :=
  j.op != .mxscan ||
    (let t := (s.core j.ctx.core).press.tag j.tagSeq.1
     t.present && t.stages.any (fun w => fieldN w 0 3 == 5))

/-- What a TURNGO needs of its ring: a grant to send, and for a RELEASE a LANDED slot (R317, R318); a block with
h = n − 1 is not forwarded. -/
def State.ringReady (s : State) (j : Job) : Bool :=
  j.op != .turngo ||
    (match s.ring (clusterOf j.ctx.core) (fieldN j.desc 32 2) with
     | none => false
     | some r =>
       let q := fieldN j.desc 35 2
       let lastHop := (tabGet (0, 0) r.blocks q).2 == fieldN r.desc 2 6
       !r.failed && (if bitN j.desc 34 then tabFind r.slots q == some .landed && (lastHop || !r.grants.isEmpty)
         else !r.grants.isEmpty))

/-- The unit that would run the job is in service: a retired one issues nothing (R9, R364). -/
def State.unitServes (s : State) (j : Job) : Bool :=
  match j.op with
  | .mxldw => !s.pressGone j.ctx.core
  | .mxstrm => !s.pressGone j.ctx.core
  | .mxgang => !s.pressGone j.ctx.core
  | .mxrd => !s.pressGone j.ctx.core
  | .mxscan => !s.pressGone j.ctx.core
  | _ => !s.copyGone j.ctx.core

/-- Conditions 1 to 3 of R73 and those of the job's own kind. -/
def State.ownReady (s : State) (j : Job) : Bool :=
  j.state == .queued && s.unitServes j && s.predsDone j && s.tilesReady j && s.seqReady j && s.scanReady j && s.ringReady j

/-- The gang of a job: die row, gang id and whether it is a drain; none for a job of no gang (R269, R273). -/
def Job.gang (j : Job) : Option (Nat × Nat × Bool) :=
  let row := clusterOf j.ctx.core / 12
  match j.op with
  | .mxgang => some (row, fieldN j.desc 145 2, false)
  | .mxrd => if j.isSoftmax ∧ fieldN j.desc 191 7 ≠ 0 then some (row, fieldN j.desc 189 2, true) else none
  | _ => none

/-- Gang size field and member index of a gang job. -/
def Job.gangN (j : Job) : Nat := if j.op = .mxrd then fieldN j.desc 191 7 else fieldN j.desc 147 6 + fieldN j.desc 153 1 * 64
/-- Member index of a gang job. -/
def Job.gangIdx (j : Job) : Nat := if j.op = .mxrd then fieldN j.desc 198 7 else fieldN j.desc 154 7

/-- The candidates of a gang: the oldest QUEUED job of the gang on each slice of the die row (R269). -/
def State.candidates (s : State) (g : Nat × Nat × Bool) : List Job :=
  (List.range 12).flatMap (fun x => (List.range 8).filterMap (fun q =>
    let cl := g.1 * 12 + x
    (s.jobsOf (.press cl)).find? (fun j => j.ctx.core == coreAt cl q && j.state == .queued && j.gang == some g)))

/-- The gang is complete and every candidate meets conditions 1 to 3 (R73 condition 4, R269). -/
def State.gangReady (s : State) (g : Nat × Nat × Bool) : Bool :=
  let cs := s.candidates g
  decide (cs.foldl (fun m j => max m j.gangN) 0 + 1 ≤ cs.length) && cs.all s.ownReady

/-- A queued job is eligible (R73). -/
def State.eligible (s : State) (j : Job) : Bool :=
  s.ownReady j && (match j.gang with
    | none => true
    | some g => (s.candidates g).any (fun c => c.id == j.id && c.ctx.core == j.ctx.core) && s.gangReady g)

/-! ## JSTAT, JCAN (R285, R286) -/

/-- The word of JSTAT (R285). -/
def State.jstatWord (s : State) (core id : Nat) : Word :=
  match s.jobNamed core id with
  | none => 0
  | some j =>
    let st := match j.state with
      | .reserved => 1 | .queued => 2 | .issued => 3
    BitVec.ofNat 64 (st + b2n (s.eligible j) * 4
      + (if j.state = .issued ∧ 0x8000 ≤ id then j.bytes % 2 ^ 24 * 2 ^ 8 else 0))

/-- JSTAT. -/
def execJstat (td ta : Temp) : State → Host.Outcome State Fault Refusal :=
  issue false (onlyFiring fun f s => f.setW td (s.jstatWord s.cur (fieldN (f.w ta) 0 16)))

/-- JCAN. -/
def execJcan (ta : Temp) : State → Host.Outcome State Fault Refusal :=
  issue true (onlyHold fun f _ => .jcan (fieldN (f.w ta) 0 16))

/-! ## Ingest submission (R287, R292) -/

/-- Charset codes that are assigned (R287). -/
def csetOk (c : Nat) : Bool :=
  decide (c ≤ 2) || (decide (0x20 ≤ c) && decide (c < 0x40)) || c == 0x40 || c == 0x41

/-- Messages of a core in flight: submitted and not complete, or held (R287, R292). -/
def State.msgsOut (s : State) (core : Nat) : Nat :=
  let c := s.core core
  c.inflight + (c.queue.filter (fun h => match h.act with
    | .ings _ _ => true
    | _ => false)).length

/-- Checks of INGS (R287, R377). -/
def ingsCheck (s : State) (d : Vec) : Option Nat :=
  let len := fieldN d 64 32
  firstFail
    [(decide (8 ≤ s.msgsOut s.cur), 0), (!(zeroF d 48 16 && zeroF d 114 14 && zeroF d 230 282), 1),
     (decide (5 ≤ fieldN d 96 3) || decide (17 ≤ fieldN d 99 5) || !csetOk (fieldN d 104 7), 2),
     (bitN (s.die (dieOf s.cur)).health 0, 6), (decide (len = 0) || decide (67108864 < len), 7)]

/-- INGS: a ticket, or a refusal word (R287). -/
def execIngs (td ta : Temp) : State → Host.Outcome State Fault Refusal := issue true fun f s =>
  let d := f.t ta
  match ingsCheck s d with
  | some code => .bare (s.setFiring (f.setW td (refusalWord code)))
  | none =>
    let die := dieOf s.cur
    let t := die * 2 ^ 14 + (s.die die).ticket
    let s1 := s.modDie die (fun k => { k with ticket := (k.ticket + 1) % 16383 })
    .done ((s1.setFiring (f.setW td (BitVec.ofNat 64 t))).hold f (.ings t d))

/-- The word of INGQ (R292). -/
def CoreSt.ingqWord (c : CoreSt) : Word :=
  BitVec.ofNat 64 (c.inflight % 4096 + min 4095 c.qcount * 2 ^ 12 + b2n c.qover * 2 ^ 24 + c.qlast % 2 ^ 32 * 2 ^ 32)

/-- INGQ. -/
def execIngq (td : Temp) : State → Host.Outcome State Fault Refusal :=
  issue false (onlyFiring fun f s => f.setW td (s.core s.cur).ingqWord)

end Sys2Proof.Machine
end

