-- ==== Sys2Proof/Machine/Memory.lean ====
section
/-! DEFINITION. Memory instructions at issue: LD, ST, STT, PST, LDS, LDRO, the nine atomics and FENCE (R133, R236 to
R245), with the checks of R374 and R390 in the order of R450. -/

namespace Sys2Proof.Machine

/-! ## Address checks (R374, R390, R450) -/

/-- The code of R390 that an address fails in TRANSLATION, if it fails one; `banned` for PST and LDRO to the self window. -/
def xlatFault (steward banned : Bool) (va : Word) : Option Nat :=
  if canonical va = false then some 0x01
  else if steward = false ∧ inSelf va = true ∧ (sramSize ≤ selfOfs va ∨ banned = true) then some 0x02
  else none

/-- The SYNCWORD code of R374 that a store or atomic into the own local SRAM fails, if it fails one. -/
def State.syncFault (s : State) (core : Nat) (va : Word) (n : Nat) : Option Nat :=
  match s.ownOfs core va with
  | none => none
  | some o => if s.armedRange core o n then some 0x01 else if s.poolRange core o n then some 0x02 else none

/-- The address checks in the order of R450: TRANSLATION, ALIGN with its code, then SYNCWORD where it applies. -/
def addrCheck (s : State) (va : Word) (n alignCode : Nat) (banned sync : Bool) (ok : Body) : Body :=
  match xlatFault (isSteward s.cur) banned va with
  | some c => .trap 0x06 c (some va.toNat)
  | none =>
    if va.toNat % n ≠ 0 then .trap 0x03 alignCode (some va.toNat)
    else match (if sync then s.syncFault s.cur va n else none) with
      | some c => .trap 0x04 c (some va.toNat)
      | none => ok

/-! ## LD (R237) -/

/-- The access kind is a store's. -/
def AccKind.isStore : AccKind → Bool
  | .st => true
  | .stt => true
  | .pst => true
  | _ => false

/-- A store as LD's forwarding sees it: offset in the own local SRAM, size, data and side-band. -/
structure FwdStore where
  ofs  : Nat
  size : Nat
  data : Vec
  side : Byte
  deriving DecidableEq, Repr

/-- The store covers a byte. -/
def FwdStore.covers (w : FwdStore) (o : Nat) : Bool := decide (w.ofs ≤ o) && decide (o < w.ofs + w.size)

/-- The byte that the store gives to an offset that it covers. -/
def FwdStore.byte (w : FwdStore) (o : Nat) : Byte := w.data.extractLsb' (8 * (o - w.ofs)) 8

/-- The store of a held action into the own local SRAM. -/
def heldFwd (s : State) (core : Nat) (h : Held) : Option FwdStore :=
  match h.act with
  | .access k va size data side _ _ =>
    if k.isStore then (s.ownOfs core va).map (fun o => { ofs := o, size := size, data := data, side := side }) else none
  | _ => none

/-- A store of the core in flight. One of another device carries a core number of its own device. -/
def msgReq (core : Nat) : Msg → Option Req
  | .access r => if r.dev = none ∧ r.ctx.core = core ∧ r.kind.isStore = true then some r else none
  | _ => none

/-- A request of the core that its cluster translates or has parked. -/
def xReq (core : Nat) : XReq → Option Req
  | .core r => if r.ctx.core = core ∧ r.kind.isStore = true then some r else none
  | _ => none

/-- A request inserted by its number. -/
def insertReq (r : Req) : List Req → List Req
  | [] => [r]
  | q :: t => if r.id ≤ q.id then r :: q :: t else q :: insertReq r t

/-- The stores of a core that are released and not performed, in release order (R124, R128 rule 5). -/
def State.inflightStores (s : State) (core : Nat) : List Req :=
  let k := s.cluster (clusterOf core)
  ((s.net.filterMap (fun p => msgReq core p.msg)) ++ k.walking.filterMap (xReq core) ++ k.parked.filterMap (xReq core)).foldr
    insertReq []

/-- A released store into the own local SRAM. -/
def reqFwd (s : State) (core : Nat) (r : Req) : Option FwdStore :=
  (s.ownOfs core r.va).map (fun o => { ofs := o, size := r.size, data := r.data, side := r.side })

/-- Every store of the core that a load may forward from, youngest first (R48, R237). -/
def State.fwdStores (s : State) (core : Nat) : List FwdStore :=
  ((s.inflightStores core).filterMap (reqFwd s core) ++ (s.core core).queue.filterMap (heldFwd s core)).reverse

/-- A byte as LD reads it: from the youngest store that covers it, or from the SRAM (R237). -/
def ldByte (s : State) (core : Nat) (fwd : List FwdStore) (o : Nat) : Byte :=
  match fwd.find? (fun w => w.covers o) with
  | some w => w.byte o
  | none => memByte s.mem (winAddr core o)

/-- The side-band of the 8-byte word at an offset: of the youngest store that touches it, or of the SRAM word. -/
def ldSide (s : State) (core : Nat) (fwd : List FwdStore) (o : Nat) : Byte :=
  match fwd.find? (fun w => (List.range 8).any (fun j => w.covers (o + j))) with
  | some w => w.side
  | none => s.sideAt (winAddr core o)

/-- The value that LD brings from an offset: the bytes, little-endian, zero-extended (R237). -/
def ldValue (s : State) (core o n : Nat) : Vec :=
  let fwd := s.fwdStores core
  BitVec.ofNat 512 (leNat ((List.range n).map (fun j => ldByte s core fwd (o + j))))

/-- OR of the side-bands of the words that LD touches (R237). -/
def ldSides (s : State) (core o n : Nat) : Byte :=
  let fwd := s.fwdStores core
  (wordsOf o n).foldl (fun b w => b ||| ldSide s core fwd (8 * w)) 0

/-- A split-phase load or an atomic. -/
def AccKind.splitOrdered (k : AccKind) : Bool := k.ordered && !k.isStore

/-- A die-local LDS or atomic of the core is released and not performed: the memory order has it before every later access (R128 rule 2;
log 49). -/
def State.loadOut (s : State) (core : Nat) : Bool :=
  let k := s.cluster (clusterOf core)
  s.net.any (fun p => match p.msg with
    | .access r => r.dev.isNone && r.ctx.core == core && r.kind.splitOrdered && s.localPa core r.pa
    | _ => false) ||
  (k.walking ++ k.parked).any (fun x => match x with
    | .core r => r.ctx.core == core && r.kind.splitOrdered && !s.knownFar r
    | _ => false)

/-- A free side-band byte: that of a word of the token pool (log 6). -/
def State.freeSide (s : State) : Byte := (Config.freeWord s.fresh).setWidth 8 &&& 0x7F

/-- LD (R237), behind the core's die-local split-phase accesses (R128). A word of the token pool, whose contents the manual does not lay
out, is a free value with a free side-band (log 6). -/
def execLd (size : MemSize) (t tb : Temp) (off : BitVec 14) : State → Host.Outcome State Fault Refusal := issue false fun f s =>
  let va := memAddr f size tb off
  let n := memSz size
  if selfBase ≤ va.toNat ∧ va.toNat < selfBase + sramSize then
    addrCheck s va n 0x02 false false
      (let o := selfOfs va
       if s.loadOut s.cur then .wait
       else if s.poolRange s.cur o n then
         let v := BitVec.ofNat 512 ((Config.freeVec s.fresh).toNat % 2 ^ (8 * n))
         if poisoned s s.freeSide then .poison (some va.toNat)
         else .done (s.drawn.setFiring ((f.setT t v).orFlags s.freeSide))
       else
         let side := ldSides s s.cur o n
         if poisoned s side then .poison (some va.toNat)
         else .done (s.setFiring ((f.setT t (ldValue s s.cur o n)).orFlags side)))
  else .trap 0x05 0x02 (some va.toNat)

/-! ## Stores (R238, R239) -/

/-- The n low bytes of a value. -/
def lowBytes (v : Vec) (n : Nat) : Vec := BitVec.ofNat 512 (v.toNat % 2 ^ (8 * n))

/-- The flag-map address of STT: (fmbase << 8) + (VA[47:0] >> 3), canonical (R174). -/
def flagMapAddr (d : Rec) (va : Word) : Word :=
  let a := BitVec.ofNat 48 (ndFmbase d + va.toNat % 2 ^ 48 / 8)
  a.signExtend 64

/-- A store, held with its data and the flag set (R173, R238). -/
def storeBody (kind : AccKind) (banned sync : Bool) (size : MemSize) (t tb : Temp) (off : BitVec 14)
    (k : Firing → State → Word → Nat) : Firing → State → Body := fun f s =>
  let va := memAddr f size tb off
  addrCheck s va (memSz size) 0x02 banned sync
    (.done (s.hold f (.access kind va (memSz size) (lowBytes (f.t t) (memSz size)) f.flags (k f s va) 0)))

/-- ST (R238). -/
def execSt (size : MemSize) (t tb : Temp) (off : BitVec 14) : State → Host.Outcome State Fault Refusal :=
  issue true (storeBody .st false true size t tb off fun _ _ _ => 0)

/-- STT: its flag-map address is that of the issuing node (R174, R238). -/
def execStt (size : MemSize) (t tb : Temp) (off : BitVec 14) : State → Host.Outcome State Fault Refusal :=
  issue true (storeBody .stt false true size t tb off fun f s va =>
    (flagMapAddr ((s.core s.cur).nodeDesc f.ctx.vnode) va).toNat)

/-- PST: posted, and never to the self window in tenant mode (R239, R390). -/
def execPst (size : MemSize) (t tb : Temp) (off : BitVec 14) : State → Host.Outcome State Fault Refusal :=
  issue true (storeBody .pst true false size t tb off fun _ _ _ => 0)

/-! ## Split-phase loads (R241, R243) -/

/-- A split-phase load (R241): frame words and slot checked, then its address. -/
def splitBody (kind : AccKind) (banned : Bool) (size : SplitSize) (k : FWord) (tb : Temp) (sl : Slot) :
    Firing → State → Body := fun f s =>
  let fr := (s.core s.cur).frame f.ctx.frame
  if fr.words < k.toNat + splitWords size then .trap 0x05 0x03 none
  else if fr.nslot ≤ sl.toNat then .trap 0x05 0x04 none
  else addrCheck s (f.w tb) (splitSz size) 0x03 banned false
    (.done (s.hold f (.access kind (f.w tb) (splitSz size) 0 0 k.toNat sl.toNat)))

/-- LDS (R241). -/
def execLds (size : SplitSize) (k : FWord) (tb : Temp) (sl : Slot) : State → Host.Outcome State Fault Refusal :=
  issue true (splitBody .lds false size k tb sl)

/-- LDRO: never to the self window in tenant mode (R243, R390). -/
def execLdro (size : SplitSize) (k : FWord) (tb : Temp) (sl : Slot) : State → Host.Outcome State Fault Refusal :=
  issue true (splitBody .ldro true size k tb sl)

/-! ## Atomics (R244, R245) -/

/-- The low bytes of an operand word. -/
def atomOperand (wd : AWidth) (v : Word) : Word :=
  match wd with
  | .w => (v.setWidth 32).setWidth 64
  | .d => v

/-- Frame words that an atomic reads: F[k], and F[k + 1] for ACAS (operation 8). -/
def atomWords (op : Nat) : Nat := if op = 8 then 2 else 1

/-- An atomic at issue: it reads its operands, ORs their side-band into the flag set and is held with it (R245). -/
def atomic (op : Nat) (wd : AWidth) (scope : Scope) (k : FWord) (tb : Temp) (sl : Slot) :
    State → Host.Outcome State Fault Refusal := issue true fun f s =>
  let fr := (s.core s.cur).frame f.ctx.frame
  let n := atomWords op
  if fr.words < k.toNat + n then .trap 0x05 0x03 none
  else if fr.nslot ≤ sl.toNat then .trap 0x05 0x04 none
  else addrCheck s (f.w tb) (atomSz wd) 0x01 false true
    (let x := atomOperand wd (s.fword s.cur f.ctx.frame k.toNat)
     let y := if op = 8 then atomOperand wd (s.fword s.cur f.ctx.frame (k.toNat + 1)) else 0
     let f1 := f.orFlags (s.fsides s.cur f.ctx.frame k.toNat n)
     .done ((s.setFiring f1).hold f (.access (.atomic op x y scope) (f.w tb) (atomSz wd) 0 f1.flags k.toNat sl.toNat)))

/-- AADD. -/
def execAadd (wd : AWidth) (scope : Scope) (k : FWord) (tb : Temp) (sl : Slot) : State → Host.Outcome State Fault Refusal :=
  atomic 0 wd scope k tb sl
/-- AAND. -/
def execAand (wd : AWidth) (scope : Scope) (k : FWord) (tb : Temp) (sl : Slot) : State → Host.Outcome State Fault Refusal :=
  atomic 1 wd scope k tb sl
/-- AOR. -/
def execAor (wd : AWidth) (scope : Scope) (k : FWord) (tb : Temp) (sl : Slot) : State → Host.Outcome State Fault Refusal :=
  atomic 2 wd scope k tb sl
/-- AXOR. -/
def execAxor (wd : AWidth) (scope : Scope) (k : FWord) (tb : Temp) (sl : Slot) : State → Host.Outcome State Fault Refusal :=
  atomic 3 wd scope k tb sl
/-- AMIN. -/
def execAmin (wd : AWidth) (scope : Scope) (k : FWord) (tb : Temp) (sl : Slot) : State → Host.Outcome State Fault Refusal :=
  atomic 4 wd scope k tb sl
/-- AMAX. -/
def execAmax (wd : AWidth) (scope : Scope) (k : FWord) (tb : Temp) (sl : Slot) : State → Host.Outcome State Fault Refusal :=
  atomic 5 wd scope k tb sl
/-- ASWAP. -/
def execAswap (wd : AWidth) (scope : Scope) (k : FWord) (tb : Temp) (sl : Slot) : State → Host.Outcome State Fault Refusal :=
  atomic 6 wd scope k tb sl
/-- AFADD, of width W only. -/
def execAfadd (scope : Scope) (k : FWord) (tb : Temp) (sl : Slot) : State → Host.Outcome State Fault Refusal :=
  atomic 7 .w scope k tb sl
/-- ACAS. -/
def execAcas (wd : AWidth) (scope : Scope) (k : FWord) (tb : Temp) (sl : Slot) : State → Host.Outcome State Fault Refusal :=
  atomic 8 wd scope k tb sl

/-- FENCE: a mark in the commit queue that takes no entry (R133). -/
def execFence (kind : FenceKind) (scope : Scope) : State → Host.Outcome State Fault Refusal :=
  issue false (onlyHold fun _ _ => .fence kind scope)

end Sys2Proof.Machine
end

