-- ==== Sys2Proof/Machine/Route.lean ====
section
/-! DEFINITION. Regions (R452) and routes: the links that a packet takes in its package (R294, R415), the gateways to other
devices (R295), and the guards at a region's edges (R418, R441). -/

namespace Sys2Proof.Machine

/-! ## Places in the package (R4, R452) -/

/-- The package column X of a cluster: die × 12 + x (R4). -/
def packageX (cluster : Nat) : Nat := cluster / 120 * 12 + cluster % 12
/-- The row y of a cluster. -/
def packageY (cluster : Nat) : Nat := cluster % 120 / 12

/-- The cluster lies in a region (R452): package columns and rows taken modulo 48 and 10. -/
def Region.holds (r : Region) (cluster : Nat) : Bool :=
  decide ((packageX cluster + 48 - r.x0) % 48 < r.w) && decide ((packageY cluster + 10 - r.y0) % 10 < r.h)

/-- The cluster at a package column and row. -/
def clusterXY (x y : Nat) : Nat := x / 12 * 120 + 12 * y + x % 12

/-- A region that a tenant has been allotted and that holds a cluster. -/
def State.regionAt (s : State) (tenant cluster : Nat) : Option Region :=
  if tenant = 0 then none else (s.regions.find? (fun e => e.2.tenant == tenant && e.2.holds cluster)).map (·.2)

/-- Cluster of the router at which an agent meets the network: a steward's, an ingest unit's and a die's is (0, 0) (R447). -/
def agentCluster : Agent → Option Nat
  | .core c => some (clusterOf c)
  | .slice k => some k
  | .press c => some (clusterOf c)
  | .copy k => some k
  | .router k => some k
  | .ingest d => some (d * 120)
  | .work d => some (d * 120)
  | .die d => some (d * 120)
  | .host => none
  | .device _ _ => none

/-! ## Paths (R294, R415) -/

/-- The positive direction around a ring of n is the shorter one, or as short (R294). -/
def ringPos (n a b : Nat) : Bool := decide ((b + n - a) % n ≤ (a + n - b) % n)

/-- Coordinates that a path around a ring leaves, in order. -/
def ringPath (n a b : Nat) (pos : Bool) : List Nat :=
  if pos then (List.range ((b + n - a) % n)).map (fun i => (a + i) % n)
  else (List.range ((a + n - b) % n)).map (fun i => (a + n - i) % n)

/-- Link directions of a router: 0 +X, 1 −X, 2 +Y, 3 −Y (R365). Those of a path along X in row y. -/
def xLinks (y a b : Nat) (pos : Bool) : List (Nat × Nat) :=
  (ringPath 48 a b pos).map (fun x => (clusterXY x y, if pos then 0 else 1))

/-- Those of a path along Y in column x. -/
def yLinks (x a b : Nat) (pos : Bool) : List (Nat × Nat) :=
  (ringPath 10 a b pos).map (fun y => (clusterXY x y, if pos then 2 else 3))

/-- The router at the far end of a link direction. -/
def farRouter (cluster dir : Nat) : Nat :=
  let x := packageX cluster
  let y := packageY cluster
  match dir with
  | 0 => clusterXY ((x + 1) % 48) y
  | 1 => clusterXY ((x + 47) % 48) y
  | 2 => clusterXY x ((y + 1) % 10)
  | _ => clusterXY x ((y + 9) % 10)

/-- The direction out of a router is retired (R365, R414). -/
def State.linkDead (s : State) (l : Nat × Nat) : Bool := bitN (s.cluster l.1).health (21 + l.2)

/-- The links of a route from cluster to cluster, by direction in each dimension, X first or Y first. -/
def linksOf (a b : Nat) (px py yx : Bool) : List (Nat × Nat) :=
  if yx then yLinks (packageX a) (packageY a) (packageY b) py ++ xLinks (packageY b) (packageX a) (packageX b) px
  else xLinks (packageY a) (packageX a) (packageX b) px ++ yLinks (packageX b) (packageY a) (packageY b) py

/-- The direction that keeps a packet inside a run of a region in one dimension, or the shorter one when the region spans its
ring (R294). -/
def insidePos (n origin width a b : Nat) : Bool :=
  if width = n then ringPos n a b else decide ((a + n - origin) % n ≤ (b + n - origin) % n)

/-- The routes that a packet may take, the preferred one first (R294, R415); with `yx`, in the order Y then X (R308). -/
def routesIn (yx : Bool) (r : Option Region) (a b : Nat) : List (List (Nat × Nat)) :=
  match r with
  | none =>
    let px := ringPos 48 (packageX a) (packageX b)
    let py := ringPos 10 (packageY a) (packageY b)
    [linksOf a b px py yx, linksOf a b px (!py) yx, linksOf a b (!px) py yx, linksOf a b (!px) (!py) yx]
  | some r =>
    let px := insidePos 48 r.x0 r.w (packageX a) (packageX b)
    let py := insidePos 10 r.y0 r.h (packageY a) (packageY b)
    let xs := if r.w = 48 then [px, !px] else [px]
    let ys := if r.h = 10 then [py, !py] else [py]
    let go (yx : Bool) := xs.flatMap (fun x => ys.map (fun y => linksOf a b x y yx))
    go yx ++ go (!yx)

/-- The routes of a packet (R294, R415). -/
def routesOf (r : Option Region) (a b : Nat) : List (List (Nat × Nat)) := routesIn false r a b

/-- Some route avoids every retired link. -/
def State.routeLives (s : State) (r : Option Region) (a b : Nat) : Bool :=
  (routesOf r a b).any (fun l => l.all (fun k => !s.linkDead k))

/-- The route that a packet takes now. -/
def State.routeOf (s : State) (r : Option Region) (a b : Nat) : List (Nat × Nat) :=
  ((routesOf r a b).find? (fun l => l.all (fun k => !s.linkDead k))).getD []

/-- The links that a packet takes now, of the preferred route those before its first retired link where none lives. -/
def State.takenLinks (s : State) (r : Option Region) (a b : Nat) : List (Nat × Nat) :=
  if s.routeLives r a b then s.routeOf r a b else ((routesOf r a b).headD []).takeWhile (fun k => !s.linkDead k)

/-! ## Other devices (R293, R295) -/

/-- The torus dimensions: the device's and another's coordinate, the size, and the links of the two directions (R293). -/
def State.deviceDims (s : State) (dev : Nat) : List (Nat × Nat × Nat × Nat) :=
  [(s.device % 16, dev % 16, s.dx, 0), (s.device / 16 % 8, dev / 16 % 8, s.dy, 2), (s.device / 128 % 8, dev / 128 % 8, s.dz, 4)]

/-- The device link, 0 to 5, by which a packet for a device leaves, in the shorter direction of the first dimension, in the order dx, dy,
dz or its reverse, and the other way (R295, R308). -/
def State.deviceLinkIn (s : State) (back : Bool) (dev : Nat) : Option (Nat × Nat) :=
  ((if back then (s.deviceDims dev).reverse else s.deviceDims dev).find? (fun e => e.1 != e.2.1)).map (fun e =>
    if ringPos e.2.2.1 e.1 e.2.1 then (e.2.2.2, e.2.2.2 + 1) else (e.2.2.2 + 1, e.2.2.2))

/-- The device link by which a packet for a device leaves, and the other way. -/
def State.deviceLink (s : State) (dev : Nat) : Option (Nat × Nat) := s.deviceLinkIn false dev

/-- The device link on which a packet of a device arrives: of the last dimension that it crosses (R295). -/
def State.entryLink (s : State) (back : Bool) (dev : Nat) : Nat :=
  (((if back then s.deviceDims dev else (s.deviceDims dev).reverse).find? (fun e => e.1 != e.2.1)).map (fun e =>
    if ringPos e.2.2.1 e.2.1 e.1 then e.2.2.2 + 1 else e.2.2.2)).getD 0

/-- The gateway router of a die for a device link (R295). -/
def gatewayOf (die link : Nat) : Nat :=
  match link with
  | 0 => die * 120 + 5
  | 1 => die * 120 + 5
  | 2 => die * 120 + 6
  | 3 => die * 120 + 6
  | 4 => die * 120 + 9 * 12 + 5
  | _ => die * 120 + 9 * 12 + 6

/-- The link in service by which a packet for a device leaves (R295, R415). -/
def State.leavingLink (s : State) (back : Bool) (dev : Nat) : Option Nat :=
  match s.deviceLinkIn back dev with
  | none => none
  | some (l, m) => if !bitN s.dlinks l then some l else if !bitN s.dlinks m then some m else none

/-! ## Packets that the network drops (R415, R418, R441) -/

/-- The region of a tenant that holds both of two clusters. -/
def State.sharedRegion (s : State) (tenant a b : Nat) : Option Region :=
  match s.regionAt tenant a with
  | some r => if r.holds b then some r else none
  | none => none

/-- The class is one that R294 confines to its job's region: token or collective. -/
def NetClass.confined (c : NetClass) : Bool := c == .token || c == .collective

/-- The region that confines what a tenant sends in such a class between two clusters of its region (R294). -/
def State.confinesTo (s : State) (confined : Bool) (tenant a b : Nat) : Option Region :=
  if confined then s.sharedRegion tenant a b else none

/-- The region that confines a packet (R294). -/
def State.confines (s : State) (p : Packet) (a b : Nat) : Option Region := s.confinesTo p.cls.confined p.tenant a b

/-- A route to another device leaves by a link that is in service, and some route to its gateway lives (R295, R415). -/
def State.deviceLives (s : State) (confined : Bool) (tenant a dev : Nat) : Bool :=
  (s.deviceLink dev).isNone || (s.leavingLink false dev).any (fun k =>
    s.routeLives (s.confinesTo confined tenant a (gatewayOf (a / 120) k)) a (gatewayOf (a / 120) k))

/-- A chunk that takes the alternative tree, whose device dimensions come in the reverse order (R308). -/
def Msg.takesAlt : Msg → Bool
  | .redChunk c => c.alt
  | _ => false

/-- The clusters between which a packet crosses the torus of this package (R294, R295): from its agent's router, or the gateway at which
it enters, to its destination's router, or the gateway by which it leaves. A packet to or from the host has none (log 54). -/
def State.legOf (s : State) (p : Packet) : Option (Nat × Nat) :=
  match p.dst with
  | .device dev _ => (agentCluster p.src).bind (fun a => (s.leavingLink p.msg.takesAlt dev).map (fun k => (a, gatewayOf (a / 120) k)))
  | d => (agentCluster d).bind (fun b => (match p.src with
    | .device dev _ => some (gatewayOf (b / 120) (s.entryLink p.msg.takesAlt dev))
    | a => agentCluster a).map (fun a => (a, b)))

/-- Every link is in service. -/
def State.linksWhole (s : State) : Bool := s.dlinks == 0 && s.clusters.all (fun c => fieldN c.2.health 21 4 == 0)

/-- A packet for another device finds no link in service. -/
def State.noLink (s : State) (p : Packet) : Bool :=
  match p.dst with
  | .device dev _ => (s.deviceLink dev).isSome && (s.leavingLink p.msg.takesAlt dev).isNone
  | _ => false

/-- No route of a packet avoids every retired link (R415). -/
def State.noRoute (s : State) (p : Packet) : Bool :=
  !s.linksWhole && (s.noLink p || (s.legOf p).any (fun e => !s.routeLives (s.confines p e.1 e.2) e.1 e.2))

/-- The message answers for a core's channels, and no firing or engine job has sent it: returned credit units (R42, R417). -/
def Msg.byManager : Msg → Bool
  | .credit _ _ _ => true
  | .refuseTok _ _ _ => true
  | _ => false

/-- A tenant agent of R418: a firing, or an engine job that one reserved; a router that sends on what a firing has contributed to a
reduction acts for it (log 50). -/
def tenantAgent (p : Packet) : Bool :=
  p.tenant != 0 && !p.msg.byManager && (match p.src, p.msg with
    | .core c, _ => !isSteward c
    | .press _, _ => true
    | .copy _, _ => true
    | .router _, .redChunk _ => true
    | _, _ => false)

/-- The packet is of a kind that a kerf guard stops: token, collective, or a request to a core window (R418). -/
def State.guarded (s : State) (p : Packet) : Bool :=
  match p.cls, p.msg with
  | .token, _ => true
  | .collective, _ => true
  | .request, .access r => match s.spaceOf r.pa with
    | .win _ _ => true
    | _ => false
  | _, _ => false

/-- The router and direction at which the route that a tenant's packet takes from cluster to cluster leaves the tenant's region (R418,
R441): none of a confined class inside the region, or where the tenant has none. -/
def State.kerfLink (s : State) (confined : Bool) (tenant a b : Nat) : Option (Nat × Nat) :=
  match s.regionAt tenant a with
  | none => none
  | some r =>
    if confined && r.holds b then none
    else (s.takenLinks none a b).find? (fun e => r.holds e.1 && !r.holds (farRouter e.1 e.2))

/-- The agent is a steward core, which lies in no cluster. -/
def stewardAgent (a : Agent) : Bool :=
  match a with
  | .core c => isSteward c
  | _ => false

/-- Where a kerf guard drops a packet (R418, R441). A packet for a steward core is not stopped (log 50). -/
def State.kerfExit (s : State) (p : Packet) : Option (Nat × Nat) :=
  if tenantAgent p = false ∨ s.guarded p = false ∨ stewardAgent p.dst = true then none
  else (s.legOf p).bind (fun e => s.kerfLink p.cls.confined p.tenant e.1 e.2)

/-- Class of a dropped packet in KERFREP (R420). -/
def kerfClass : NetClass → Nat
  | .request => 0 | .response => 1 | .token => 2 | .collective => 3

/-- KERFREP after a drop: the first one fills it, later ones are counted (R419, R420). -/
def kerfNote (w : Word) (cls src dst tenant dir : Nat) : Word :=
  if bitN w 0 then setFieldN w 43 16 (min 65535 (fieldN w 43 16 + 1))
  else BitVec.ofNat 64 (1 + cls % 4 * 2 + src % 8192 * 2 ^ 3 + dst % 8192 * 2 ^ 16 + tenant % 4096 * 2 ^ 29 + dir % 4 * 2 ^ 41 + 2 ^ 43)

/-- A kerf guard drops something of a tenant: its cluster's kerf bit, KERFREP of its die, and one KERF record for the first drop
(R419, R442). -/
def State.kerfDrop (s : State) (link : Nat × Nat) (cls src dst tenant : Nat) : State :=
  let die := link.1 / 120
  let first := !bitN (s.die die).kerfrep 0
  let s1 := (s.setFlag link.1 6).modDie die (fun d => { d with kerfrep := kerfNote d.kerfrep cls src dst tenant link.2 })
  if first then s1.logRec die { unitErr 0x11 0x01 5 src 4 0 tenant with raw := dst }.toRec else s1

/-- The router where the preferred route from cluster to cluster ends: before its first retired link (R415). -/
def State.deadEnd (s : State) (r : Option Region) (a b : Nat) : Nat :=
  match ((routesOf r a b).headD []).find? s.linkDead with
  | some l => l.1
  | none => b

/-- A packet that finds no route is recorded by the router where its route ends, once for each source agent (R415). -/
def State.noRouteNote (s : State) (src : Agent) (router tenant : Nat) : State :=
  if s.noRoutes.contains src then s
  else { s with noRoutes := s.noRoutes ++ [src] }.logErr (unitErr 0x0F 0x05 4 (coreAt router 0) 4 0 tenant)

/-- A kerf guard stops the packet. -/
def State.kerfBlocked (s : State) (p : Packet) : Bool := !s.regions.isEmpty && (s.kerfExit p).isSome

/-! ## Trees (R304, R308) -/

/-- Die that counts the replays of a link, and the link's key there: of a torus link the receiving router's die (R413). -/
def linkPlace : LinkId → Nat × Nat
  | .torus c d => (farRouter c d / 120, c * 4 + d)
  | .device l => (0, 1920 + l)

/-- The link is retired (R365, R414). -/
def State.linkGone (s : State) (link : LinkId) : Bool :=
  match link with
  | .torus c d => s.linkDead (c, d)
  | .device l => bitN s.dlinks l

/-- The link is retired or degraded (R308, R413, R414). -/
def State.linkLost (s : State) (link : LinkId) : Bool :=
  s.linkGone link || (s.die (linkPlace link).1).degraded.contains (linkPlace link).2

/-- The next router on a tenant's route, or on its alternative one, from a router to another. -/
def State.nextRouter (s : State) (alt : Bool) (tenant a b : Nat) : Option Nat :=
  (((routesIn alt (s.sharedRegion tenant a b) a b).find? (fun l => l.all (fun k => !s.linkDead k))).bind (·.head?)).map
    (fun l => farRouter l.1 l.2)

/-- The routers from one to another, each the parent of the one before it; none where no route lives. The first argument bounds
them: 48 columns and 10 rows. -/
def State.routerChain (s : State) (alt : Bool) (tenant b : Nat) : Nat → Nat → Option (List Nat)
  | 0, _ => none
  | n + 1, a =>
    if a = b then some [a]
    else match s.nextRouter alt tenant a b with
      | none => none
      | some r => (s.routerChain alt tenant b n r).map (a :: ·)

end Sys2Proof.Machine
end

