-- ==== Sys2Proof/Machine/Dataflow.lean ====
section
/-! DEFINITION. The delivery order of the network (R297); channels and credits (R42, R79); the firing rules of STREAM and
MATCH slots, markers, SINK and VOTE nodes (R38, R39, R43, R44, R430); and the events in which tokens and credits arrive. -/

namespace Sys2Proof.Machine

/-! ## Delivery (R297) -/

/-- Packets of one class from one agent to one agent. -/
def Packet.sameFlow (p q : Packet) : Bool := p.src == q.src && p.dst == q.dst && p.cls == q.cls

/-- A frame of this generation that is in SPILLING or FILLING, where arrivals wait (R30). -/
def State.inTransfer (s : State) (core frame gen : Nat) : Option (Nat × Nat) :=
  let f := (s.core core).frame frame
  if (f.state == .spilling || f.state == .filling) && f.gen == gen then some (core, frame) else none

/-- The frame that a frame token names on a core, when R33 lets it be applied. -/
def State.frameOf (s : State) (core : Nat) (d : FrameDest) : Option Nat :=
  match d with
  | .handle h =>
    let f := (s.core core).frame (handleFrame h)
    if h.getLsbD 0 && f.state != .free && f.gen == handleGen h then some (handleFrame h) else none
  | .node v => (s.core core).nodeFrame v

/-- A token for a slot has to wait for its node to pass a checkpoint, where no slot of the node frame fires: a HANDLER slot takes no
arrival, and a COUNT slot none that would bring it to fire (R82, step 1). -/
def State.slotWaits (s : State) (core i slot amount : Nat) : Bool :=
  let w := s.fword core i slot
  (s.core core).frameParked i && decide (slot < ((s.core core).frame i).nslot) &&
    ((slotKind w == 3 && slotValid w && slotArmed w) || slotFires (withCount w (slotCount w - BitVec.ofNat 24 amount)))

/-- The frame at a checkpoint that a frame token waits for. -/
def State.parkedAt (s : State) (core : Nat) (d : FrameDest) (slot amount : Nat) : Option (Nat × Nat) :=
  match s.frameOf core d with
  | some i => if s.slotWaits core i slot amount then some (core, i) else none
  | none => none

/-- The frame, in transfer or at a checkpoint, that a packet waits for. -/
def State.waitsAt (s : State) (p : Packet) : Option (Nat × Nat) :=
  match p.msg with
  | .frame (.handle h) n _ m _ _ _ _ _ =>
    (s.inTransfer (handleCore h) (handleFrame h) (handleGen h)).or (s.parkedAt (handleCore h) (.handle h) n m)
  | .frame (.node v) n _ m _ _ _ _ _ =>
    match p.dst with
    | .core core => s.parkedAt core (.node v) n m
    | _ => none
  | .loadResp r _ _ => s.inTransfer r.ctx.core r.ctx.frame r.ctx.gen
  | .atomResp r _ _ => s.inTransfer r.ctx.core r.ctx.frame r.ctx.gen
  | _ => none

/-- What was released later stays behind what was translated later: a CODESEAL behind a request (R143), and an ordered access at its home
behind one that the memory order puts before it (R128). What waits at a router for its turn there, a contribution or a chunk, has arrived and
holds up nothing else (R305, R306, R312, R313). -/
def Packet.yieldsTo (q p : Packet) : Bool :=
  match q.msg, p.msg with
  | .sealCmd _ n, .access r => decide (r.id < n)
  | .access u, .access r => u.kind.ordered && r.kind.ordered && decide (r.id < u.id)
  | .redChunk _, _ => true
  | .hpNext _, _ => true
  | .hpput u, .hpput c => u.ref != c.ref || c.index != 0
  | .hpput _, _ => true
  | _, _ => false

/-- No earlier packet of its flow stands before the packet at place k, but for those that wait for another frame or yield to it; and
no guard or missing route drops it on its way (R415, R418). -/
def State.deliverable (s : State) (k : Nat) (p : Packet) : Bool :=
  !p.held && !s.kerfBlocked p && !s.noRoute p && (s.net.take k).all (fun q =>
    !q.sameFlow p || q.yieldsTo p || ((s.waitsAt q).isSome && s.waitsAt q != s.waitsAt p))

/-- The packet at place k, when it may arrive now. -/
def State.recv (s : State) (k : Nat) : Option Packet :=
  match s.pkt k with
  | none => none
  | some p => if s.deliverable k p then some p else none

/-- An event changes the state by a function and always happens. -/
def eventOf (f : State → State) (s : State) : Host.Outcome State Fault Refusal := .next (f s)

/-! ## Channels (R42, R78) -/

/-- A token enters a channel. -/
def Chan.push (ch : Chan) (t : Token) (cycle : Nat) : Chan :=
  { ch with tail := (ch.tail + t.cost) % max 1 ch.depth, occ := ch.occ + t.cost, toks := ch.toks ++ [t],
            times := ch.times ++ [cycle] }

/-- Units of a list of tokens. -/
def tokUnits (l : List Token) : Nat := l.foldl (fun n t => n + t.cost) 0

/-- The n oldest tokens leave a channel. -/
def Chan.pop (ch : Chan) (n : Nat) : Chan :=
  let u := tokUnits (ch.toks.take n)
  { ch with head := (ch.head + u) % max 1 ch.depth, occ := ch.occ - u, toks := ch.toks.drop n, times := ch.times.drop n }

/-- The state with one channel changed. -/
def State.modChan (s : State) (core i : Nat) (f : Chan → Chan) : State :=
  s.modCore core (fun c => { c with chans := tabSet c.chans i (f (c.chan i)) })

/-- Producer core ids of a start port and of an ingest-fed port (R232). -/
def startPort : Nat := 0x1FFF
/-- Producer core id of an ingest-fed port. -/
def ingestPort : Nat := 0x1FFE

/-- Freed units return to the producer of a channel as credits (R42); a start port's draw none (R220). -/
def State.giveCredit (s : State) (core : Nat) (ch : Chan) (units : Int) : State :=
  if ch.pcore = startPort ∨ units = 0 then s
  else
    let dst : Agent := if ch.pcore = ingestPort then .ingest (dieOf core) else .core ch.pcore
    s.send { src := .core core, dst := dst, cls := .token, tenant := s.tenantOf core,
             msg := .credit ch.vnode ch.port units, held := false }

/-- The ports of a four-bit mask. -/
def maskPorts (m : Nat) : List Nat := (List.range 4).filter (fun p => m / 2 ^ p % 2 == 1)

/-- A core runs the graph of an address space and work entry. -/
def CoreSt.inGraph (c : CoreSt) (asid gwork : Nat) : Bool := c.asid == asid && c.gwork == gwork

/-- SINK nodes of a core, by their node frames. -/
def CoreSt.sinkNodes (c : CoreSt) : List Nat :=
  (c.frames.filter (fun f => f.2.static && f.2.state != .free && ndKind (c.nodeDesc f.2.vnode) == 2)).map (fun f => f.2.vnode)

/-- SINK nodes of a graph. -/
def State.sinkCount (s : State) (asid gwork : Nat) : Nat :=
  s.cores.foldl (fun n e => n + (if e.2.inGraph asid gwork then e.2.sinkNodes.length else 0)) 0

/-- A SINK reports its CHECKPOINT: the graph in MARKING is drained when every SINK has (R83, R85). DESIGN CHOICE: a graph with no
SINK, for which no report comes, stays in MARKING until the drain timeout (log 72). -/
def Drain.report (d : Drain) (sink total : Nat) : Drain :=
  if d.phase ≠ .marking ∨ d.sinks.contains sink then d
  else { d with sinks := d.sinks ++ [sink], phase := if total ≤ d.sinks.length + 1 then .drained else .marking }

/-- A SINK consumes an END or CHECKPOINT of a port: the END of its last port completes it (R44), the CHECKPOINT of its last
port reports it to its graph's record (R83). -/
def State.sinkMark (s : State) (core vnode port : Nat) (t : Token) : State :=
  let c := s.core core
  let all := (inPorts (c.nodeDesc vnode)).foldl (fun m p => m ||| 2 ^ p) 0
  match t.kind with
  | .endm =>
    let m := tabGet 0 c.sinkEnd vnode ||| 2 ^ port
    let s1 := s.modCore core (fun c => { c with sinkEnd := tabSet c.sinkEnd vnode m })
    if m &&& all = all ∧ c.sinkDone.contains vnode = false then
      (s1.modCore core (fun c => { c with sinkDone := c.sinkDone ++ [vnode] })).sendParent (.core core) 2 c.gwork 0
    else s1
  | .checkpoint =>
    let m := tabGet 0 c.sinkCk vnode ||| 2 ^ port
    let s1 := s.modCore core (fun c => { c with sinkCk := tabSet c.sinkCk vnode m })
    if m &&& all = all then
      { s1 with drains := s1.drains.map (fun e =>
          if c.inGraph e.asid e.gwork then e.report (core * 2 ^ 20 + vnode) (s.sinkCount e.asid e.gwork) else e) }
    else s1
  | _ => s

/-- The n oldest tokens of an input port are consumed: their units return as credits, and a SINK counts its markers. -/
def State.consume (s : State) (core vnode port n : Nat) : State :=
  match (s.core core).chanOf vnode port with
  | none => s
  | some i =>
    let ch := (s.core core).chan i
    let ts := ch.toks.take n
    let s1 := (s.modChan core i (fun ch => ch.pop n)).giveCredit core ch (tokUnits ts)
    if ndKind ((s.core core).nodeDesc vnode) = 2 then ts.foldl (fun t tok => t.sinkMark core vnode port tok) s1 else s1

/-! ## Credits and sends on output ports (R42, R79, R223) -/

/-- Free credit units of an output port. -/
def CoreSt.credit (c : CoreSt) (vnode p : Nat) : Int := tabGet 0 c.credits (portKey vnode p)

/-- The core with units added to a port's credits. -/
def CoreSt.addCredit (c : CoreSt) (key : Nat) (u : Int) : CoreSt :=
  { c with credits := tabSet c.credits key (tabGet 0 c.credits key + u) }

/-- The output port of a core whose route is an input port. -/
def CoreSt.creditKey (c : CoreSt) (vnode port : Nat) : Option Nat :=
  (c.credits.find? (fun e =>
    ndOutEn (c.nodeDesc (e.1 / 4)) (e.1 % 4) && ndRoute (c.nodeDesc (e.1 / 4)) (e.1 % 4) == (vnode, port))).map (·.1)

/-- A token leaves on an output port for the input port of its route, its credit already drawn; with no valid placement
entry nothing is sent (R376 code 0x0E). -/
def State.emit (s : State) (core : Nat) (d : Rec) (p : Nat) (t : Token) : State :=
  match s.resolve core (ndRoute d p).1 with
  | none => s
  | some dst => s.sendTok core dst (.chan (ndRoute d p).1 (ndRoute d p).2 t)

/-- A token that a node sends by itself, without a firing: it draws its units (R42). Where no placement entry names the destination
nothing is sent or drawn, and the drop is reported (R58, R376 code 0x0E; log 67). -/
def State.nodeSend (s : State) (core vnode p : Nat) (t : Token) : State :=
  let d := (s.core core).nodeDesc vnode
  if (s.resolve core (ndRoute d p).1).isNone then s.logErr { coreErr 0x05 0x0E 5 core (s.tenantOf core) with vnode := vnode }
  else (s.modCore core (fun c => c.addCredit (portKey vnode p) (-(t.cost : Int)))).emit core d p t

/-- Every port of a list has a free credit for a token of some cost. -/
def CoreSt.canSend (c : CoreSt) (vnode : Nat) (ports : List Nat) (cost : Nat) : Bool :=
  ports.all (fun p => decide ((cost : Int) ≤ c.credit vnode p))

/-- The colour of a node's own sends: that of its node frame. -/
def CoreSt.nodeColour (c : CoreSt) (vnode : Nat) : Nat :=
  match c.nodeFrame vnode with
  | none => 0
  | some i => colourOf i (c.frame i).gen

/-- A marker that a node sends by itself. -/
def CoreSt.marker (c : CoreSt) (vnode : Nat) (k : TokKind) : Token :=
  { kind := k, side := 0, colour := c.nodeColour vnode, vec := false, data := 0 }

/-- A marker on every port of a list. -/
def State.sendMarkers (s : State) (core vnode : Nat) (k : TokKind) (ports : List Nat) : State :=
  ports.foldl (fun t p => t.nodeSend core vnode p ((s.core core).marker vnode k)) s

/-! ## STREAM and MATCH slots (R38, R39, R43) -/

/-- Tokens of an input port that firings of a node frame's slots have reserved (R38). -/
def CoreSt.reservedToks (c : CoreSt) (i p : Nat) : Nat :=
  c.resvs.foldl (fun n e => if e.1 / 64 = i then n + tabGet 0 e.2.inToks p else n) 0

/-- DATA tokens at the head of an input port, before its first marker, that no firing of the node frame has reserved. -/
def CoreSt.dataAhead (c : CoreSt) (i p : Nat) : Nat :=
  ((c.toksOf (c.frame i).vnode p).takeWhile (fun t => t.kind == .data)).length - c.reservedToks i p

/-- Units of a firing's production on an output port. -/
def outUnits (d : Rec) (p : Nat) : Nat := ndOutRate d p * (if ndOutVec d p then 5 else 1)

/-- The output ports of a mask hold credits for their production rates (R38). -/
def CoreSt.outReady (c : CoreSt) (vnode : Nat) (outs : List Nat) : Bool :=
  outs.all (fun p => decide ((outUnits (c.nodeDesc vnode) p : Int) ≤ c.credit vnode p))

/-- The slot of a node frame reserves tokens and credits and pushes its ready entry (R38, R43). -/
def State.fireReserved (s : State) (core i j entry prio : Nat) (ins : List (Nat × Nat)) (outs : Tab Nat) : State :=
  let v := ((s.core core).frame i).vnode
  (s.modCore core (fun c =>
    { (outs.foldl (fun c e => c.addCredit (portKey v e.1) (-(e.2 : Int))) c) with
      resvs := tabSet c.resvs (i * 64 + j) { inToks := ins, credits := outs } })).pushReady core
        (newReady i entry prio j false)

/-- END markers stand at the head of every port of the mask (R43): they pass on, or the slot fires the marker entry. -/
def State.markerRule (s : State) (core i j : Nat) (w : Word) (ins outs : List Nat) : State :=
  let c := s.core core
  let v := (c.frame i).vnode
  let d := c.nodeDesc v
  if ndMarker d = 0x3FFF then
    if c.canSend v outs 1 then (ins.foldl (fun t p => t.consume core v p 1) s).sendMarkers core v .endm outs else s
  else s.fireReserved core i j (ndMarker d) (slotPrio w) (ins.map (fun p => (p, 1))) []

/-- A STREAM slot is tested (R38, R43). -/
def State.streamTest (s : State) (core i j : Nat) (w : Word) : State :=
  let c := s.core core
  let v := (c.frame i).vnode
  let d := c.nodeDesc v
  let ins := maskPorts (slotBind w % 16)
  let outs := maskPorts (slotBind w / 16 % 16)
  if c.allHeads v .endm ins then (if ins.all (fun p => c.reservedToks i p == 0) then s.markerRule core i j w ins outs else s)
  else if ins.all (fun p => decide (ndInRate d p ≤ c.dataAhead i p)) && c.outReady v outs then
    s.fireReserved core i j (slotEntry w) (slotPrio w) (ins.map (fun p => (p, ndInRate d p)))
      (outs.map (fun p => (p, outUnits d p)))
  else s

/-- The coordinate of a MATCH token. -/
def Token.coord (t : Token) : Nat := fieldN t.data 32 32

/-- A MATCH slot consumes a head without a firing; its side-band goes into FFLAGS (R39). -/
def State.matchDrop (s : State) (core v p : Nat) (t : Token) : State :=
  (s.consume core v p 1).modCore core (fun c => { c with fflags := c.fflags ||| t.side.setWidth 7 })

/-- A MATCH slot is tested (R39, R43). -/
def State.matchTest (s : State) (core i j : Nat) (w : Word) : State :=
  let c := s.core core
  let v := (c.frame i).vnode
  let a := slotBind w % 4
  let b := slotBind w / 4 % 4
  let outs := maskPorts (slotBind w / 16 % 16)
  if c.reservedToks i a + c.reservedToks i b ≠ 0 then s
  else match c.headOf v a, c.headOf v b with
  | some x, some y =>
    match x.kind, y.kind with
    | .data, .data =>
      if x.coord < y.coord then s.matchDrop core v a x
      else if y.coord < x.coord then s.matchDrop core v b y
      else if c.outReady v outs then
        s.fireReserved core i j (slotEntry w) (slotPrio w) [(a, 1), (b, 1)]
          (outs.map (fun p => (p, outUnits (c.nodeDesc v) p)))
      else s
    | .endm, .data => s.matchDrop core v b y
    | .data, .endm => s.matchDrop core v a x
    | .endm, .endm => s.markerRule core i j w [a, b] outs
    | _, _ => s
  | _, _ => s

/-- A slot of a node frame is tested while it is valid and armed, has no ready entry or running firing, and the ready queue
has room (R38, R39, R49). -/
def State.slotTest (s : State) (core i j : Nat) : State :=
  let w := s.fword core i j
  let c := s.core core
  if slotValid w && slotArmed w && (tabFind c.resvs (i * 64 + j)).isNone && c.readyRoom then
    (if slotKind w = 1 then s.streamTest core i j w else if slotKind w = 2 then s.matchTest core i j w else s)
  else s

/-- A node frame holds a STREAM slot. -/
def State.hasStream (s : State) (core i : Nat) : Bool :=
  (List.range ((s.core core).frame i).nslot).any (fun j => slotValid (s.fword core i j) && slotKind (s.fword core i j) == 1)

/-- A SINK without a STREAM slot consumes what stands at the heads of its ports, up to a CHECKPOINT or RECONFIG (R24, R44). -/
def State.sinkDrain (s : State) (core vnode : Nat) : State :=
  (inPorts ((s.core core).nodeDesc vnode)).foldl (fun t p =>
    t.consume core vnode p ((((t.core core).toksOf vnode p).takeWhile (fun k => k.kind == .data || k.kind == .endm)).length)) s

/-- A marker at the head of one of the node's channels needs the node's descriptor (R43, R63). -/
def CoreSt.markerWaits (c : CoreSt) (vnode : Nat) : Bool :=
  c.chans.any (fun e => e.2.en && e.2.vnode == vnode && e.2.toks.head?.any (fun t => t.kind == .endm || t.kind == .checkpoint))

/-- A node is tested once: without its descriptor nothing but its fetch for a marker (R63, R64), and nothing fires at a checkpoint
(R82). -/
def State.nodeTest (s : State) (core i : Nat) : State :=
  let c := s.core core
  let f := c.frame i
  if c.resident f.vnode = false then (if c.markerWaits f.vnode then s.modCore core (fun c => c.want f.vnode) else s)
  else if ndKind (c.nodeDesc f.vnode) = 2 ∧ s.hasStream core i = false then s.sinkDrain core f.vnode
  else if c.atCheckpoint f.vnode then s
  else (List.range f.nslot).foldl (fun t j => t.slotTest core i j) s

/-- A node that has come to stand at a checkpoint notes the dynamic activations that it has at that moment (R82, step 2). -/
def CoreSt.noteMark (c : CoreSt) (core v : Nat) : CoreSt :=
  if c.atCheckpoint v = false ∨ (tabFind c.ckpt v).isSome then c
  else { c with ckpt := tabSet c.ckpt v ((c.frames.filter (fun e => !e.2.static && e.2.state != .free && e.2.vnode == v)).map
    (fun e => mkHandle core e.1 e.2.gen)) }

/-- The nodes of a core that stand at a checkpoint note it. -/
def State.noteMarks (s : State) (core : Nat) : State :=
  let vs := ((s.core core).frames.filter (fun e => e.2.static && e.2.state != .free)).map (fun e => e.2.vnode)
  s.modCore core (fun c => vs.foldl (fun c v => c.noteMark core v) c)

/-- Tokens in the channels of a core. -/
def CoreSt.tokCount (c : CoreSt) : Nat := c.chans.foldl (fun n e => n + e.2.toks.length) 0

/-- Every node of a core is tested, as often as tokens can be consumed (R38, R39). -/
def State.testNodes (s : State) (core : Nat) : Nat → State
  | 0 => s
  | n + 1 =>
    let is := ((s.core core).frames.filter (fun e => e.2.static && e.2.state != .free)).map (·.1)
    let s1 := is.foldl (fun t i => t.nodeTest core i) s
    if (s1.core core).tokCount < (s.core core).tokCount then s1.testNodes core n else s1

/-- The nodes of a core are tested after a change (R38, R39, R43, R44). -/
def State.evalCore (s : State) (core : Nat) : State := (s.testNodes core ((s.core core).tokCount + 1)).noteMarks core

/-! ## Tokens at frames (R33, R35, R40, R219) -/

/-- The 64-bit words of a payload of n bytes. -/
def payloadWords (data : Vec) (n : Nat) : List Word := (List.range (n / 8)).map (fun j => data.extractLsb' (64 * j) 64)

/-- The slot count of a HANDLER slot's frames: its hslot field, of which 23 to 31 act as 22 (R40; log 71). -/
def slotHslot (w : Word) : Nat := min 22 (slotBind w % 32)

/-- An arrival at a HANDLER slot (R40): a frame with the payload above its slots, with the payload's side-band on its words and 0 on
every other, and a ready entry on it. An arrival that finds no frame is dropped and recorded (R404 code 0x04). -/
def State.handlerArrival (s : State) (core i slot k : Nat) (data : Vec) (payload : Nat) (side : Byte) (sender : Handle) :
    State :=
  let f := (s.core core).frame i
  let w := s.fword core i slot
  let d := (s.core core).nodeDesc f.vnode
  let b := slotHslot w
  match s.allocFrame core 0 b f.vnode f.launch sender 0 true with
  | .ok s1 n =>
    let s2 := s1.initSlots core n b (freshSlot d)
    let s3 := s2.setFwords core n b side (payloadWords data payload)
    let s4 := (s3.setFword core n (b + 8) (sender.setWidth 64) 0).setFword core n (b + 9) (BitVec.ofNat 64 k) 0
    (s4.sendLaunch core f.launch 1).wake core { newReady n (slotEntry w) (slotPrio w) slot false with home := some (i, f.gen) }
  | _ => s.logErr { coreErr 0x0D 0x04 3 core (s.tenantOf core) with vnode := f.vnode, launch := f.launch }

/-- The frame makes progress (R431). -/
def Frame.touch (f : Frame) (cycle : Nat) : Frame := { f with progress := cycle, reported := false }

/-- A token is applied to a frame: payload, then slot, in one step (R219); beyond the frame's words or slots it is discarded
with a record (R376 code 0x0D). An arrival is progress of its frame (R431). At a checkpoint of its node a HANDLER slot's arrival waits at the core's input (R82; log 72). -/
def State.applyFrame (s : State) (core i slot k amount payload : Nat) (data : Vec) (side : Byte) (sender : Handle) : State :=
  let f := (s.core core).frame i
  if f.nslot ≤ slot then s.logErr (coreErr 0x05 0x0D 5 core (s.tenantOf core))
  else
    let w := s.fword core i slot
    if slotKind w = 3 ∧ slotValid w = true ∧ slotArmed w = true then
      if (s.core core).frameParked i then
        s.sendTok core (.core core) (.frame (.handle (mkHandle core i f.gen)) slot k amount payload data side sender false)
      else (s.modFrame core i (fun f => f.touch s.cycle)).handlerArrival core i slot k data payload side sender
    else if payload ≠ 0 ∧ f.words < k + payload / 8 then
      s.logErr (coreErr 0x05 0x0D 5 core (s.tenantOf core))
    else
      let s1 := (s.setFwords core i k side (payloadWords data payload)).modFrame core i (fun f => f.touch s.cycle)
      let w1 := s1.fword core i slot
      if slotKind w1 = 0 then s1.updateSlot core i slot (withCount w1 (slotCount w1 - BitVec.ofNat 24 amount)) else s1

/-- The core runs no firing and takes no token: retired (R364), or of a cluster that is fused off (R9; log 54). -/
def State.coreRetired (s : State) (core : Nat) : Bool :=
  !isSteward core && (bitN (s.cluster (clusterOf core)).health (coreInCluster core) || s.fusedOff (clusterOf core))

/-- The core accepts no token: BLOCKED (R384), or retired (R364). -/
def State.coreClosed (s : State) (core : Nat) : Bool :=
  !isSteward core && ((s.core core).cfg == .blocked || s.coreRetired core)

/-- A tenant owns a cluster: by its regions when it has any, else when the core runs its address space (R60, R86). -/
def State.owns (s : State) (tenant core : Nat) : Bool :=
  if s.regions.any (fun r => r.2.tenant == tenant) then
    s.regions.any (fun r => r.2.tenant == tenant && r.2.holds (clusterOf core))
  else (s.core core).asid == tenant

/-- The packet is a tenant's, for a core that the tenant does not own (R86, R405). -/
def State.foreign (s : State) (p : Packet) (core : Nat) : Bool :=
  p.tenant != 0 && !isSteward core && !s.owns p.tenant core

/-- The parked-context entry of a tenant at a die: its save-area address (R86). -/
def Die.parked (d : Die) (tenant : Nat) : Option Nat := (d.parkedCtx.find? (fun e => e.2.1 == tenant)).map (fun e => e.2.2)

/-- A foreign token goes to the spill ring or is dropped (R86, R405); one by handle that meets no frame of its colour, for
a tenant that is not parked, is discarded as any other (R33). -/
def State.diverted (s : State) (p : Packet) (core : Nat) : Bool :=
  s.foreign p core && ((s.die (dieOf core)).parked p.tenant).isSome

/-- The credit units of a token that was dropped go back to its producer's output port (R384, R417). -/
def State.refundToken (s : State) (core : Nat) (p : Packet) : State :=
  match p.msg with
  | .chan v port t => s.send { src := .core core, dst := p.src, cls := .token, tenant := p.tenant,
                               msg := .refuseTok v port t.cost, held := false }
  | _ => s

/-- A token for a closed core is dropped with a refusal acknowledgement that restores its credit. A BLOCKED core records its first
drop (R384), a retired core each one (R58, R364; log 54). -/
def State.dropToken (s : State) (core : Nat) (p : Packet) : State :=
  let s1 := if (s.core core).dropped && !s.coreRetired core then s
    else (s.logErr (coreErr 0x0A 0x40 5 core (s.tenantOf core))).modCore core (fun c => { c with dropped := true })
  s1.refundToken core p

/-- An ACTIVATION LOST message that does not meet its parent goes to the fault handler instead (R358). -/
def State.lostAgain (s : State) (core : Nat) (data : Vec) (sender : Handle) : State :=
  let r : Rec := data.setWidth 256
  if fieldN r 64 20 = faultNode then s else s.faultToken core r sender

/-- A frame token that meets no frame: by handle it is discarded (R33); one for a static node that has no node frame on its core is
dropped and reported (R58; log 67), and one that is not its tenant's core's waits for the spill ring (R405). -/
def State.discard (s : State) (k : Nat) (p : Packet) (core : Nat) (dest : FrameDest) : State :=
  match dest with
  | .handle _ => s.dropPkt k
  | .node v =>
    if s.foreign p core then s
    else (s.dropPkt k).logErr { coreErr 0x05 0x0D 5 core (s.tenantOf core) with vnode := v }

/-- FRAME_TOKEN_ARRIVAL (R219, R33, R35, R40, R49, R82, R384). -/
def frameTokenArrival (k : Nat) (s : State) : State :=
  match s.recv k with
  | none => s
  | some p =>
  match p.dst, p.msg with
  | .core core, .frame dest slot fw amount payload data side sender lost =>
    if s.coreClosed core then (s.dropPkt k).dropToken core p
    else if s.diverted p core then s
    else
      match s.frameOf core dest with
      | none => if lost then (s.dropPkt k).lostAgain core data sender else s.discard k p core dest
      | some i =>
        if !s.foreign p core && ((s.core core).frame i).state == .local && (s.core core).readyRoom && !s.slotWaits core i slot amount then
          ((s.dropPkt k).applyFrame core i slot fw amount payload data side sender)
        else s
  | _, _ => s

/-- FRAME_TOKEN_ARRIVAL. -/
def execFrameTokenArrival (pkt : Nat) : State → Host.Outcome State Fault Refusal := eventOf (frameTokenArrival pkt)

/-! ## Tokens and credits at channels -/

/-- CHANNEL_TOKEN_ARRIVAL (R42, R63, R384): the token enters the channel, a missing descriptor is fetched, and the nodes are
tested. A token for a port that no channel of the core serves is dropped and reported, its credit returned (R58; log 67). -/
def channelTokenArrival (k : Nat) (s : State) : State :=
  match s.recv k with
  | none => s
  | some p =>
  match p.dst, p.msg with
  | .core core, .chan v port t =>
    if s.coreClosed core then (s.dropPkt k).dropToken core p
    else if s.foreign p core then s
    else
      match (s.core core).chanOf v port with
      | none => ((s.dropPkt k).logErr { coreErr 0x05 0x0D 5 core (s.tenantOf core) with vnode := v }).refundToken core p
      | some i => ((((s.dropPkt k).modChan core i (fun ch => ch.push t s.cycle))).modCore core (fun c => c.want v)).evalCore core
  | _, _ => s

/-- CHANNEL_TOKEN_ARRIVAL. -/
def execChannelTokenArrival (pkt : Nat) : State → Host.Outcome State Fault Refusal := eventOf (channelTokenArrival pkt)

/-- Credit units reach a core's output port (R42). -/
def State.takeCredit (s : State) (core v port : Nat) (u : Int) : State :=
  match (s.core core).creditKey v port with
  | none => s
  | some key => (s.modCore core (fun c => c.addCredit key u)).evalCore core

/-- Key of an ingest unit's credits: the input port that it feeds, of a tenant's node (R287). -/
def ingestKey (tenant v port : Nat) : Nat := tenant * 2 ^ 22 + v * 4 + port

/-- Credit units reach an ingest unit: the watchdogs of the messages that had none start anew (R386, R387). -/
def State.addIngCredit (s : State) (die key : Nat) (u : Int) : State :=
  s.modDie die (fun e =>
    let c := tabGet 0 e.ingCredits key
    { e with ingCredits := tabSet e.ingCredits key (c + u),
             msgs := if c < 1 then e.msgs.map (fun m => if m.chan = key then { m with progress := s.cycle } else m) else e.msgs })

/-- CREDIT_RETURN (R42, R80). -/
def creditReturn (k : Nat) (s : State) : State :=
  match s.recv k with
  | some { msg := .credit v port u, dst := dst, tenant := t, .. } =>
    match dst with
    | .core core => (s.dropPkt k).takeCredit core v port u
    | .ingest d => (s.dropPkt k).addIngCredit d (ingestKey t v port) u
    | _ => s.dropPkt k
  | _ => s

/-- CREDIT_RETURN. -/
def execCreditReturn (pkt : Nat) : State → Host.Outcome State Fault Refusal := eventOf (creditReturn pkt)

/-! ## VOTE nodes (R430) -/

/-- Two tokens agree: kinds and data, not side-bands. -/
def agree (x y : Token) : Bool := x.kind == y.kind && x.data == y.data

/-- The compare buffer of a VOTE node. -/
def CoreSt.voteBuf (c : CoreSt) (v : Nat) : List (Nat × Token) := tabGet [] c.votes v

/-- The token at the head of a copy's port; a RECONFIG token is the channel's own and no position of the node (R80). -/
def CoreSt.copyHead (c : CoreSt) (v p : Nat) : Option Token := (c.headOf v p).filter (fun t => t.kind != .reconfig)

/-- The head of a copy's port, when it is of the oldest undecided position. -/
def CoreSt.voteHead (c : CoreSt) (v p : Nat) : Option Token :=
  if (c.voteBuf v).any (fun e => e.1 == p) then none else c.copyHead v p

/-- A VOTE record (R430). -/
def State.voteErr (s : State) (core v code copy : Nat) : State :=
  s.logErr { unitErr 0x16 code 5 core 0 copy (s.tenantOf core) with vnode := v }

/-- The decided token on every present output port. -/
def State.voteSend (s : State) (core v : Nat) (t : Token) : State :=
  (outPorts ((s.core core).nodeDesc v)).foldl (fun u p => u.nodeSend core v p t) s

/-- The first pair of copies whose heads agree on the undecided position: the pair, the third copy and the two tokens. -/
def CoreSt.votePair (c : CoreSt) (v : Nat) : Option (Nat × Nat × Nat × Token × Token) :=
  [(0, 1, 2), (0, 2, 1), (1, 2, 0)].findSome? (fun e =>
    match c.voteHead v e.1, c.voteHead v e.2.1 with
    | some x, some y => if agree x y then some (e.1, e.2.1, e.2.2, x, y) else none
    | _, _ => none)

/-- A copy's token for a decided position, if one stands at its head: the copy, the token, the kept value. -/
def CoreSt.voteLate (c : CoreSt) (v : Nat) : Option (Nat × Token × Token) :=
  (List.range 3).findSome? (fun p =>
    match (c.voteBuf v).find? (fun e => e.1 == p), c.copyHead v p with
    | some e, some t => some (p, t, e.2)
    | _, _ => none)

/-- The buffer without its oldest entry of a copy. -/
def dropVote (p : Nat) : List (Nat × Token) → List (Nat × Token)
  | [] => []
  | e :: t => if e.1 = p then t else e :: dropVote p t

/-- One decision of a VOTE node (R430): a late copy is compared, or the oldest undecided position is decided. -/
def State.voteStep (s : State) (core v : Nat) : State :=
  let c := s.core core
  let d := c.nodeDesc v
  if ndKind d ≠ 3 ∨ c.resident v = false then s
  else match c.voteLate v with
  | some (p, t, kept) =>
    let s1 := (s.consume core v p 1).modCore core (fun c => { c with votes := tabSet c.votes v (dropVote p (c.voteBuf v)) })
    if agree t kept then s1 else s1.voteErr core v 0x01 (p + 1)
  | none =>
    if 64 ≤ (c.voteBuf v).length then s
    else match c.votePair v with
    | some (p, q, r, x, y) =>
      let t := { x with side := x.side ||| y.side, colour := c.nodeColour v }
      if c.canSend v (outPorts d) t.cost then
        (((s.consume core v p 1).consume core v q 1).modCore core (fun c =>
          { c with votes := tabSet c.votes v (c.voteBuf v ++ [(r, x)]) })).voteSend core v t
      else s
    | none =>
      match c.voteHead v 0, c.voteHead v 1, c.voteHead v 2 with
      | some x, some _, some _ =>
        let t := { x with side := x.side ||| 0x20, colour := c.nodeColour v }
        if c.canSend v (outPorts d) t.cost then
          ((((s.consume core v 0 1).consume core v 1 1).consume core v 2 1).voteSend core v t).voteErr core v 0x02 0
        else s
      | _, _, _ => s

/-- VOTE_DECISION: a decision is progress of the node's frame (R431, log 53). -/
def voteDecision (core v : Nat) (s : State) : State :=
  let s1 := s.voteStep core v
  if (s.core core).chans = (s1.core core).chans then s1
  else (((s.core core).nodeFrame v).elim s1 (fun i => s1.modFrame core i (fun f => f.touch s.cycle)))

/-- VOTE_DECISION. -/
def execVoteDecision (core vnode : Nat) : State → Host.Outcome State Fault Refusal := eventOf (voteDecision core vnode)

end Sys2Proof.Machine
end

