-- ==== Sys2Proof/Machine/Schedule.lean ====
section
/-! DEFINITION. The dispatcher and the debugger (R45, R64 to R67, R407 to R410), ageing (R66, R74), continuations (R68),
descriptor fetches (R63), loop generators (R52, R53, R224), RECONFIG tokens (R80) and checkpoints (R81 to R83). -/

namespace Sys2Proof.Machine

/-! ## Dispatch (R45, R64, R66, R67) -/

/-- A ready entry may be dispatched: its node's descriptor is resident (R64); a steward core's firmware frames have none
(log 8). -/
def CoreSt.eligibleEntry (core : Nat) (c : CoreSt) (r : Ready) : Bool :=
  isSteward core || c.resident (c.frame r.frame).vnode

/-- The place of the entry that the dispatcher chooses: the highest priority, first in push order (R66). -/
def pickReady (ok : Ready → Bool) : Nat → List Ready → Option (Nat × Nat)
  | _, [] => none
  | n, r :: t =>
    match pickReady ok (n + 1) t with
    | none => if ok r then some (n, r.prio) else none
    | some (m, q) => if ok r ∧ q ≤ r.prio then some (n, r.prio) else some (m, q)

/-- The context of a firing (R45). -/
def CoreSt.ctxOf (c : CoreSt) (core : Nat) (r : Ready) : Ctx :=
  let f := c.frame r.frame
  { core := core, frame := r.frame, gen := f.gen, slot := r.slot, vnode := f.vnode, launch := f.launch, parent := f.parent,
    iter := f.iter, prio := r.prio, tenant := c.asid,
    reserved := !r.cont && (tabFind c.resvs (r.frame * 64 + r.slot)).isSome }

/-- A firing starts: its temporaries hold free values (R45, log 5). -/
def newFiring (x : Ctx) (pc fresh : Nat) : Firing :=
  { ctx := x, pc := pc, temps := Vector.ofFn (fun i => Config.freeVec (fresh + i.val)), flags := 0, issued := 0, held := 0,
    pops := [], allocs := [], jobs := [], launches := [], purged := false }

/-- A descriptor becomes the most recently dispatched of the store (R64). -/
def CoreSt.useDesc (c : CoreSt) (v : Nat) : CoreSt :=
  match c.descs.find? (fun e => e.1 == v) with
  | none => c
  | some e => { c with descs := c.descs.filter (fun x => x.1 != v) ++ [e] }

/-- The chosen ready entry becomes the running firing. -/
def State.startFiring (s : State) (core : Nat) : State :=
  let c := s.core core
  match pickReady (c.eligibleEntry core) 0 c.ready with
  | none => s
  | some (n, _) =>
    match c.ready[n]? with
    | none => s
    | some r =>
      let x := c.ctxOf core r
      let s1 := { s with fresh := s.fresh + 8 }.modCore core (fun c =>
        { (c.useDesc x.vnode) with ready := c.ready.eraseIdx n, firing := some (newFiring x r.entry s.fresh) })
      (s1.modFrame core r.frame (fun f => f.touch s.cycle)).evalCore core

/-- A core may start a firing: it runs none and has neither halted, stopped nor been retired, and is not BLOCKED (R364, R383). -/
def State.mayDispatch (s : State) (core : Nat) : Bool :=
  let c := s.core core
  c.firing.isNone && !c.halted && !c.stopped && c.cfg != .blocked && !s.coreRetired core

/-- DISPATCH: not while the debugger stops the core, but for one firing after a step (R67, R407). -/
def dispatch (core : Nat) (s : State) : State :=
  if s.mayDispatch core && !(s.core core).dbgStop then s.startFiring core else s

/-- DISPATCH. -/
def execDispatch (core : Nat) : State → Host.Outcome State Fault Refusal := eventOf (dispatch core)

/-! ## Ageing (R66, R74) -/

/-- Cycles at one level after which a waiting object moves up. -/
def ageLimit : Nat := 4096

/-- The queue of a core with the entry at a place moved to the tail of the next level up, when its age has passed. -/
def ageReady (cycle n : Nat) (l : List Ready) : List Ready :=
  match l[n]? with
  | none => l
  | some r =>
    if r.prio < 3 ∧ ageLimit < cycle - r.since then l.eraseIdx n ++ [{ r with prio := r.prio + 1, since := cycle }] else l

/-- A queued job whose age has passed goes to the next level up, where it comes behind those that reached it before (R74); the queue
keeps the order in which its jobs became QUEUED. -/
def ageJob (cycle id : Nat) (l : List Job) : List Job :=
  l.map (fun j => if j.id = id ∧ j.state = .queued ∧ j.prio < 3 ∧ ageLimit < cycle - j.since
    then { j with prio := j.prio + 1, since := cycle } else j)

/-- AGEING (R66, R74). -/
def ageing (o : AgeObject) (s : State) : State :=
  match o with
  | .ready core n => s.modCore core (fun c => { c with ready := ageReady s.cycle n c.ready })
  | .job q id => s.modJobs q (ageJob s.cycle id)

/-- AGEING. -/
def execAgeing (obj : AgeObject) : State → Host.Outcome State Fault Refusal := eventOf (ageing obj)

/-! ## The debugger (R407, R408, R410) -/

/-- DEBUG_STOP: the running firing goes on to its end, and nothing more is dispatched (R408). -/
def debugStop (core : Nat) (s : State) : State := s.modCore core (fun c => { c with dbgStop := true })
/-- DEBUG_STOP. -/
def execDebugStop (core : Nat) : State → Host.Outcome State Fault Refusal := eventOf (debugStop core)

/-- DEBUG_STEP: one firing is dispatched while the core is idle (R407). -/
def debugStep (core : Nat) (s : State) : State :=
  if s.mayDispatch core && (s.core core).dbgStop then s.startFiring core else s
/-- DEBUG_STEP. -/
def execDebugStep (core : Nat) : State → Host.Outcome State Fault Refusal := eventOf (debugStep core)

/-- A ready entry as its slot word now gives it (R410): the entry of a handler frame's first firing reads the HANDLER slot's word, while
that slot's frame stands. A marker entry is the node's, so an entry of reserved markers takes only its priority from its slot (log 34). -/
def State.reread (s : State) (core : Nat) (r : Ready) : Ready :=
  let c := s.core core
  let i := (r.home.map (·.1)).getD r.frame
  let f := c.frame i
  let w := s.fword core i r.slot
  let marked := (tabFind c.resvs (r.frame * 64 + r.slot)).any (fun v =>
    v.inToks.any (fun e => (c.headOf f.vnode e.1).any (fun t => t.kind != .data)))
  if f.nslot ≤ r.slot ∨ r.home.any (fun h => f.state == .free || f.gen != h.2) then r
  else { r with entry := if marked && !r.cont then r.entry else slotEntry w, prio := slotPrio w, bprio := slotPrio w }

/-- DEBUG_RESUME (R410). -/
def debugResume (core : Nat) (s : State) : State :=
  if (s.core core).dbgStop then
    s.modCore core (fun c => { c with dbgStop := false, ready := c.ready.map (s.reread core) })
  else s
/-- DEBUG_RESUME. -/
def execDebugResume (core : Nat) : State → Host.Outcome State Fault Refusal := eventOf (debugResume core)

/-! ## Continuations (R68) -/

/-- The counters of a waiting CONT are within its limits. -/
def Frame.contHolds (f : Frame) : Bool :=
  f.contwait && decide (f.nld ≤ f.limits.ld) && decide (f.npst ≤ f.limits.st) && decide (f.ncpy ≤ f.limits.cp)
    && decide (f.ntile ≤ f.limits.tl)

/-- A waiting CONT whose limits hold pushes its continuation, when the ready queue has room; a SPILLED frame is filled back
first (R68, R30). -/
def State.tryCont (s : State) (core i : Nat) : State :=
  let f := (s.core core).frame i
  if f.contHolds && (f.state == .local || f.state == .spilled) && (s.core core).readyRoom then
    let w := s.fword core i f.contslot
    (s.modFrame core i (fun f => { f with contwait := false })).wake core
      (newReady i (slotEntry w) (slotPrio w) f.contslot true)
  else s

/-- CONTINUATION_PUSH (R68). -/
def execContinuationPush (core frame : Nat) : State → Host.Outcome State Fault Refusal :=
  eventOf (fun s => s.tryCont core frame)

/-- A frame counter of the frame that a context names falls by one, if the frame is still the same (R29, R33). -/
def State.settle (s : State) (x : Ctx) (f : Frame → Frame) : State :=
  let fr := (s.core x.core).frame x.frame
  if fr.state != .free && fr.gen == x.gen then
    (s.modFrame x.core x.frame f).tryCont x.core x.frame
  else s

/-! ## Descriptors on demand (R63, R64) -/

/-- The store can give up a node's descriptor: no ready entry, no running firing, no reserved tokens. -/
def CoreSt.evictable (c : CoreSt) (v : Nat) : Bool :=
  c.ready.all (fun r => (c.frame r.frame).vnode != v) && c.firing.all (fun f => f.ctx.vnode != v)
    && c.resvs.all (fun e => (c.frame (e.1 / 64)).vnode != v)

/-- The store with room for one more descriptor, if it can be made: the least recently dispatched goes (R64). -/
def CoreSt.makeRoom (c : CoreSt) : Option CoreSt :=
  if c.descs.length < 64 then some c
  else (c.descs.find? (fun e => c.evictable e.1)).map (fun e => { c with descs := c.descs.filter (fun x => x.1 != e.1) })

/-- A descriptor enters a cluster's descriptor cache of 1,024 (R5); a full cache gives up the one that entered it first (log 71). -/
def dcachePut (l : Tab Rec) (v : Nat) (d : Rec) : Tab Rec :=
  let t := l.filter (fun e => e.1 != v)
  (if t.length < 1024 then t else t.drop 1) ++ [(v, d)]

/-- Where a node's descriptor stands in the graph's descriptor area: 32 bytes for each virtual node id (R63, R232; log 25). -/
def CoreSt.areaVa (c : CoreSt) (v : Nat) : Word := (BitVec.ofNat 48 (c.darea + 32 * v)).signExtend 64

/-- A node's descriptor from the descriptor area in HBM, with the state after that read (R63, R94); where the area has no page that can
be read, as CFGLD gave it (log 25). -/
def State.areaDesc (s : State) (core v : Nat) : Option (Rec × State) :=
  let c := s.core core
  match s.readVirt (dieOf core) c.asid (c.areaVa v) 32 with
  | some bs => some (BitVec.ofNat 256 (leNat bs), s.touchVirt (dieOf core) c.asid (c.areaVa v) 32)
  | none => (tabFind c.dareaTab v).map (fun d => (d, s))

/-- DESCRIPTOR_FETCH_COMPLETE: from the cluster descriptor cache, or the graph's descriptor area (R63). A descriptor that has just
been fetched ranks as the most recently dispatched (R64; log 71). -/
def descriptorFetchComplete (core v : Nat) (s : State) : State :=
  let c := s.core core
  let k := s.cluster (clusterOf core)
  let found := match tabFind k.dcache v with
    | some d => some (d, s)
    | none => s.areaDesc core v
  match c.fetching.contains v, found, c.makeRoom with
  | true, some (d, t), some c1 =>
    let s1 := t.setCore core { c1 with descs := c1.descs.filter (fun e => e.1 != v) ++ [(v, d)],
                                       fetching := c1.fetching.filter (fun x => x != v) }
    (s1.modCluster (clusterOf core) (fun k => { k with dcache := dcachePut k.dcache v d })).evalCore core
  | _, _, _ => s

/-- DESCRIPTOR_FETCH_COMPLETE. -/
def execDescriptorFetchComplete (core vnode : Nat) : State → Host.Outcome State Fault Refusal :=
  eventOf (descriptorFetchComplete core vnode)

/-! ## Loop generators (R52, R53, R224, R225) -/

/-- A generator of a core. -/
def CoreSt.gen (c : CoreSt) (g : Nat) : Gen := tabGet Gen.zero c.gens g
/-- The state with one generator changed. -/
def State.modGen (s : State) (core g : Nat) (f : Gen → Gen) : State :=
  s.modCore core (fun c => { c with gens := tabSet c.gens g (f (c.gen g)) })

/-- Level j takes its bounds from tokens. -/
def Gen.fromToken (g : Gen) (j : Nat) : Bool := g.bsrc / 2 ^ j % 2 == 1

/-- The levels j − 1 to 0, highest first: the sweeps that begin below level j. -/
def levelsBelow (j : Nat) : List Nat := (List.range j).reverse

/-- BOUND while the next sweep waits for its token, RUN otherwise. -/
def Gen.settleState (g : Gen) : Gen :=
  match g.need with
  | l :: _ => { g with state := if g.fromToken l then .bound else .run }
  | [] => { g with state := .run }

/-- Level l has ended an iteration: its next index, or the end of its sweep and the next index of the level above. -/
def Gen.next (g : Gen) : Nat → Nat → Gen
  | 0, _ => { g with done := true }
  | n + 1, l =>
    let i := tabGet 0 g.idx l + 1
    if i < tabGet 0 g.bounds l then { g with idx := tabSet g.idx l i, need := levelsBelow l }
    else if l + 1 < g.depth then g.next n (l + 1)
    else { g with done := true }

/-- The sweep of level l begins with a bound; a bound of 0 gives no iterations (R53). -/
def Gen.begin (g : Gen) (l b : Nat) (rest : List Nat) : Gen :=
  let g1 := { g with bounds := tabSet g.bounds l b, idx := tabSet g.idx l 0, need := rest }
  if b = 0 then (if l + 1 < g.depth then ({ g1 with need := [] }).next 4 (l + 1) else { g1 with need := [], done := true })
  else g1

/-- The data word of an index vector: levels beyond the depth hold 0 (R52). -/
def Gen.word (g : Gen) : Nat :=
  (List.range 4).foldl (fun n j => n + (if j < g.depth then tabGet 0 g.idx j % 65536 * 2 ^ (16 * j) else 0)) 0

/-- The token of an index vector. -/
def Gen.token (g : Gen) (colour : Nat) (side : Byte) : Token :=
  { kind := .data, side := side, colour := colour, vec := false, data := BitVec.ofNat 512 g.word }

/-- A token on every present output port of a GEN node. -/
def State.genSend (s : State) (core v : Nat) (t : Token) : State :=
  (outPorts ((s.core core).nodeDesc v)).foldl (fun u p => u.nodeSend core v p t) s

/-- GENERATOR_EMIT: one step of a generator. It sends a CHECKPOINT that was injected and holds; or ends its nest with END
markers; or takes the bound of its next sweep; or emits one index vector (R52, R53, R81). DESIGN CHOICE: a CHECKPOINT injected before the
END markers of a nest that has ended have been sent leaves before them (log 80). -/
def generatorEmit (core n : Nat) (s : State) : State :=
  let c := s.core core
  let g := c.gen n
  let outs := outPorts (c.nodeDesc g.vnode)
  if g.parked then s
  else if c.resident g.vnode = false then (if g.marked || g.state != .idle then s.modCore core (fun c => c.want g.vnode) else s)
  else if g.marked then
    if c.canSend g.vnode outs 1 then
      (s.modGen core n (fun g => { g with marked := false, parked := true })).genSend core g.vnode (c.marker g.vnode .checkpoint)
    else s
  else if g.state = .idle then s
  else if g.done ∨ g.stop then
    if c.canSend g.vnode outs 1 then
      (s.modGen core n (fun g => { Gen.zero with vnode := g.vnode })).genSend core g.vnode (c.marker g.vnode .endm)
    else s
  else match g.need with
    | l :: t =>
      if g.fromToken l then
        match c.headOf g.vnode l with
        | some tok =>
          if tok.kind = .data then
            (s.consume core g.vnode l 1).modGen core n (fun g => (g.begin l (fieldN tok.data 0 16) t).settleState)
          else s
        | none => s
      else s.modGen core n (fun g => (g.begin l (tabGet 0 g.dbound l) t).settleState)
    | [] =>
      if c.canSend g.vnode outs 1 then
        (s.modGen core n (fun g => (g.next 4 0).settleState)).genSend core g.vnode (g.token (c.nodeColour g.vnode) 0)
      else s

/-- GENERATOR_EMIT. -/
def execGeneratorEmit (core gen : Nat) : State → Host.Outcome State Fault Refusal := eventOf (generatorEmit core gen)

/-- A generator armed from its descriptor (R224): with resume the sweeps in progress keep their bounds and indices. -/
def armGen (d : Vec) : Gen :=
  let depth := fieldN d 38 2 + 1
  let bounds := (List.range 4).map (fun j => (j, fieldN d (64 + 16 * j) 16))
  let start := (List.range 4).map (fun j => (j, fieldN d (128 + 16 * j) 16))
  let g : Gen := { Gen.zero with vnode := fieldN d 16 20, depth := depth, bsrc := fieldN d 40 4, dbound := bounds }
  let g1 := if bitN d 44 then { g with bounds := bounds, idx := start } else { g with need := levelsBelow depth }
  g1.settleState

/-- LGEN_ARRIVAL: refused when the node is no GEN node or the generator is not IDLE (R224, R376 code 0x0C). -/
def lgenArrival (k : Nat) (s : State) : State :=
  match s.recv k with
  | some { msg := .lgen d x pc, dst := .core core, .. } =>
    let c := s.core core
    let n := fieldN d 36 2
    let v := fieldN d 16 20
    if ndKind (c.nodeDesc v) ≠ 1 ∨ (c.gen n).state ≠ .idle then (s.dropPkt k).refuseAct x pc 0x05 0x0C none
    else ((s.dropPkt k).modGen core n (fun _ => armGen d)).modCore core (fun c => c.want v)
  | _ => s

/-- LGEN_ARRIVAL. -/
def execLgenArrival (pkt : Nat) : State → Host.Outcome State Fault Refusal := eventOf (lgenArrival pkt)

/-! ## RECONFIG tokens (R80) -/

/-- Units of a core's token pool. -/
def CoreSt.poolUnits (c : CoreSt) : Nat := c.poolKiB * 64

/-- Channels in use other than one, by base. -/
def CoreSt.otherRuns (c : CoreSt) (i : Nat) : List (Nat × Nat) :=
  (c.chans.filter (fun e => e.1 != i && e.2.en)).map (fun e => (e.2.base, e.2.depth))

/-- The lowest base at which a run of units fits among others in the pool. -/
def poolFit (runs : List (Nat × Nat)) (total units : Nat) : Option Nat :=
  let fits (b : Nat) : Bool := decide (b + units ≤ total) &&
    runs.all (fun r => decide (b + units ≤ r.1) || decide (r.1 + r.2 ≤ b))
  ((0 :: runs.map (fun r => r.1 + r.2)).filter fits).foldl (fun m b => match m with
    | none => some b
    | some q => some (min q b)) none

/-- The channels moved together at the start of the pool, the one named last (R80). -/
def compact (i : Nat) : Nat → Tab Chan → Tab Chan
  | _, [] => []
  | b, (k, ch) :: t =>
    if ch.en && k != i then (k, { ch with base := b }) :: compact i (b + ch.depth) t else (k, ch) :: compact i b t

/-- RECONFIG_RELOCATION: the channel takes its new depth once the pool has room, or waits with rcfg = 1 (R80). Tokens behind the
marker that cost more than the new depth stay in the channel (log 73). -/
def reconfigRelocation (core i : Nat) (s : State) : State :=
  let c := s.core core
  let ch := c.chan i
  match ch.toks with
  | [] => s
  | t :: _ =>
    let depth := fieldN t.data 0 14
    let others := c.otherRuns i
    let used := others.foldl (fun n r => n + r.2) 0
    if t.kind ≠ .reconfig ∨ ch.en = false then s
    else if c.poolUnits < used + depth then s.modChan core i (fun ch => { ch with rcfg := true })
    else
      let s1 := match poolFit others c.poolUnits depth with
        | some b => s.modChan core i (fun ch => { ch with base := b })
        | none => (s.modCore core (fun c => { c with chans := compact i 0 c.chans })).modChan core i
            (fun ch => { ch with base := used })
      let moved (ch : Chan) : Chan :=
        { ch with depth := depth, rcfg := false, head := 0, tail := (ch.occ - t.cost) % max 1 depth,
                  occ := ch.occ - t.cost, toks := ch.toks.drop 1, times := ch.times.drop 1 }
      ((s1.modChan core i moved).giveCredit core ch ((t.cost : Int) + ((depth : Int) - (ch.depth : Int)))).evalCore core

/-- RECONFIG_RELOCATION. -/
def execReconfigRelocation (core channel : Nat) : State → Host.Outcome State Fault Refusal :=
  eventOf (reconfigRelocation core channel)

/-! ## Checkpoints (R81, R82) -/

/-- A live job of a node's firings is in a queue. -/
def nodeJob (core v : Nat) (l : List Job) : Bool := l.any (fun j => j.ctx.core == core && j.ctx.vnode == v)

/-- The context of a firing that a node's checkpoint waits for: one on the node frame, or of an activation that existed when the node
came to stand there (R82, step 2). -/
def CoreSt.holdsMark (c : CoreSt) (core v : Nat) (x : Ctx) : Bool :=
  x.core == core && x.vnode == v &&
    (((c.frame x.frame).static && (c.frame x.frame).gen == x.gen)
      || (tabGet [] c.ckpt v).contains (mkHandle core x.frame x.gen))

/-- The context of an outstanding request that a node's checkpoint waits for: any of the node but one of a later activation that still
stands (R82, R400). -/
def CoreSt.holdsReq (c : CoreSt) (core v : Nat) (x : Ctx) : Bool :=
  x.core == core && x.vnode == v &&
    (c.holdsMark core v x || (c.frame x.frame).state == .free || (c.frame x.frame).gen != x.gen)

/-- The context of a firing whose request a parked or walking request is: its own, or the source read of its contribution or
definition (R393, R400). -/
def XReq.ctx : XReq → Option Ctx
  | .core r => some r.ctx
  | .source _ _ (.hpput c) _ => some c.ctx
  | .source _ _ (.redChunk c) _ => some c.ctx
  | .source _ _ (.define _ _ x) _ => some x
  | _ => none

/-- The context of a request of this device that a packet carries. -/
def Req.here (r : Req) : Option Ctx := if r.dev = none then some r.ctx else none

/-- The contexts of the requests of cores that are in translation, parked or in the network (R400). -/
def State.reqContexts (s : State) (core : Nat) : List Ctx :=
  let k := s.cluster (clusterOf core)
  (k.walking ++ k.parked).filterMap XReq.ctx ++
  s.net.filterMap (fun p => match p.msg with
    | .access r => r.here
    | .loadResp r _ _ => r.here
    | .atomResp r _ _ => r.here
    | .ack r => r.here
    | .refuse r _ _ => r.here
    | _ => none)

/-- What a node's checkpoint waits for is over (R82, step 2): the activations that it had then are freed, the firings of its node frame
and theirs and what they held have ended, their requests are performed (R400), and every engine job of the node has retired. -/
def State.nodeQuiet (s : State) (core v : Nat) : Bool :=
  let c := s.core core
  let k := s.cluster (clusterOf core)
  (tabGet [] c.ckpt v).all (fun h => (c.frame (handleFrame h)).state == .free || (c.frame (handleFrame h)).gen != handleGen h)
    && c.ready.all (fun r => !((c.frame r.frame).static && (c.frame r.frame).vnode == v))
    && c.firing.all (fun f => !c.holdsMark core v f.ctx) && c.queue.all (fun h => !c.holdsMark core v h.ctx)
    && (s.reqContexts core).all (fun x => !c.holdsReq core v x)
    && !nodeJob core v k.pressQ && !nodeJob core v k.copyQ

/-- CHECKPOINT_PASS (R82, step 3; R83). A node with no marked port never stands at a checkpoint (log 72). -/
def checkpointPass (core v : Nat) (s : State) : State :=
  let c := s.core core
  let d := c.nodeDesc v
  if c.resident v && ndKind d != 1 && c.atCheckpoint v && s.nodeQuiet core v && c.canSend v (outPorts d) 1 then
    ((((markedPorts v d).foldl (fun t p => t.consume core v p 1) s).sendMarkers core v .checkpoint (outPorts d)).modCore core
      (fun c => { c with ckpt := tabDel c.ckpt v })).evalCore core
  else s

/-- CHECKPOINT_PASS. -/
def execCheckpointPass (core vnode : Nat) : State → Host.Outcome State Fault Refusal := eventOf (checkpointPass core vnode)

/-- GEN nodes of a core, by their descriptors. -/
def CoreSt.genNodes (c : CoreSt) : List Nat :=
  (c.frames.filter (fun e => e.2.static && e.2.state != .free && ndKind (c.nodeDesc e.2.vnode) == 1)).map (fun e => e.2.vnode)

/-- A GEN node's generator meets a CHECKPOINT; a GEN node that holds none takes the lowest idle one to send it. -/
def CoreSt.markGen (c : CoreSt) (v : Nat) : CoreSt :=
  let n := match (List.range 4).find? (fun n => (c.gen n).vnode == v && (c.gen n).state != .idle) with
    | some n => n
    | none => ((List.range 4).find? (fun n => (c.gen n).state == .idle && !(c.gen n).marked)).getD 0
  { c with gens := tabSet c.gens n { (c.gen n) with vnode := v, marked := true } }.want v

/-- A CHECKPOINT token from the steward of a die to a start port (R81). -/
def State.injectStart (s : State) (core : Nat) (ch : Chan) : State :=
  s.send { src := .core (stewardOf (dieOf core)), dst := .core core, cls := .token, tenant := s.tenantOf core,
           msg := .chan ch.vnode ch.port { kind := .checkpoint, side := 0, colour := 0, vec := false, data := 0 }, held := false }

/-- The checkpoint is injected on one core. -/
def State.injectCore (s : State) (core : Nat) : State :=
  let c := s.core core
  let s1 := c.chans.foldl (fun t e => if e.2.en && e.2.pcore == startPort then t.injectStart core e.2 else t) s
  c.genNodes.foldl (fun t v => t.modCore core (fun c => c.markGen v)) s1

/-- CHECKPOINT_INJECTION: into every start-fed input port and every GEN node of an address space whose context is RUNNING, which
goes to MARKING (R81, R85). -/
def checkpointInjection (asid : Nat) (s : State) : State :=
  let cores := s.cores.filter (fun e => e.2.cfg == .loaded && e.2.asid == asid && !isSteward e.1)
  match cores with
  | [] => s
  | e :: _ =>
    if s.drains.any (fun d => d.asid == asid) then s
    else cores.foldl (fun t e => t.injectCore e.1)
      { s with drains := s.drains ++ [{ asid := asid, gwork := e.2.gwork, phase := .marking, since := s.cycle, sinks := [] }] }

/-- CHECKPOINT_INJECTION. -/
def execCheckpointInjection (asid : Nat) : State → Host.Outcome State Fault Refusal := eventOf (checkpointInjection asid)

end Sys2Proof.Machine
end

