-- ==== Sys2Proof/Machine/Sha.lean ====
section
/-! DEFINITION. SHA-256 (FIPS 180-4), which the security processor uses (R196, R340, R343, R436). Its constants are computed from
their definition: bits of the roots of the first primes. -/

namespace Sys2Proof.Machine

/-- A 32-bit word of the hash function. -/
abbrev ShaWord := BitVec 32

/-- The largest r, of n bits more than are found, with r to a power no larger than a number. -/
def rootFloor (power x : Nat) : Nat → Nat → Nat
  | 0, r => r
  | n + 1, r => if (r + 2 ^ n) ^ power ≤ x then rootFloor power x n (r + 2 ^ n) else rootFloor power x n r

/-- The first 32 bits of the fraction of a number's root: its root with 32 more places. -/
def rootWord (power p : Nat) : ShaWord := BitVec.ofNat 32 (rootFloor power (p * 2 ^ (32 * power)) 37 0)

/-- The 64 primes below 312. -/
def shaPrimes : List Nat :=
  (List.range 312).filter (fun n => decide (2 ≤ n) && [2, 3, 5, 7, 11, 13, 17].all (fun d => n == d || n % d != 0))

/-- The digest being formed: eight words, of which a round takes the fifth to the seventh for its choice and the first three for its
majority. -/
structure ShaVars where
  a : ShaWord
  b : ShaWord
  c : ShaWord
  d : ShaWord
  e : ShaWord
  f : ShaWord
  g : ShaWord
  h : ShaWord
  deriving DecidableEq, Repr

/-- Eight words in order. -/
def ShaVars.ofFn (w : Nat → ShaWord) : ShaVars :=
  { a := w 0, b := w 1, c := w 2, d := w 3, e := w 4, f := w 5, g := w 6, h := w 7 }

/-- The words in order. -/
def ShaVars.words (v : ShaVars) : List ShaWord := [v.a, v.b, v.c, v.d, v.e, v.f, v.g, v.h]

/-- The exclusive or of three rotations of a word to the right; a shift in place of the last for a schedule word. -/
def shaSpread (x : ShaWord) (i j k : Nat) (shift : Bool) : ShaWord :=
  x.rotateRight i ^^^ x.rotateRight j ^^^ (if shift then x >>> k else x.rotateRight k)

/-- The word sixteen places behind the first of a window of sixteen schedule words. -/
def shaNext (w : List ShaWord) : ShaWord :=
  let at_ (i : Nat) : ShaWord := w.getD i 0
  at_ 0 + at_ 9 + shaSpread (at_ 1) 7 18 3 true + shaSpread (at_ 14) 17 19 10 true

/-- A round with its constant, on the window of the schedule and the words: the window moves on by one. -/
def shaRound (s : List ShaWord × ShaVars) (k : ShaWord) : List ShaWord × ShaVars :=
  let v := s.2
  let pick := (v.e &&& (v.f ^^^ v.g)) ^^^ v.g
  let most := (v.a &&& (v.b ||| v.c)) ||| (v.b &&& v.c)
  let t := v.h + k + s.1.headD 0 + pick + shaSpread v.e 6 11 25 false
  (s.1.drop 1 ++ [shaNext s.1],
   { v with b := v.a, c := v.b, d := v.c, f := v.e, g := v.f, h := v.g, e := v.d + t, a := t + most + shaSpread v.a 2 13 22 false })

/-- A block of sixteen words enters the digest. -/
def shaBlock (v : ShaVars) (block : List ShaWord) : ShaVars :=
  let r := ((shaPrimes.map (rootWord 3)).foldl shaRound (block, v)).2
  ShaVars.ofFn (fun i => v.words.getD i 0 + r.words.getD i 0)

/-- The words of a padded message: the message, 0x80, zeros, and its length in bits in the last 8 bytes. -/
def shaWords (m : List Byte) : List ShaWord :=
  let blocks := (m.length + 72) / 64
  let tail : List Byte := 0x80 :: (List.replicate (64 * blocks - m.length - 9) 0 ++ (leBytes 8 (8 * m.length)).reverse)
  let bytes := m ++ tail
  (List.range (16 * blocks)).map (fun i => BitVec.ofNat 32 (leNat ((bytes.drop (4 * i)).take 4).reverse))

/-- The digest after n blocks. -/
def shaRun : Nat → ShaVars → List ShaWord → ShaVars
  | 0, v, _ => v
  | n + 1, v, w => shaRun n (shaBlock v (w.take 16)) (w.drop 16)

/-- The SHA-256 digest of a byte list: 32 bytes. -/
def sha256 (m : List Byte) : List Byte :=
  let w := shaWords m
  (shaRun (w.length / 16) (ShaVars.ofFn (fun i => rootWord 2 (shaPrimes.getD i 0))) w).words.flatMap
    (fun x => (leBytes 4 x.toNat).reverse)

end Sys2Proof.Machine
end

