-- ==== Sys2Proof/Machine/Lms.lean ====
section
/-! DEFINITION. The verification of a Leighton-Micali signature with SHA-256 (RFC 8554), which the security processor uses on images
(R196, R340, R436; log 20), and the device's own signatures with its identity key, LMS_SHA256_M32_H20 with LM-OTS_SHA256_N32_W4
(R343, R344; log 19). -/

namespace Sys2Proof.Machine

/-- A number as n bytes, big-endian. -/
def beBytes (n v : Nat) : List Byte := (leBytes n v).reverse

/-- The number that big-endian bytes hold. -/
def beNat (l : List Byte) : Nat := leNat l.reverse

/-- Parameters of an LM-OTS type: bits of a digit, digits, checksum shift. -/
def lmotsParams : Nat → Option (Nat × Nat × Nat)
  | 1 => some (1, 265, 7)
  | 2 => some (2, 133, 6)
  | 3 => some (4, 67, 4)
  | 4 => some (8, 34, 0)
  | _ => none

/-- Height of an LMS tree by its type. -/
def lmsHeight : Nat → Option Nat
  | 5 => some 5
  | 6 => some 10
  | 7 => some 15
  | 8 => some 20
  | 9 => some 25
  | _ => none

/-- Digit i of w bits of a byte string. -/
def lmsCoef (l : List Byte) (i w : Nat) : Nat :=
  (l.getD (i * w / 8) 0).toNat / 2 ^ (8 - (w * (i % (8 / w)) + w)) % 2 ^ w

/-- The checksum of a digest's digits. -/
def lmotsSum (q : List Byte) (w ls : Nat) : List Byte :=
  beBytes 2 ((List.range (256 / w)).foldl (fun n i => n + (2 ^ w - 1 - lmsCoef q i w)) 0 * 2 ^ ls)

/-- A hash chain of one digit from place j on, n more times. -/
def lmotsChain (pre : List Byte) (i : Nat) : Nat → Nat → List Byte → List Byte
  | 0, _, x => x
  | n + 1, j, x => lmotsChain pre i n (j + 1) (sha256 (pre ++ beBytes 2 i ++ beBytes 1 j ++ x))

/-- The LM-OTS public key that a signature gives for a message. -/
def lmotsKey (pre : List Byte) (par : Nat × Nat × Nat) (c y msg : List Byte) : List Byte :=
  let (w, p, ls) := par
  let q := sha256 (pre ++ [0x81, 0x81] ++ c ++ msg)
  let d := q ++ lmotsSum q w ls
  sha256 (pre ++ [0x80, 0x80] ++ (List.range p).flatMap (fun i =>
    let a := lmsCoef d i w
    lmotsChain pre i (2 ^ w - 1 - a) a ((y.drop (32 * i)).take 32)))

/-- The root that a leaf and its path give: h levels from a node up. -/
def lmsRoot (ident path : List Byte) : Nat → Nat → List Byte → List Byte
  | 0, _, x => x
  | h + 1, node, x =>
    let s := path.take 32
    let up := ident ++ beBytes 4 (node / 2) ++ [0x83, 0x83]
    lmsRoot ident (path.drop 32) h (node / 2) (sha256 (up ++ (if node % 2 = 1 then s ++ x else x ++ s)))

/-- The signature verifies under the key over the message. -/
def lmsVerify (key sig msg : List Byte) : Bool :=
  let ident := (key.drop 8).take 16
  let q := beNat (sig.take 4)
  match lmsHeight (beNat (key.take 4)), lmotsParams (beNat ((key.drop 4).take 4)) with
  | some h, some par =>
    let rest := (sig.drop 40).drop (32 * par.2.1)
    let pre := ident ++ beBytes 4 q
    decide (key.length = 56) && decide (sig.length = 44 + 32 * par.2.1 + 32 * h) && decide (q < 2 ^ h)
      && (sig.drop 4).take 4 == (key.drop 4).take 4 && rest.take 4 == key.take 4
      && lmsRoot ident (rest.drop 4) h (2 ^ h + q)
          (sha256 (ident ++ beBytes 4 (2 ^ h + q) ++ [0x82, 0x82] ++ lmotsKey pre par ((sig.drop 8).take 32) (sig.drop 40) msg))
        == key.drop 24
  | _, _ => false

/-- What the security processor finds on an image at a physical address (R436): 2 PASS, 3 DIGEST, 4 SIGNATURE. -/
def State.verifyImageAt (s : State) (pa sigoff siglen : Nat) : Nat :=
  let header := memBytes s.mem pa 64
  if sha256 (memBytes s.mem (pa + 64) (sigoff - 64)) ≠ header.drop 32 then 3
  else if lmsVerify s.boot.imageKey (memBytes s.mem (pa + sigoff) siglen) header then 2
  else 4

/-! ## The identity key (R343) -/

/-- n bytes by their place. -/
def bytesFn (n : Nat) (f : Nat → Byte) : List Byte := (List.range n).map f

/-- LM-OTS type 3, of digits of 4 bits, and LMS type 8, of height 20. -/
def identityPar : Nat × Nat × Nat := (4, 67, 4)

/-- The identifier and leaf number that every hash of a leaf begins with. -/
def identityPre (leaf : Nat) : List Byte := bytesFn 16 Config.identityId ++ beBytes 4 leaf

/-- The chain of a digit, from the secret string to a place. -/
def identityChain (leaf i n : Nat) : List Byte := lmotsChain (identityPre leaf) i n 0 (bytesFn 32 (Config.identityByte leaf i))

/-- The LM-OTS public key of a leaf. -/
def identityOts (leaf : Nat) : List Byte :=
  sha256 (identityPre leaf ++ [0x80, 0x80] ++ (List.range identityPar.2.1).flatMap (fun i => identityChain leaf i 15))

/-- A node of the tree, h levels above the leaves. -/
def identityNode : Nat → Nat → List Byte
  | 0, node => sha256 (bytesFn 16 Config.identityId ++ beBytes 4 node ++ [0x82, 0x82] ++ identityOts (node % 2 ^ 20))
  | h + 1, node =>
    sha256 (bytesFn 16 Config.identityId ++ beBytes 4 node ++ [0x83, 0x83] ++ identityNode h (2 * node) ++ identityNode h (2 * node + 1))

/-- The device's signature over a message with a leaf (RFC 8554): leaf number, LM-OTS type, randomiser and digits, LMS type and path. -/
def lmsSign (leaf : Nat) (msg : List Byte) : List Byte :=
  let (w, p, ls) := identityPar
  let c := bytesFn 32 (Config.identityRandom leaf)
  let q := sha256 (identityPre leaf ++ [0x81, 0x81] ++ c ++ msg)
  let d := q ++ lmotsSum q w ls
  beBytes 4 leaf ++ beBytes 4 3 ++ c ++ (List.range p).flatMap (fun i => identityChain leaf i (lmsCoef d i w)) ++ beBytes 4 8
    ++ (List.range 20).flatMap (fun h =>
      let node := (2 ^ 20 + leaf) / 2 ^ h
      identityNode h (if node % 2 = 0 then node + 1 else node - 1))

end Sys2Proof.Machine
end

