-- ==== Sys2Proof/Machine/Image.lean ====
section
/-! DEFINITION. The checks that the steward firmware makes of a graph image before it loads it (R191 to R195, R338, R385, R438). -/

namespace Sys2Proof.Machine

/-! ## CRC-32C (R193, R282) -/

/-- A byte of the CRC-32C (R282). -/
def crcByte (crc : Nat) (b : Byte) : Nat :=
  (List.range 8).foldl (fun c _ => if c % 2 = 1 then (c / 2) ^^^ 0x82F63B78 else c / 2) (crc ^^^ b.toNat)

/-- CRC-32C of bytes. -/
def crc32c (bs : List Byte) : Nat := (bs.foldl crcByte 0xFFFFFFFF) ^^^ 0xFFFFFFFF

/-! ## Fields of an image (R191 to R193) -/

/-- The number in n bytes of an image, from byte o on. -/
def State.img (s : State) (pa o n : Nat) : Nat := leNat (memBytes s.mem (pa + o) n)

/-- Sections of an image. -/
def State.imgSections (s : State) (pa : Nat) : Nat := s.img pa 10 2
/-- Byte offset of the section table. -/
def State.imgSectab (s : State) (pa : Nat) : Nat := s.img pa 16 4
/-- Byte offset of the relocation table. -/
def State.imgReloff (s : State) (pa : Nat) : Nat := s.img pa 20 4
/-- Byte offset of the signature. -/
def State.imgSigoff (s : State) (pa : Nat) : Nat := s.img pa 24 4
/-- Bytes of an image. -/
def State.imgSize (s : State) (pa : Nat) : Nat := s.imgSigoff pa + s.img pa 28 4
/-- Byte offset of the table entry of section i. -/
def State.imgEntry (s : State) (pa i : Nat) : Nat := s.imgSectab pa + 16 * i
/-- Byte offset of section i. -/
def State.imgSection (s : State) (pa i : Nat) : Nat := s.img pa (s.imgEntry pa i + 4) 4
/-- 32-bit words of section i. -/
def State.imgWords (s : State) (pa i : Nat) : Nat := s.img pa (s.imgEntry pa i + 8) 4

/-- The sections that the firmware loads: those of fold 0 (R192, R438). -/
def State.imgLoaded (s : State) (pa : Nat) : List Nat := (List.range (s.img pa 70 2)).map (s.img pa 68 2 + ·)

/-- The first of some conditions that holds, by what stands beside it. -/
def firstOf {α : Type} (l : List (Bool × α)) : Option α := (l.find? (fun e => e.1)).map (·.2)

/-! ## The checks (R385) -/

/-- Code 0x03: the fields of a fold's entry. Fold 0 is carried and equals the region, which has the header's width and height; the others
fit inside it, and an entry that is not carried is zero (R192, R385). -/
def State.foldBad (s : State) (pa k : Nat) : Option Nat :=
  let o := 64 + 8 * k
  let w := s.img pa (o + 1) 1
  let h := s.img pa (o + 2) 1
  let first := s.img pa (o + 4) 2
  let count := s.img pa (o + 6) 2
  if s.img pa o 1 = 0 then firstOf [(k == 0 || s.img pa o 8 != 0, o)]
  else firstOf
    [(decide (1 < s.img pa o 1) || decide (w < 1) || decide (h < 1) || decide (s.img pa 6 1 < w) || decide (s.img pa 7 1 < h)
        || (k == 0 && (w != s.img pa 6 1 || h != s.img pa 7 1)) || s.img pa (o + 3) 1 != 0, o),
     (decide (w * h < count) || decide (s.imgSections pa < first + count), o + 4)]

/-- Code 0x03: the header and fold table fields, by the word of the first that is out of range (R191, R192). -/
def State.headerBad (s : State) (pa : Nat) : Option Nat :=
  let carried := ((List.range 4).filter (fun k => s.img pa (64 + 8 * k) 1 != 0)).length
  (firstOf [(decide (s.img pa 6 1 < 1) || decide (48 < s.img pa 6 1) || decide (s.img pa 7 1 < 1) || decide (10 < s.img pa 7 1), 4),
    (decide (s.img pa 8 1 < 1) || decide (4 < s.img pa 8 1) || s.img pa 8 1 != carried, 8)]).or
      ((List.range 4).findSome? (s.foldBad pa))

/-- Code 0x07: the offsets of the header, whose tables lie behind each other in the image, by their words (R191; log 37). -/
def State.offsetBad (s : State) (pa limit : Nat) : Option Nat :=
  firstOf
    [(decide (s.imgSectab pa < 96) || decide (s.imgReloff pa < s.imgSectab pa + 16 * s.imgSections pa), 16),
     (decide (s.imgSigoff pa < s.imgReloff pa) || (s.imgSigoff pa - s.imgReloff pa) % 8 != 0, 20),
     (decide (s.imgSigoff pa < 96), 24), (decide (limit < pa + s.imgSize pa), 28)]

/-- Code 0x07: the place and length of a section, of 65,536 words at most (R193, R438), by the words of its table entry. -/
def State.sectionBad (s : State) (pa i : Nat) : Option Nat :=
  let o := s.imgSection pa i
  firstOf
    [(decide (o < 96) || o % 8 != 0, s.imgEntry pa i + 4),
     (decide (65536 < s.imgWords pa i) || decide (s.imgReloff pa < o + 4 * s.imgWords pa i), s.imgEntry pa i + 8)]

/-- The code blocks of a section, from byte o to its end: where the payload of each begins, and its bytes (R194). -/
def State.codeBlocks (s : State) (pa hi : Nat) : Nat → Nat → List (Nat × Nat)
  | 0, _ => []
  | n + 1, o =>
    if hi < o + 8 then []
    else
      let len := s.img pa (o + 4) 4
      (if s.img pa o 1 = 6 then [(o + 8, len)] else []) ++ s.codeBlocks pa hi n (o + 8 + (len + 7) / 8 * 8)

/-- Code 0x0A: a code block of a section on a page of the firmware's address space with X = 0 (R111; log 37), by its place. -/
def State.codePageBad (s : State) (die pa i : Nat) : Option Nat :=
  let o := s.imgSection pa i
  let n := s.imgWords pa i
  ((s.codeBlocks pa (o + 4 * n) (n / 2) o).flatMap (fun e =>
    (pageSpans (BitVec.ofNat 64 (pa + e.1)) e.2).map (fun p => p.1.toNat))).findSome? (fun a =>
      match s.walk die (s.core (stewardOf die)).asid (BitVec.ofNat 64 a) with
      | .leaf _ pte _ => if pte.getLsbD 4 then none else some (a - pa)
      | _ => none)

/-- Code 0x06: the CRC-32C of a section, by its word of the table entry (R193). -/
def State.crcBad (s : State) (pa i : Nat) : Option Nat :=
  firstOf [(crc32c (memBytes s.mem (pa + s.imgSection pa i) (4 * s.imgWords pa i)) != s.img pa (s.imgEntry pa i + 12) 4,
    s.imgEntry pa i + 12)]

/-- Code 0x08: a relocation of a reserved kind, or of a field outside its section, by its entry (R195). -/
def State.relocBad (s : State) (pa i : Nat) : Option Nat :=
  let o := s.imgReloff pa + 8 * i
  let sec := s.img pa o 2
  let kind := s.img pa (o + 2) 1
  let word := s.img pa (o + 4) 4
  firstOf [(decide (kind < 1) || decide (2 < kind) || decide (s.imgSections pa ≤ sec) || word % 8 != 0
    || decide (4 * s.imgWords pa sec < word + 8) || decide (64 < s.img pa (o + 3) 1 + (if kind = 1 then 13 else 10)), o)]

/-- Clusters of a region that are not fused off. -/
def State.working (s : State) (r : Region) : Nat :=
  ((List.range 480).filter (fun c => r.holds c && !s.fusedOff c)).length

/-- Code 0x09: the job's region, where it has been allotted, holds fewer working clusters than fold 0 has sections (R438; log 37). -/
def State.regionShort (s : State) (job pa : Nat) : Bool :=
  s.regions.any (fun e => e.2.job == job && decide (s.working e.2 < s.img pa 70 2))

/-- What a failing check of R385 gives: its code and the byte of the image that the record names. -/
def codeAt (code : Nat) (o : Option Nat) : Option (Nat × Nat) := o.map (fun o => (code, o))

/-- The digest and the signature, as the security processor finds them (R436): codes 0x04 and 0x05. -/
def State.signatureBad (s : State) (pa : Nat) : Option (Nat × Nat) :=
  match s.verifyImageAt pa (s.imgSigoff pa) (s.img pa 28 4) with
  | 2 => none
  | 3 => some (0x04, 32)
  | _ => some (0x05, s.imgSigoff pa)

/-- The checks of an image of a chain that ends at a byte, in the order in which the firmware makes them: the first that fails, with its
IMAGE code and the byte of the image that its record names (R385; log 37). CODESEAL rejections, code 0x0B, come with the load. -/
def State.imageFault (s : State) (die job pa limit : Nat) : Option (Nat × Nat) :=
  (codeAt 0x01 (firstOf [(s.img pa 0 4 != 0x4756544F, 0)])).or <|
  (codeAt 0x02 (firstOf [(s.img pa 4 2 != 1, 4)])).or <|
  (codeAt 0x03 (s.headerBad pa)).or <|
  (codeAt 0x07 (s.offsetBad pa limit)).or <|
  (codeAt 0x07 ((List.range (s.imgSections pa)).findSome? (s.sectionBad pa))).or <|
  (codeAt 0x0A ((s.imgLoaded pa).findSome? (s.codePageBad die pa))).or <|
  (codeAt 0x09 (firstOf [(s.regionShort job pa, 64)])).or <|
  (s.signatureBad pa).or <|
  (codeAt 0x06 ((s.imgLoaded pa).findSome? (s.crcBad pa))).or <|
  codeAt 0x08 ((List.range ((s.imgSigoff pa - s.imgReloff pa) / 8)).findSome? (s.relocBad pa))

/-- Bytes of an image that its checks read: all of it when it lies within its chain, else its header. -/
def State.imgRead (s : State) (pa limit : Nat) : Nat := if pa + s.imgSize pa ≤ limit then max 64 (s.imgSize pa) else 64

/-- The image of a chain behind one (R338): the next multiple of 4,096 at or after its end. -/
def State.imageAfter (s : State) (pa : Nat) : Nat := (pa + s.imgSize pa + 4095) / 4096 * 4096

end Sys2Proof.Machine
end

