-- ==== Sys2Proof/Machine/Work.lean ====
section
/-! DEFINITION. The work table: launches at their target (R226), completion counters and completion tokens (R56, R448,
R449), CANCEL and its purge (R57), job submissions, their replies and their image chains (R337, R338, R360). -/

namespace Sys2Proof.Machine

/-! ## Levels (R54, R55) -/

/-- Every work table entry of the package that is not FREE: die, index, entry. -/
def State.workEntries (s : State) : List (Nat × Nat × Work) :=
  s.dies.flatMap (fun d => (d.2.work.filter (fun e => e.2.state != .free)).map (fun e => (d.1, e.1, e.2)))

/-- The entry belongs to a level directly: it names it as its parent, one level down. -/
def isChild (die i level : Nat) (w : Work) : Bool := w.pdie == die && w.pidx == i && w.level + 1 == level

/-- Entries below an entry, lower ones first; n levels deep. -/
def State.workBelow (s : State) : Nat → Nat → Nat → List (Nat × Nat)
  | 0, _, _ => []
  | n + 1, die, i =>
    (s.workEntries.filter (fun e => isChild die i (s.work die i).level e.2.2)).flatMap (fun e =>
      s.workBelow n e.1 e.2.1 ++ [(e.1, e.2.1)])

/-- An entry and the levels above it, as die and index; n levels high. -/
def State.levelsUp (s : State) : Nat → Nat → Nat → List (Nat × Nat)
  | 0, die, i => [(die, i)]
  | n + 1, die, i =>
    let w := s.work die i
    (die, i) :: (if w.level = 0 ∨ w.level = 4 then [] else s.levelsUp n w.pdie w.pidx)

/-- The levels that a work table id belongs to. -/
def State.levelsOf (s : State) (id : Nat) : List (Nat × Nat) := s.levelsUp 3 (id / 2 ^ 14 % 4) (id % 256)

/-- The levels that a frame of a core belongs to: its launch's, or the graph's for a frame of no launch. -/
def State.frameLevels (s : State) (core : Nat) (f : Frame) : List (Nat × Nat) :=
  s.levelsOf (if f.launch = 0 then (s.core core).gwork else f.launch)

/-- The work table id of an entry. -/
def State.workId (s : State) (die i : Nat) : Nat := mkLaunch die (s.work die i).seq i

/-! ## Completion (R56, R448, R449) -/

/-- The completion token: amount 1, the status in its data (R56). No frame word is named for it, so a COUNT slot's frame
receives the arrival alone and a HANDLER slot the status (log 36). -/
def State.workToken (s : State) (die : Nat) (w : Work) (status : Nat) : State :=
  if w.chandle = 0 then s
  else s.send { src := .work die, dst := .core (handleCore w.chandle), cls := .token, tenant := w.tenant,
                msg := .frame (.handle w.chandle) w.cslot 0 1 0 (BitVec.ofNat 512 status) 0 0 false, held := false }

/-- A reply datagram to a submission (R337): tag, code, status, work table id. -/
def replyBytes (tag : Word) (code status id : Nat) : List Byte :=
  leBytes 8 tag.toNat ++ [BitVec.ofNat 8 code, BitVec.ofNat 8 status] ++ leBytes 2 id ++ leBytes 4 0

/-- Something leaves the part. -/
def State.emitOut (s : State) (o : Out) : State := { s with outbox := s.outbox ++ [o] }

/-! ## CANCEL (R57, R360) -/

/-- A frame of the core, or the core's graph, belongs to a level. -/
def State.coreHolds (s : State) (core die i : Nat) : Bool :=
  let c := s.core core
  (s.levelsOf c.gwork).contains (die, i) ||
    c.frames.any (fun e => e.2.state != .free && (s.frameLevels core e.2).contains (die, i))

/-- An entry goes to CANCELLING with the status it will end with, unless it is DONE or already there. -/
def State.cancelEntry (s : State) (die i status : Nat) : State :=
  let w := s.work die i
  if w.state = .opened then s.setWork die i { w with state := .cancelling, status := status } else s

/-- A level is cancelled (R57): it and the levels below it go to CANCELLING, and every core that holds an activation of it is
told; by containment its own status is 2, else 1. -/
def State.cancelLevel (s : State) (die i : Nat) (contain : Bool) : State :=
  if (s.work die i).state ≠ .opened then s
  else
    let cores := (s.cores.filter (fun e => !isSteward e.1 && s.coreHolds e.1 die i)).map (·.1)
    let s1 := (s.workBelow 3 die i).foldl (fun t e => t.cancelEntry e.1 e.2 1) s
    let s2 := s1.cancelEntry die i (if contain then 2 else 1)
    let s3 := s2.setWork die i { (s2.work die i) with acks := cores }
    cores.foldl (fun t c => t.send { src := .work die, dst := .core c, cls := .token, tenant := 0,
                                     msg := .purge die i, held := false }) s3

/-! ## Job submissions and image chains (R60, R337, R338) -/

/-- The record of a submission is one that the steward takes (R337). -/
def submissionOk (d : Vec) : Bool :=
  fieldN d 0 32 == 0x4A42544F && decide (fieldN d 224 8 ≤ 3) && decide (fieldN d 232 8 ≤ 1) && decide (1 ≤ fieldN d 240 8)
    && decide (fieldN d 240 8 ≤ 16) && decide (1 ≤ fieldN d 248 8) && decide (fieldN d 248 8 ≤ 8) && fieldN d 256 256 == 0

/-- The tag of a submission. -/
def subTag (d : Vec) : Word := BitVec.ofNat 64 (fieldN d 64 64)

/-- Its tenant, whose credential index is the address space id (log 37). -/
def subTenant (d : Vec) : Nat := fieldN d 32 32 % 4096

/-- A reply to a submission. -/
def State.replyTo (s : State) (sub : Nat × Vec) (code status id : Nat) : State :=
  s.emitOut (.reply sub.1 (replyBytes (subTag sub.2) code status id))

/-- The lowest n FREE work table entries of a die. -/
def State.freeEntries (s : State) (die n : Nat) : List Nat :=
  ((List.range 256).filter (fun i => (s.work die i).state == .free && !(s.work die i).reserved)).take n

/-- An entry that the steward opens: it keeps the slot's sequence. -/
def openedWork (w : Work) (level counter tenant pdie pidx : Nat) (sub : Nat × Vec) : Work :=
  { w.freed with level := level, state := .opened, counter := counter, tenant := tenant, pdie := pdie, pidx := pidx, sub := sub,
                 image := fieldN sub.2 128 64 }

/-- The lowest n key ids from 16 up that hold no key (R117). -/
def State.freeKeys (s : State) (n : Nat) : List Nat :=
  ((List.range 496).filterMap (fun i => if (tabFind s.keys (16 + i)).isNone then some (16 + i) else none)).take n

/-- The image that a job has come to is read and checked; one that fails contains the job, with an IMAGE record of the offending word
(R338, R385). -/
def State.openImage (s : State) (die i : Nat) : State :=
  let w := s.work die i
  let limit := fieldN w.sub.2 128 64 + fieldN w.sub.2 192 32
  let s1 := s.touchPlains w.image (s.imgRead w.image limit) false
  match s.imageFault die (s.workId die i) w.image limit with
  | none => s1
  | some (code, o) =>
    (s1.logErr { unitErr 0x0B code 2 (stewardOf die) 9 0 w.tenant with addr := some ((w.image + o) % 2 ^ 48, false) }).cancelLevel die i true

/-- The first submission in a die's queue. -/
def State.firstJob (s : State) (die : Nat) : Option (Nat × Vec) := (s.jobs.find? (fun j => j.1 == die)).map (·.2)

/-- The queues without the first submission of a die's. -/
def dropJob (die : Nat) : List (Nat × Nat × Vec) → List (Nat × Nat × Vec)
  | [] => []
  | j :: t => if j.1 = die then t else j :: dropJob die t

/-- The steward takes the first submission of its queue, when it finds work table entries for the job and its phases and key ids: the
entries are OPEN, a fresh key is loaded under each key id, the submission is ACCEPTED and its first image checked (R60, R117, R337, R338;
log 37). -/
def State.takeJob (s : State) (die : Nat) : State :=
  match s.firstJob die with
  | none => s
  | some sub =>
    let phases := fieldN sub.2 248 8
    let keys := s.freeKeys (fieldN sub.2 240 8)
    match s.freeEntries die (phases + 1) with
    | j :: ps =>
      if ps.length = phases ∧ keys.length = fieldN sub.2 240 8 then
        let s1 := s.setWork die j (openedWork (s.work die j) 4 phases (subTenant sub.2) 0 0 sub)
        let s2 := ps.foldl (fun t p => t.setWork die p (openedWork (t.work die p) 3 1 (subTenant sub.2) die j (0, 0))) s1
        let s3 := keys.foldl (fun t k => t.loadKey k (subTenant sub.2) (s2.workId die j)) { s2 with jobs := dropJob die s2.jobs }
        (s3.replyTo sub 0 0 (s3.workId die j)).openImage die j
      else s
    | [] => s

/-! ## Completion of an entry (R56, R448, R449) -/

/-- Entries freed one after the other. -/
def State.freeWorks (s : State) (l : List (Nat × Nat)) : State :=
  l.foldl (fun t e => t.setWork e.1 e.2 (t.work e.1 e.2).freed) s

/-- A phase is DONE with status 0 while its job has more: the job goes on to the next image of its chain (R338). -/
def State.nextImage (s : State) (die i : Nat) : State :=
  let w := s.work die i
  if w.state = .opened ∧ 1 < w.counter then
    (s.setWork die i { w with image := s.imageAfter w.image }).openImage die i
  else s

/-- A job's entry is DONE: its reply is sent, the entries of its phases and graphs are freed, its keys erased and its region given back,
and the steward's word that frees the entry sets out (R117, R337, R360, R448; log 37). -/
def State.finishJob (s : State) (die i status : Nat) : State :=
  let id := s.workId die i
  let s1 := (s.replyTo (s.work die i).sub 3 status id).freeWorks (s.workBelow 2 die i)
  { s1 with keys := s1.keys.filter (fun e => e.1 < 16 || e.2.job != id),
            regions := s1.regions.filter (fun e => e.2.job != id) }.sendWork (.core (stewardOf die)) id 0 0

/-- An entry completes with a status: DONE, its completion token, and its parent's counter falls (R56, R449). It stays DONE to the end of
the step: a launch entry is freed as the next one begins, the entries of a job by the steward (R448). At a phase that is DONE with status 0
the next image of the chain is checked (R338). -/
def State.finishWork (s : State) (die i status : Nat) : State :=
  let w := s.work die i
  let s1 := (s.setWork die i { w with state := .done, counter := 0, status := status }).workToken die w status
  match w.level with
  | 1 => s1.sendParent (.work die) 2 (s.workId w.pdie w.pidx) 0
  | 4 => s1.finishJob die i status
  | 3 =>
    (if status = 0 then s1.nextImage w.pdie w.pidx else s1).sendParent (.work die) 4 (s.workId w.pdie w.pidx) status
  | _ => s1.sendParent (.work die) (w.level + 1) (s.workId w.pdie w.pidx) status

/-- The word of the steward firmware that frees a job's entry, once its DONE reply has been sent: the next submission of the die is
taken (R448; log 37). -/
def State.freeJob (s : State) (die i : Nat) : State := (s.setWork die i (s.work die i).freed).takeJob die

/-- The update is that word: of amount 0, for a job's entry in DONE. -/
def Work.freedBy (w : Work) (delta : Int) : Bool := w.level == 4 && w.state == .done && delta == 0

/-- The remaining phases of a job whose phase did not end with status 0 are cancelled: they end with status 1 (R338, R360). -/
def State.cancelPhases (s : State) (die i : Nat) : State :=
  (s.workEntries.filter (fun e => isChild die i 4 e.2.2 && e.2.2.state == .opened)).foldl
    (fun t e => t.finishWork e.1 e.2.1 1) s

/-- WORK_COUNTER_UPDATE: only an entry in OPEN of the same sequence counts; one that an update brings to zero completes
(R56, R61, R449). A job's entry in DONE is freed (R448). -/
def workCounterUpdate (k : Nat) (s : State) : State :=
  match s.recv k with
  | some { msg := .work i seq delta status, dst := .work die, .. } =>
    let w := s.work die i
    let s0 := s.dropPkt k
    if w.freedBy delta = true ∧ w.seq = seq then s0.freeJob die i
    else if w.state ≠ .opened ∨ w.seq ≠ seq then s0
    else
      let c := ((w.counter : Int) + delta).toNat
      let st := max w.status status
      let s1 := s0.setWork die i { w with counter := c, status := st }
      let s2 := if w.level = 4 ∧ delta < 0 ∧ status ≠ 0 then s1.cancelPhases die i else s1
      if delta < 0 ∧ c = 0 then s2.finishWork die i st else s2
  | _ => s

/-- WORK_COUNTER_UPDATE. -/
def execWorkCounterUpdate (pkt : Nat) : State → Host.Outcome State Fault Refusal := eventOf (workCounterUpdate pkt)

/-! ## Launches at their target (R226, R404) -/

/-- Image words of a launch: a word of the frame image in local SRAM with its side-band. -/
def State.imageWord (s : State) (core ofs k : Nat) : Word × Byte :=
  let a := winAddr core (ofs + 8 * k)
  (BitVec.ofNat 64 (leNat (memBytes s.mem a 8)), s.sideAt a)

/-- The words of a frame taken from its image. -/
def State.copyImage (s : State) (core i ofs : Nat) : State :=
  (List.range ((s.core core).frame i).words).foldl (fun t k =>
    let w := s.imageWord core ofs k
    t.setFword core i k w.1 w.2) s

/-- The slots of a fresh frame that are valid, armed and at count 0, with their words (R226). -/
def State.freshFires (s : State) (core i : Nat) : List (Nat × Word) :=
  ((List.range ((s.core core).frame i).nslot).map (fun j => (j, s.fword core i j))).filter (fun e => slotFires e.2)

/-- Each of them fires at once (R226). -/
def State.fireFresh (s : State) (core i : Nat) : State :=
  let l := s.freshFires core i
  (l.foldl (fun t e => t.setFword core i e.1 (reloadWord e.2) (s.fside core i e.1)) s).wakeAll core i
    (l.map (fun e => newReady i (slotEntry e.2) (slotPrio e.2) e.1 false))

/-- The iteration vector of the n-th activation, i0 fastest. -/
def iterVec (d : Vec) (n : Nat) : Word :=
  let a := launchExt d 0
  let b := launchExt d 1
  let c := launchExt d 2
  BitVec.ofNat 64 (n % a + n / a % b * 2 ^ 16 + n / (a * b) % c * 2 ^ 32 + n / (a * b * c) * 2 ^ 48)

/-- A launch fails at its target: a SPILL record that contains the job (R404). -/
def State.launchFail (s : State) (core code : Nat) (d : Vec) (id : Nat) : State :=
  s.logErr { unitErr 0x0D code 3 core 0 (coreInCluster core) (s.tenantOf core) with vnode := fieldN d 0 20, launch := id }

/-- The packet at a place is replaced. -/
def State.setPkt (s : State) (k : Nat) (p : Packet) : State := { s with net := s.net.set k p }

/-- LAUNCH_AT_TARGET: the next activation of a launch is created, while its entry is OPEN and the ready queue has room
(R226, R49); the last one takes the command off the network. DESIGN CHOICE: a command that comes from another device, by a far entry, is
matched against this device's own work table (log 18). A node's class smaller than nslot gives the frame no slot beyond its words
(R27; log 71). -/
def launchAtTarget (k : Nat) (s : State) : State :=
  match s.recv k with
  | none => s
  | some p =>
  match p.dst, p.msg with
  | .core core, .launch id d x made =>
    let c := s.core core
    let v := fieldN d 0 20
    let nd := c.nodeDesc v
    let w := s.work (id / 2 ^ 14 % 4) (id % 256)
    let cls := clsField nd (fieldN d 20 3)
    let nslot := min (fieldN d 24 7) (classWords cls)
    if w.state ≠ .opened ∨ w.seq ≠ id / 256 % 64 then s.dropPkt k
    else if s.coreClosed core then (s.dropPkt k).dropToken core p
    else if readyMax ≤ c.ready.length then s
    else
      match s.allocFrame core cls nslot v id (mkHandle x.core x.frame x.gen) (iterVec d made) false with
      | .noEntry => (s.dropPkt k).launchFail core 0x03 d id
      | .noRoom => (s.dropPkt k).launchFail core 0x02 d id
      | .ok s1 i =>
        let s2 := if bitN d 179 then s1.initSlots core i nslot (freshSlot nd) else s1.copyImage core i (fieldN d 160 19)
        let s3 := s2.fireFresh core i
        if readyMax < c.ready.length + (s2.freshFires core i).length then s
        else if made + 1 < launchCount d then s3.setPkt k { p with msg := .launch id d x (made + 1) } else s3.dropPkt k
  | _, _ => s

/-- LAUNCH_AT_TARGET. -/
def execLaunchAtTarget (pkt : Nat) : State → Host.Outcome State Fault Refusal := eventOf (launchAtTarget pkt)

/-! ## CANCEL and purge (R57, R233, R359, R360) -/

/-- CANCEL at its release (R57, R233): a tenant may cancel levels of its own job only (R376 code 0x0B). -/
def State.cancel (s : State) (x : Ctx) (pc id : Nat) : State :=
  let die := id / 2 ^ 14 % 4
  let i := id % 256
  let job := (s.core x.core).jwork
  let own := (s.levelsOf id).contains (job / 2 ^ 14 % 4, job % 256) && (s.work die i).state != .free
    && (s.work die i).seq == id / 256 % 64
  if isSteward x.core || own then
    (if (s.work die i).seq = id / 256 % 64 then s.cancelLevel die i false else s)
  else s.refuseAct x pc 0x05 0x0B none

/-- One frame is purged: freed, its queued jobs withdrawn, a running firing on it marked (R57). -/
def State.purgeFrame (s : State) (core i : Nat) : State :=
  let f := (s.core core).frame i
  let s1 := s.withdrawJobs core i f.gen
  let s2 := s1.modCore core (fun c => { c with firing := c.firing.map (fun g =>
    if g.ctx.frame = i then { g with purged := true } else g) })
  s2.freeFrame core i

/-- PURGE: the core purges the activations of the level and acknowledges (R57). -/
def purge (k : Nat) (s : State) : State :=
  match s.recv k with
  | some { msg := .purge die i, dst := .core core, .. } =>
    let own := ((s.core core).frames.filter (fun e =>
      e.2.state != .free && (s.frameLevels core e.2).contains (die, i))).map (·.1)
    (own.foldl (fun t n => t.purgeFrame core n) (s.dropPkt k)).send
      { src := .core core, dst := .work die, cls := .token, tenant := 0, msg := .purgeAck die i core, held := false }
  | _ => s

/-- PURGE. -/
def execPurge (pkt : Nat) : State → Host.Outcome State Fault Refusal := eventOf (purge pkt)

/-- The packet acknowledges the purge of an entry. -/
def isAck (die i : Nat) (p : Packet) : Bool :=
  match p.msg with
  | .purgeAck d j _ => d == die && j == i
  | _ => false

/-- The core whose acknowledgement a packet is. -/
def ackCore (p : Packet) : Nat :=
  match p.msg with
  | .purgeAck _ _ c => c
  | _ => 0

/-- PURGE_ACKNOWLEDGEMENT: every core has acknowledged, so the lower entries and then the entry are DONE (R57). -/
def purgeAcknowledgement (die i : Nat) (s : State) : State :=
  let w := s.work die i
  let acked := (s.net.filter (isAck die i)).map ackCore
  if w.state = .cancelling ∧ w.acks.all (fun c => acked.contains c) = true then
    let s1 := { s with net := s.net.filter (fun p => !isAck die i p) }
    let s2 := (s1.workBelow 3 die i).foldl (fun t e =>
      if (t.work e.1 e.2).state = .cancelling then t.finishWork e.1 e.2 (t.work e.1 e.2).status else t) s1
    s2.finishWork die i w.status
  else s

/-- PURGE_ACKNOWLEDGEMENT. -/
def execPurgeAcknowledgement (die index : Nat) : State → Host.Outcome State Fault Refusal :=
  eventOf (purgeAcknowledgement die index)

/-- JOB_SUBMISSION, when a port is up: REFUSED in minimal mode and for a record that is not legal, BUSY when the steward's queue holds
256 records; otherwise the record is queued, and the steward takes the first of its queue (R60, R337, R434; log 37). -/
def jobSubmission (die src : Nat) (d : Vec) (s : State) : State :=
  if s.ports.isEmpty then s
  else if s.start.minimal || !submissionOk d then s.replyTo (src, d) 2 0 0
  else if 256 ≤ (s.jobs.filter (fun j => j.1 == die)).length then s.replyTo (src, d) 1 0 0
  else { s with jobs := s.jobs ++ [(die, src, d)] }.takeJob die

/-- JOB_SUBMISSION. -/
def execJobSubmission (die : Nat) (sub : Submission) : State → Host.Outcome State Fault Refusal :=
  eventOf (jobSubmission die sub.src sub.datagram)

end Sys2Proof.Machine
end

