-- ==== Sys2Proof/Machine/Spill.lean ====
section
/-! DEFINITION. The spill engine: eviction, write-back and fill-back (R30, R118 to R121, R403), and the inbound spill ring of
a switched-out context (R86, R87, R405). -/

namespace Sys2Proof.Machine

/-! ## Bodies and runs -/

/-- The words of a frame with their side-bands, as its state places them. -/
def State.frameWords (s : State) (core i : Nat) : List (Word × Byte) :=
  (List.range ((s.core core).frame i).words).map (fun k => (s.fword core i k, s.fside core i k))

/-- Words written to a frame from F0 on. -/
def State.putWords (s : State) (core i : Nat) : Nat → List (Word × Byte) → State
  | _, [] => s
  | k, w :: t => (s.setFword core i k w.1 w.2).putWords core i (k + 1) t

/-- An idle frame, which the spill engine may evict (R30). -/
def CoreSt.idleFrame (c : CoreSt) (i : Nat) : Bool :=
  let f := c.frame i
  f.state == .local && !f.static && !c.runsOn i && c.ready.all (fun r => r.frame != i)

/-- A frame is lost to poison that the spill engine met (R358, R403). -/
def State.loseFrame (s : State) (core i slot : Nat) : State :=
  let c := s.core core
  let f := c.frame i
  let x : Ctx := { core := core, frame := i, gen := f.gen, slot := slot, vnode := f.vnode, launch := f.launch,
                   parent := f.parent, iter := f.iter, prio := 0, tenant := c.asid, reserved := false }
  let e := ctxErr 0x09 0 1 x 0
  (((s.purgeFrame core i).setFlag (clusterOf core) 1).logErr e).activationLost core x e.toRec (mkHandle core i f.gen)

/-- The lowest slot word of a frame that holds poison. -/
def State.poisonedSlot (s : State) (core i : Nat) : Option Nat :=
  (List.range ((s.core core).frame i).nslot).find? (fun j => isPoison (s.fside core i j))

/-! ## Write-back and fill-back (R30, R120, R121) -/

/-- An eviction begins: the frame takes a body slot and goes to SPILLING. -/
def State.evict (s : State) (core i : Nat) : State :=
  match (s.core core).idleFrame i, (s.core core).freeBody with
  | true, some b => s.modFrame core i (fun f => { f with state := .spilling, body := some b })
  | _, _ => s

/-- WRITE_BACK_COMPLETE: the words stand in the body slot and the frame is SPILLED, or FREE when it was freed meanwhile
(R30, R121). -/
def writeBackComplete (core i : Nat) (s : State) : State :=
  let f := (s.core core).frame i
  if f.state ≠ .spilling then s
  else if f.dying then s.freeNow core i
  else
    let ws := s.frameWords core i
    ((s.modFrame core i (fun f => { f with state := .spilled, poolofs := noRun })).putWords core i 0 ws).tryCont core i

/-- WRITE_BACK_COMPLETE. -/
def execWriteBackComplete (core frame : Nat) : State → Host.Outcome State Fault Refusal :=
  eventOf (writeBackComplete core frame)

/-- FILL_BACK_START: the frame takes a free run, or an idle frame is evicted to make one (R120). -/
def fillBackStart (core i : Nat) (victim : Option Nat) (s : State) : State :=
  let c := s.core core
  let f := c.frame i
  if f.state ≠ .filling ∨ f.poolofs ≠ noRun then s
  else match c.freeRun (classUnits f.fclass), victim with
    | some p, _ => s.modFrame core i (fun f => { f with poolofs := p })
    | none, some v => s.evict core v
    | none, none => s

/-- FILL_BACK_START. -/
def execFillBackStart (core frame : Nat) (victim : Option Nat) : State → Host.Outcome State Fault Refusal :=
  eventOf (fillBackStart core frame victim)

/-- The body of a SPILLED frame and its side-band row are read: their lines are accessed at their home slices (R104, R118). -/
def State.touchBody (s : State) (core i : Nat) : State :=
  let n := ((s.core core).frame i).words
  if s.frameSpilled core i then
    (s.touchLines 0 (s.frameBase core i) (8 * n) false).touchLines 0 (s.rowAddr core i 0) n false
  else s

/-- FILL_BACK_COMPLETE: the frame is LOCAL, its body slot free, and its ready entry pushed; a poisoned slot word contains the
activation instead (R120, R121, R403). -/
def fillBackComplete (core i : Nat) (s : State) : State :=
  let f := (s.core core).frame i
  if f.state ≠ .filling ∨ f.poolofs = noRun then s
  else if f.dying then s.freeNow core i
  else
    let sp := (s.modFrame core i (fun f => { f with state := .spilled })).touchBody core i
    match sp.poisonedSlot core i, f.wake with
    | some j, _ => sp.loseFrame core i j
    | none, [] => s
    | none, rs =>
      if readyMax < (s.core core).ready.length + rs.length then s
      else
        let s1 := sp.modFrame core i (fun f => { f with state := .local, body := none, wake := [] })
        rs.foldl (fun t r => t.pushReady core r) (s1.putWords core i 0 (sp.frameWords core i))

/-- FILL_BACK_COMPLETE. -/
def execFillBackComplete (core frame : Nat) : State → Host.Outcome State Fault Refusal :=
  eventOf (fillBackComplete core frame)

/-! ## Arrivals at a SPILLED frame (R119, R403) -/

/-- SPILLED_ARRIVAL: the spill engine applies an arrival to a SPILLED body; a poisoned slot word that it meets contains the
activation. -/
def spilledArrival (k : Nat) (s : State) : State :=
  match s.recv k with
  | none => s
  | some p =>
  match p.dst, p.msg with
  | .core core, .frame dest slot fw amount payload data side sender _ =>
    match s.frameOf core dest with
    | none => s
    | some i =>
      if s.frameSpilled core i && (s.core core).readyRoom && !s.coreClosed core && !s.foreign p core then
        (if slot < ((s.core core).frame i).nslot ∧ isPoison (s.fside core i slot) = true then (s.dropPkt k).loseFrame core i slot
         else (s.dropPkt k).applyFrame core i slot fw amount payload data side sender)
      else s
  | _, _ => s

/-- SPILLED_ARRIVAL. -/
def execSpilledArrival (pkt : Nat) : State → Host.Outcome State Fault Refusal := eventOf (spilledArrival pkt)

/-! ## The inbound spill ring (R86, R87, R405) -/

/-- The destination word of a token (R31, R32). -/
def destWord : Msg → Nat
  | .frame (.handle h) _ _ _ _ _ _ _ _ => h.toNat
  | .frame (.node v) _ _ _ _ _ _ _ _ => v * 8
  | .chan v p _ => v * 8 + p * 2
  | _ => 0

/-- Kind code, side-band, colour and data of a token as a ring entry holds them. -/
def ringFields : Msg → Nat × Byte × Nat × Vec
  | .frame _ _ _ _ _ data side sender _ => (0, side, fieldN sender 1 18, data)
  | .chan _ _ t => (tokKindCode t.kind, t.side, t.colour, t.data)
  | _ => (0, 0, 0, 0)

/-- An 80-byte ring entry (R87). -/
def ringEntry (m : Msg) : List Byte :=
  let f := ringFields m
  leBytes 4 (destWord m) ++ [BitVec.ofNat 8 f.1, f.2.1] ++ leBytes 3 f.2.2.1 ++ leBytes 7 0 ++ leBytes 64 f.2.2.2.toNat

/-- A dropped token is answered with a refusal acknowledgement that restores its credit (R417). -/
def State.refuseToken (s : State) (from_ : Agent) (p : Packet) : State :=
  match p.msg with
  | .chan v port t => s.send { src := from_, dst := p.src, cls := .token, tenant := p.tenant,
                               msg := .refuseTok v port t.cost, held := false }
  | _ => s

/-- The packet carries a token of a job. -/
def isToken (m : Msg) : Bool :=
  match m with
  | .frame _ _ _ _ _ _ _ _ _ => true
  | .chan _ _ _ => true
  | _ => false

/-- A token is dropped with a CHECKPOINT record of unit 5 (R405). -/
def State.dropForeign (s : State) (k : Nat) (p : Packet) (core code : Nat) (rep : Bool) : State :=
  let s1 := (s.dropPkt k).refuseToken (.router (clusterOf core)) p
  if rep then s1.logErr (unitErr 0x0E code 5 (coreAt (clusterOf core) 0) 4 0 p.tenant) else s1

/-- SPILL_RING_APPEND: a token for a switched-out context is appended to its ring, or dropped when the ring is full or no
parked entry matches (R86, R405 codes 0x04 and 0x06). It waits while a page of the save area gives it no read or write (log 80). -/
def spillRingAppend (k : Nat) (s : State) : State :=
  match s.recv k with
  | none => s
  | some p =>
  match p.dst, isToken p.msg with
  | .core core, true =>
    let die := dieOf core
    if s.foreign p core = false then s
    else match (s.die die).parked p.tenant with
      | none => s.dropForeign k p core 0x06 true
      | some a =>
        let va : Word := BitVec.ofNat 64 a
        if s.rangeOk die p.tenant { read := true, write := true } va 64 = false then s
        else match s.readVirt die p.tenant va 64 with
        | none => s
        | some hdr =>
          let s0 := s.touchVirt die p.tenant va 64
          let h := BitVec.ofNat 512 (leNat hdr)
          let size := 2 ^ fieldN h 112 5
          let head := fieldN h 128 32
          let tail := fieldN h 160 32
          if (tail + 2 ^ 32 - head) % 2 ^ 32 = size then
            let s1 := s0.writeVirt die p.tenant va (leBytes 8 (setFieldN h 5 1 1).toNat)
            let first := !((s.die die).overrun.contains p.tenant)
            (s1.dropForeign k p core 0x04 first).modDie die (fun d =>
              { d with overrun := if first then d.overrun ++ [p.tenant] else d.overrun })
          else
            let at_ := BitVec.ofNat 64 (fieldN h 64 48 + 80 * (tail % size))
            if s.rangeOk die p.tenant { read := false, write := true } at_ 80 = false then s
            else ((s0.dropPkt k).writeVirt die p.tenant at_ (ringEntry p.msg)).writeVirt die p.tenant (va + 20)
              (leBytes 4 ((tail + 1) % 2 ^ 32))
  | _, _ => s

/-- SPILL_RING_APPEND. -/
def execSpillRingAppend (pkt : Nat) : State → Host.Outcome State Fault Refusal := eventOf (spillRingAppend pkt)

/-! ## Draining (R83, R405) -/

/-- DRAIN_TIMEOUT: a graph that has not drained 2^26 cycles after its first marker is contained (R405 code 0x01). -/
def drainTimeout (asid : Nat) (s : State) : State :=
  match s.drains.find? (fun d => d.asid == asid) with
  | none => s
  | some d =>
    if d.phase ≠ .marking ∨ s.cycle < d.since + 2 ^ 26 then s
    else
      ({ s with drains := s.drains.filter (fun e => e.asid != asid) }.logErr
        (unitErr 0x0E 0x01 2 (stewardOf (d.gwork / 2 ^ 14 % 4)) 9 0 asid)).cancelLevel (d.gwork / 2 ^ 14 % 4) (d.gwork % 256) true

/-- DRAIN_TIMEOUT. -/
def execDrainTimeout (asid : Nat) : State → Host.Outcome State Fault Refusal := eventOf (drainTimeout asid)

end Sys2Proof.Machine
end

