-- ==== Sys2Proof/Machine/Requests.lean ====
section
/-! DEFINITION. A core's memory requests after release: counters, translation, parking, the way to the home and back,
completion and refusal (R112, R113, R129, R241 to R246, R391 to R396, R417). -/

namespace Sys2Proof.Machine

/-! ## Counters (R29, R129) -/

/-- The store counts with the fields of a mask changed: 1 CLUS, 2 DIE, 4 PKG, 8 SYS. -/
def Unack.onStore (u : Unack) (mask : Nat) (f : Nat → Nat) : Unack :=
  { u with clus := if mask % 2 = 1 then f u.clus else u.clus, die := if mask / 2 % 2 = 1 then f u.die else u.die,
           pkg := if mask / 4 % 2 = 1 then f u.pkg else u.pkg, sys := if mask / 8 % 2 = 1 then f u.sys else u.sys }

/-- A core with its counts changed. -/
def State.modUnack (s : State) (core : Nat) (f : Unack → Unack) : State :=
  s.modCore core (fun c => { c with unack := f c.unack })

/-- The fields of UNACK whose scope contains a location, seen from a core; none for the core's own local SRAM (R122, R129). -/
def State.scopesOf (s : State) (core pa : Nat) : Nat :=
  let die := dieOf core
  match s.spaceOf pa with
  | .hbm p => if homeOf p = clusterOf core then 15 else if hbmDie p = die then 14 else 12
  | .win c o =>
    if sramSize ≤ o then 8
    else if c = core then 0 else if clusterOf c = clusterOf core then 15 else if dieOf c = die then 14 else 12
  | _ => 8

/-- The fields in which a store counts at its release: those of its location where its page is there, else all four (log 49). -/
def State.scopesAt (s : State) (core asid : Nat) (va : Word) : Nat :=
  match s.landing core asid va with
  | some pa => s.scopesOf core pa
  | none => 15

/-- A request is a load's or an atomic's: it counts in LOAD and nld. -/
def AccKind.isLoad : AccKind → Bool
  | .lds => true
  | .ldro => true
  | .atomic _ _ _ _ => true
  | _ => false

/-- A store, or the store part of an atomic, is acknowledged (R129). -/
def State.lowerStore (s : State) (r : Req) : State :=
  let s1 := s.modUnack r.ctx.core (fun u => (u.onStore r.scopes (fun n => n - 1)).onStore r.mapScopes (fun n => n - 1))
  if r.kind = .pst then s1.settle r.ctx (fun f => { f with npst := f.npst - 1 }) else s1

/-- A load or atomic is complete (R129). -/
def State.lowerLoad (s : State) (r : Req) : State :=
  (s.modUnack r.ctx.core (fun u => { u with load := u.load - 1 })).settle r.ctx (fun f => { f with nld := f.nld - 1 })

/-! ## Homes and agents (R123) -/

/-- The agent at a location's home. -/
def State.agentOf (s : State) (pa : Nat) : Agent :=
  match s.spaceOf pa with
  | .hbm p => .slice (homeOf p)
  | .win c _ => .core c
  | .csr d _ => .die d
  | .remote dev _ => .device dev 0
  | _ => .host

/-- A request leaves for its home. -/
def State.sendReq (s : State) (r : Req) : State :=
  s.send { src := .core r.ctx.core, dst := s.agentOf r.pa, cls := .request, tenant := s.tenantOf r.ctx.core,
           msg := .access r, held := false }

/-- A response leaves for the core of a request, of this device or another. -/
def State.sendResp (s : State) (src : Agent) (r : Req) (m : Msg) : State :=
  s.send { src := src, dst := (match r.dev with
             | none => .core r.ctx.core
             | some d => .device d r.ctx.core), cls := .response, tenant := s.tenantOf r.ctx.core, msg := m, held := false }

/-! ## Completion at the frame (R241, R242, R245) -/

/-- The frame of a context is the one that the request was made for (R33). -/
def State.sameFrame (s : State) (x : Ctx) : Bool :=
  let f := (s.core x.core).frame x.frame
  f.state != .free && f.gen == x.gen

/-- A completion can be applied: its frame has gone, or stands still with room in the ready queue (R30, R49). -/
def State.canComplete (s : State) (x : Ctx) : Bool :=
  !s.sameFrame x || ((s.inTransfer x.core x.frame x.gen).isNone && (s.core x.core).readyRoom)

/-- Words with their side-bands written from F[k] on, and one arrival at a slot; the spill engine that meets poison in the
slot word of a SPILLED frame contains the activation (R241, R403). A HANDLER slot's frame has no sender then (R40; log 71). -/
def State.completeAt (s : State) (x : Ctx) (k slot : Nat) (ws : List (Word × Byte)) : State :=
  if s.sameFrame x = false then s
  else if s.frameSpilled x.core x.frame ∧ isPoison (s.fside x.core x.frame slot) = true then s.loseFrame x.core x.frame slot
  else (s.putWords x.core x.frame k ws).applyFrame x.core x.frame slot 0 1 0 0 0 0

/-- The words that a load writes (R241). -/
def Pending.words (p : Pending) : List (Word × Byte) :=
  let n := max 1 (p.size / 8)
  let nv : List (Word × Byte) := List.replicate n (0, 0x10)
  if p.failed then nv
  else (List.range n).map (fun j =>
    (BitVec.ofNat 64 (leNat ((memBytes p.bytes (8 * j) 8).take (min 8 p.size))), tabGet 0 p.sides j))

/-- A part of a load has returned; the last one completes the load. -/
def State.partDone (s : State) (r : Req) (bytes : List Byte) (sides : List Byte) (bad : Bool) : State :=
  match (s.core r.ctx.core).pend.find? (fun p => p.id == r.id) with
  | none => s
  | some p =>
    let p1 := { p with parts := p.parts - 1, failed := p.failed || bad, bytes := memPuts p.bytes r.ofs bytes,
                       sides := sides.zipIdx.foldl (fun t e => tabSet t (r.ofs / 8 + e.2) e.1) p.sides }
    if p1.parts = 0 then
      ((s.modCore r.ctx.core (fun c => { c with pend := c.pend.filter (fun q => q.id != r.id) })).completeAt r.ctx r.k r.slot
        p1.words).lowerLoad r
    else s.modCore r.ctx.core (fun c => { c with pend := c.pend.map (fun q => if q.id = r.id then p1 else q) })

/-! ## Refusals (R370, R391, R392) -/

/-- What a refused request ends with (R392): a load or atomic answers zeros with NV, a store lowers its counts. -/
def State.endRefused (s : State) (r : Req) : State :=
  match r.kind with
  | .lds => s.sendResp (.router (clusterOf r.ctx.core)) r (.refuse { r with fill := 0 } 0 0)
  | .ldro => s.sendResp (.router (clusterOf r.ctx.core)) r (.refuse { r with fill := 0 } 0 0)
  | .atomic _ _ _ _ => s.sendResp (.router (clusterOf r.ctx.core)) r (.refuse r 0 0)
  | _ => s.lowerStore r

/-- A request is refused in its own cluster, by its translation (R370, R391). -/
def State.refuseReq (s : State) (r : Req) (cls code : Nat) : State :=
  (s.refuseAct r.ctx r.pc cls code (some (r.va.toNat % 2 ^ 48, false))).endRefused r

/-! ## The read-only cache (R103, R144, R243) -/

/-- A line of a cluster's read-only cache. -/
def State.roLine (s : State) (cluster pa : Nat) : Option (List Byte) :=
  if bitN (s.cluster cluster).health 17 then none else tabFind (s.cluster cluster).rocache (pa / 128 * 128)

/-- A line enters the cache, unless an invalidation came after its fill left; a full cache gives up its lowest line (log 11). -/
def Cluster.install (k : Cluster) (fill pa : Nat) (line : List Byte) : Cluster :=
  if fill = k.roEpoch + 1 then
    { k with rocache := tabSet (if k.rocache.length < 512 then k.rocache else k.rocache.drop 1) (pa / 128 * 128) line }
  else k

/-- The whole cache is invalidated (R103). -/
def Cluster.invalidate (k : Cluster) : Cluster := { k with rocache := [], roEpoch := k.roEpoch + 1 }

/-- One part of an LDRO: a hit answers with the cached line, a miss goes to the home. -/
def State.roPart (s : State) (r : Req) : State :=
  let cl := clusterOf r.ctx.core
  match s.roLine cl r.pa with
  | some line => s.sendResp (.slice cl) r (.loadResp { r with fill := 0 } line [])
  | none => s.sendReq { r with fill := (s.cluster cl).roEpoch + 1 }

/-! ## Requests on their way (R241, R391) -/

/-- Part j of n bytes of a request. -/
def Req.part (r : Req) (n j : Nat) : Req :=
  { r with va := r.va + BitVec.ofNat 64 (n * j), pa := r.pa + n * j, ofs := n * j, size := n }

/-- A load's parts are recorded as outstanding. -/
def State.pendLoad (s : State) (r : Req) (parts : Nat) : State :=
  let p : Pending := { id := r.id, frame := r.ctx.frame, gen := r.ctx.gen, k := r.k, slot := r.slot, size := r.size,
                       parts := parts, bytes := [], sides := [], failed := false }
  s.modCore r.ctx.core (fun c => { c with pend := c.pend ++ [p] })

/-- A translated request leaves: a load in parts of 64 bytes, an LDRO line by line, anything else whole (R241, R243). -/
def State.depart (s : State) (r : Req) : State :=
  match r.kind with
  | .lds =>
    let n := min 64 r.size
    (List.range (r.size / n)).foldl (fun t j => t.sendReq (r.part n j)) (s.pendLoad r (r.size / n))
  | .ldro =>
    let n := min 128 r.size
    (List.range (r.size / n)).foldl (fun t j => t.roPart (r.part n j)) (s.pendLoad r (r.size / n))
  | _ => s.sendReq r

/-- The physical address is known: the counts keep the fields of the scopes that contain it (R129), and the request leaves. A
store into the core's own local SRAM counts in none. -/
def State.locatedOne (s : State) (r : Req) (pa key pb : Nat) : State :=
  let m := if r.kind == .lds || r.kind == .ldro then 0 else s.scopesOf r.ctx.core pa
  let s1 := s.modUnack r.ctx.core (fun u =>
    (u.onStore (r.scopes &&& (15 ^^^ m)) (fun n => n - 1)).onStore (m &&& (15 ^^^ r.scopes)) (fun n => n + 1))
  s1.depart { r with pa := pa, key := key, pb := pb, scopes := m, mapScopes := 0 }

/-- A request meets its leaf (R391). -/
def State.meetLeafWith (f : State → Req → Nat → Nat → Nat → State) (s : State) (r : Req) (pte : Word) (big : Bool) : State :=
  match s.checkLeaf r pte big with
  | .error (cls, code) => s.refuseReq r cls code
  | .ok (pa, key) => f s r pa key (if big then 0 else fieldN pte 8 8)

/-! ## TLBs and the walker (R112, R113) -/

/-- The translation that a TLB holds of an address. -/
def tlbFind (l : List TlbEnt) (asid : Nat) (va : Word) : Option (Word × Bool) :=
  (l.find? (fun e => e.asid == asid && e.vpage == va.toNat % 2 ^ 48 / (if e.big then 2 ^ 24 else 2 ^ 16))).map
    (fun e => (e.pte, e.big))

/-- The set of an L2 TLB, of 128, that a translation belongs to (R113; log 11). -/
def TlbEnt.set (e : TlbEnt) : Nat := e.vpage % 128

/-- A translation enters a TLB that holds n entries of those that compete with it; the oldest of them goes when they are that many
(R113, log 11). -/
def tlbPut (n : Nat) (with_ : TlbEnt → Bool) (l : List TlbEnt) (e : TlbEnt) : List TlbEnt :=
  let l1 := l.filter (fun x => !(x.asid == e.asid && x.vpage == e.vpage && x.big == e.big))
  (if (l1.filter with_).length < n then l1 else l1.eraseP with_) ++ [e]

/-- A held translation serves an access: for a write, the page is dirty already (R112). -/
def servable (n : Need) (t : Option (Word × Bool)) : Option (Word × Bool) :=
  match t with
  | some (pte, big) => if n.write && !pte.getLsbD 6 then none else some (pte, big)
  | none => none

/-- A translation is filled into the TLBs on its way to a core; a steward core's second-level TLB is that of cluster (0,0) (log 27). -/
def State.fillTlbs (s : State) (core asid : Nat) (va : Word) (pte : Word) (big : Bool) : State :=
  let e : TlbEnt := { asid := asid, vpage := va.toNat % 2 ^ 48 / (if big then 2 ^ 24 else 2 ^ 16), big := big, pte := pte }
  (s.modCluster (clusterOf core) (fun k => { k with tlb := tlbPut 8 (fun x => x.set == e.set) k.tlb e })).modCore core
    (fun c => { c with tlb := tlbPut 32 (fun _ => true) c.tlb e })

/-- Pages of 64 KiB by VA[47:16] (R393). -/
def vpageOf (va : Word) : Nat := va.toNat % 2 ^ 48 / 65536

/-- The address space and page that a request in translation asks for. -/
def XReq.page : XReq → Nat × Nat
  | .core r => (r.asid, vpageOf r.va)
  | .copy _ _ asid va _ => (asid, vpageOf va)
  | .source asid va _ _ => (asid, vpageOf va)
  | .wait asid va _ _ => (asid, vpageOf va)

/-- The core of a request in translation. -/
def XReq.coreOf (s : State) : XReq → Nat
  | .core r => r.ctx.core
  | .copy q id _ _ _ => ((s.jobIn q id).map (fun j => j.ctx.core)).getD 0
  | .source _ _ _ c => c
  | .wait _ _ c _ => c

/-- Kind code of a fault buffer entry (R398). -/
def XReq.kindCode : XReq → Nat
  | .core r => match r.kind with
    | .lds => 0 | .ldro => 1 | .st => 2 | .stt => 2 | .pst => 3 | .atomic _ _ _ _ => 4
  | .copy _ _ _ _ _ => 5
  | .source _ _ _ _ => 6
  | .wait _ _ _ _ => 6

/-- The request needs W. -/
def XReq.wr : XReq → Bool
  | .core r => r.kind.need.write
  | .copy _ _ _ _ w => w
  | .source _ _ _ _ => false
  | .wait _ _ _ _ => true

/-! ## The replay queue (R393 to R396) -/

/-- A parked request enters the fault buffer: it joins its page's entry, takes a free one, or sets drop (R393). -/
def Cluster.enterFault (k : Cluster) (page : Nat × Nat) (level core kind : Nat) (wr : Bool) : Cluster :=
  if k.fltbuf.any (fun e => e.asid == page.1 && e.vpage == page.2) then
    { k with fltbuf := k.fltbuf.map (fun e =>
        if e.asid = page.1 ∧ e.vpage = page.2 then { e with count := e.count + 1, wr := e.wr || wr } else e) }
  else if k.fltbuf.length < 8 then
    { k with fltbuf := k.fltbuf ++ [{ wr := wr, level := level, asid := page.1, count := 1, vpage := page.2, core := core,
                                      kind := kind }] }
  else { k with drop := true }

/-- A core's request notes that it has been parked (R395). -/
def XReq.noted : XReq → XReq
  | .core r => .core { r with wasParked := true }
  | x => x

/-- A request parks: pfault is set, and a full queue sets stop and rqfull (R393, R396). A steward core's queue is that of cluster (0,0)
(log 27). -/
def State.park (s : State) (cluster : Nat) (x : XReq) (level : Nat) : State :=
  let s1 := (s.modCluster cluster (fun k =>
    { (k.enterFault x.page level (x.coreOf s) x.kindCode x.wr) with parked := k.parked ++ [x.noted] })).setFlag cluster 2
  if 256 ≤ (s1.cluster cluster).parked.length then
    (s1.modCluster cluster (fun k => { k with stop := true })).setFlag cluster 3
  else s1

/-- The level at which the walk of a page stops, if it does. -/
def Walk.level : Walk → Nat
  | .absent l => l
  | _ => 0

/-- A page of an address space has a request parked in a cluster. -/
def Cluster.holdsPage (k : Cluster) (p : Nat × Nat) : Bool := k.parked.any (fun x => x.page == p)

/-- The cluster has a request of a core for a page before a place of its walking list, or parked. -/
def Cluster.behind (k : Cluster) (n core : Nat) (p : Nat × Nat) : Bool :=
  (k.walking.take n).any (fun x => x.page == p && (match x with
    | .core r => r.ctx.core == core
    | _ => false))

/-- The counters of a request rise. -/
def State.raise (s : State) (r : Req) : State :=
  let s1 := s.modUnack r.ctx.core (fun u =>
    { ((u.onStore r.scopes (fun n => n + 1)).onStore r.mapScopes (fun n => n + 1)) with load := u.load + b2n r.kind.isLoad })
  if s1.sameFrame r.ctx then
    s1.modFrame r.ctx.core r.ctx.frame (fun f =>
      { f with nld := f.nld + b2n r.kind.isLoad, npst := f.npst + b2n (r.kind == .pst) })
  else s1

/-- The own core window answers without a translation (R91); what an instruction does not reach there is refused (R240). -/
def State.selfReqWith (f : State → Req → Nat → Nat → Nat → State) (s : State) (r : Req) : State :=
  let core := r.ctx.core
  if reachOk (isSteward core) core r.kind (.win core (selfOfs r.va)) then f s r (winAddr core (selfOfs r.va)) 0 0
  else s.refuseReq r 0x06 0x04

/-- A request to a host region waits for the core's earlier requests that may go to that region (R335). -/
def State.hostWaits (s : State) (r : Req) : Bool :=
  let k := s.cluster (clusterOf r.ctx.core)
  match (s.landing r.ctx.core r.asid r.va).map s.spaceOf with
  | some (.host h _) => (k.walking ++ k.parked).any (fun x => match x with
    | .core q => q.ctx.core == r.ctx.core && decide (q.id < r.id) &&
        (match (s.landing q.ctx.core q.asid q.va).map s.spaceOf with
         | some (.host g _) => g == h
         | some _ => false
         | none => true)
    | _ => false)
  | _ => false

/-- A request takes the self window or an L1 hit, which no request of its core for the page may be waiting before, or goes to
the L2 TLB (R113, R335, R394). -/
def State.enterWith (f : State → Req → Nat → Nat → Nat → State) (s : State) (r : Req) : State :=
  let core := r.ctx.core
  let k := s.cluster (clusterOf core)
  let queued := s.modCluster (clusterOf core) (fun k => { k with walking := k.walking ++ [.core r] })
  if inSelf r.va then s.selfReqWith f r
  else match servable r.kind.need (tlbFind (s.core core).tlb r.asid r.va) with
    | some (pte, big) =>
      if k.behind k.walking.length core (XReq.core r).page || k.holdsPage (XReq.core r).page || s.hostWaits r then queued
      else s.meetLeafWith f r pte big
    | none => queued

/-- The flag-map store of an STT: one byte, or eight for V, each the flag set (R174, R238). DESIGN CHOICE: a word of local SRAM into
which such a byte lands takes side-band 0 (log 78). -/
def Req.flagReq (r : Req) : Req :=
  let n := if r.size = 64 then 8 else 1
  { r with kind := .st, id := r.id + 1, va := BitVec.ofNat 64 r.k, size := n, side := 0, k := 0, scopes := r.mapScopes, mapScopes := 0,
           data := BitVec.ofNat 512 ((List.range n).foldl (fun v j => v + r.side.toNat * 256 ^ j) 0) }

/-- A request whose address is known leaves; an STT outside local SRAM sends its flag-map store behind it (R174, R238), and one into
local SRAM counts no such store. -/
def State.located (s : State) (r : Req) (pa key pb : Nat) : State :=
  let s1 := s.locatedOne r pa key pb
  if r.kind = .stt ∧ isSram pa = false then s1.enterWith State.locatedOne r.flagReq
  else s1.modUnack r.ctx.core (fun u => u.onStore r.mapScopes (fun n => n - 1))

/-- A request meets its leaf and goes on. -/
def State.meetLeaf (s : State) (r : Req) (pte : Word) (big : Bool) : State := s.meetLeafWith State.located r pte big

/-- A core's request is translated by the walker: it goes on, is refused, or parks (R391). -/
def State.walkReq (s : State) (r : Req) : State :=
  let s0 := s.walkTouch (dieOf r.ctx.core) r.asid r.va
  match s.walk (dieOf r.ctx.core) r.asid r.va with
  | .absent l => s0.park (clusterOf r.ctx.core) (.core r) l
  | .bad cls code => s0.refuseReq r cls code
  | .leaf entry pte big =>
    match s.checkLeaf r pte big with
    | .error (cls, code) => s0.refuseReq r cls code
    | .ok _ =>
      let (s1, p) := s0.markPte entry pte r.kind.need.write
      ((s1.fillWalk (dieOf r.ctx.core) r.asid r.va).fillTlbs r.ctx.core r.asid r.va p big).meetLeaf r p big

/-- WALK_COMPLETION: a request that missed its L1 TLB is served by the L2 TLB or the walker, or parks behind its page
(R113, R335, R391, R394, R396). -/
def walkCompletion (cluster n : Nat) (s : State) : State :=
  let k := s.cluster cluster
  match k.walking[n]? with
  | some (.core r) =>
    let page := (XReq.core r).page
    if k.stop || k.behind n r.ctx.core page || s.hostWaits r then s
    else
      let s0 := s.modCluster cluster (fun k => { k with walking := k.walking.eraseIdx n })
      if k.holdsPage page then s0.park cluster (.core r) (s.walk (dieOf r.ctx.core) r.asid r.va).level
      else match servable r.kind.need (tlbFind k.tlb r.asid r.va) with
        | some (pte, big) => (s0.fillTlbs r.ctx.core r.asid r.va pte big).meetLeaf r pte big
        | none => s0.walkReq r
  | _ => s

/-- WALK_COMPLETION. -/
def execWalkCompletion (cluster index : Nat) : State → Host.Outcome State Fault Refusal :=
  eventOf (walkCompletion cluster index)

/-! ## Release of a request (R129, R236 to R245, R395) -/

/-- A request as it is released; a store whose location is not translated yet counts in every UNACK field (R129; log 49). -/
def State.newReq (s : State) (h : Held) (kind : AccKind) (va : Word) (size : Nat) (data : Vec) (side : Byte) (k slot : Nat) : Req :=
  let core := h.ctx.core
  let asid := (s.core core).asid
  { id := s.reqNo, kind := kind, ctx := h.ctx, pc := h.pc, asid := asid, va := va, size := size, ofs := 0,
    data := data, side := side, k := k, slot := slot, pa := 0, key := 0,
    scopes := if kind = .lds ∨ kind = .ldro then 0 else s.scopesAt core asid va, pb := 0, fill := 0,
    mapScopes := if kind = .stt ∧ (s.landing core asid va).any isSram = false then s.scopesAt core asid (BitVec.ofNat 64 k) else 0,
    wasParked := false, dev := none }

/-- Stores that a request counts in the field of a bit of the mask. -/
def Req.adds (r : Req) (bit : Nat) : Nat := r.scopes / 2 ^ bit % 2 + r.mapScopes / 2 ^ bit % 2

/-- The counters that a request raises leave room (R29, R129). -/
def State.roomFor (s : State) (r : Req) : Bool :=
  let u := (s.core r.ctx.core).unack
  let f := (s.core r.ctx.core).frame r.ctx.frame
  (!r.kind.isLoad || (decide (u.load < 4095) && decide (f.nld < 4095)))
    && (r.kind != .pst || decide (f.npst < 4095))
    && (r.adds 0 == 0 || decide (u.clus + r.adds 0 ≤ 4095)) && (r.adds 1 == 0 || decide (u.die + r.adds 1 ≤ 4095))
    && (r.adds 2 == 0 || decide (u.pkg + r.adds 2 ≤ 4095)) && (r.adds 3 == 0 || decide (u.sys + r.adds 3 ≤ 4095))

/-- A die-local ordered access of the core has been parked and is not performed yet, which holds the next one (R395; log 49). -/
def State.parkHold (s : State) (core : Nat) : Bool :=
  let k := s.cluster (clusterOf core)
  s.net.any (fun p => match p.msg with
    | .access r => r.dev.isNone && r.ctx.core == core && r.wasParked && r.kind.ordered && s.localPa core r.pa
    | _ => false) ||
  (k.walking ++ k.parked).any (fun x => match x with
    | .core r => r.ctx.core == core && r.wasParked && r.kind.ordered && !s.knownFar r
    | _ => false)

/-- The request needs the L2 TLB: neither the self window nor an L1 hit serves it. -/
def State.needsL2 (s : State) (r : Req) : Bool :=
  let k := s.cluster (clusterOf r.ctx.core)
  !inSelf r.va && ((servable r.kind.need (tlbFind (s.core r.ctx.core).tlb r.asid r.va)).isNone
    || k.behind k.walking.length r.ctx.core (XReq.core r).page || k.holdsPage (XReq.core r).page)

/-- A request leaves the commit queue. It waits there on a full counter, a parked die-local access before it that is not performed, or
a stopped L2 TLB that it needs (R129, R395, R396). -/
def State.releaseReq (s : State) (r : Req) : Option State :=
  if s.roomFor r = false ∨ (r.kind.ordered = true ∧ s.knownFar r = false ∧ s.parkHold r.ctx.core = true)
      ∨ ((s.cluster (clusterOf r.ctx.core)).stop = true ∧ s.needsL2 r = true) then none
  else some (({ s with reqNo := s.reqNo + 2 }.raise r).enterWith State.located r)

/-! ## Responses (R126, R241 to R246, R335, R370, R417) -/

/-- The bytes and side-bands that a response gives to its request: an LDRO takes its bytes from the whole line. -/
def respBytes (r : Req) (bytes sides : List Byte) : List Byte × List Byte :=
  if r.kind = .ldro then
    ((bytes.drop (r.pa % 128)).take r.size, (sides.drop (r.pa % 128 / 8)).take (max 1 (r.size / 8)))
  else (bytes, sides)

/-- LOAD_COMPLETION (R241, R243). -/
def loadCompletion (k : Nat) (s : State) : State :=
  match s.recv k with
  | some { msg := .loadResp r bytes sides, .. } =>
    if s.canComplete r.ctx then
      let b := respBytes r bytes sides
      ((s.dropPkt k).modCluster (clusterOf r.ctx.core) (fun c =>
        if r.fill = 0 ∨ sides.any (fun b => b != 0) = true then c else c.install r.fill r.pa bytes)).partDone r b.1 b.2 false
    else s
  | _ => s

/-- LOAD_COMPLETION. -/
def execLoadCompletion (pkt : Nat) : State → Host.Outcome State Fault Refusal := eventOf (loadCompletion pkt)

/-- An atomic ends: its counts fall and the queue that waits for it goes on (R135, R245). -/
def State.atomicDone (s : State) (r : Req) (old : Word) (side : Byte) : State :=
  ((((s.completeAt r.ctx r.k r.slot [(old, side)]).lowerLoad r).lowerStore r)).modCore r.ctx.core (fun c =>
    { c with atomWait := if c.atomWait = some r.id then none else c.atomWait })

/-- ATOMIC_COMPLETION (R245, R246). -/
def atomicCompletion (k : Nat) (s : State) : State :=
  match s.recv k with
  | some { msg := .atomResp r old side, .. } =>
    if s.canComplete r.ctx then (s.dropPkt k).atomicDone r old side else s
  | _ => s

/-- ATOMIC_COMPLETION. -/
def execAtomicCompletion (pkt : Nat) : State → Host.Outcome State Fault Refusal := eventOf (atomicCompletion pkt)

/-- STORE_ACKNOWLEDGEMENT (R126, R129, R239). -/
def storeAcknowledgement (k : Nat) (s : State) : State :=
  match s.recv k with
  | some { msg := .ack r, .. } => (s.dropPkt k).lowerStore r
  | _ => s

/-- STORE_ACKNOWLEDGEMENT. -/
def execStoreAcknowledgement (pkt : Nat) : State → Host.Outcome State Fault Refusal := eventOf (storeAcknowledgement pkt)

/-- The entry of the host region table for an address of the host window (R334). -/
def State.hostEnt (s : State) (pa : Nat) : Rec := tabGet 0 s.hostTab ((pa - 0xC000000000000) / 0x10000000000)
/-- Queue pair, remote key and host virtual address that a host window address names. -/
def State.hostPlace (s : State) (pa : Nat) : Nat × Nat × Word :=
  let e := s.hostEnt pa
  (fieldN e 8 24, fieldN e 32 32, BitVec.ofNat 64 (fieldN e 64 64 + pa % 0x10000000000))

/-- The host window address of an operation. -/
def Msg.hostPa : Msg → Option Nat
  | .access r => some r.pa
  | .copyRead _ _ pa _ => some pa
  | .copyWrite _ _ pa _ => some pa
  | _ => none

/-- No operation of its queue pair was posted before it: one queue pair performs its operations in posting order (R335). -/
def State.hostFirst (s : State) (k pa : Nat) : Bool :=
  (s.net.take k).all (fun p => !(p.dst == .host && p.msg.hostPa.any (fun q => (s.hostPlace q).1 == (s.hostPlace pa).1)))

/-- The RDMA WRITE of bytes leaves for the host. -/
def State.postWrite (s : State) (pa : Nat) (bs : List Byte) : State :=
  let (q, rk, va) := s.hostPlace pa
  s.emitOut (.hostWrite q rk va bs)

/-- The RDMA READ of n bytes leaves for the host. -/
def State.postRead (s : State) (pa n : Nat) : State :=
  let (q, rk, va) := s.hostPlace pa
  s.emitOut (.hostRead q rk va n)

/-- The host performs an operation (R334, R335): it gives the bytes of a READ, or acknowledges a WRITE, to a core or a copy job. -/
def State.hostPerforms (s : State) (m : Msg) (data : List Byte) : State :=
  let part (n : Nat) : List Byte := (data ++ List.replicate n 0).take n
  match m with
  | .access r =>
    if r.kind = .lds then
      (s.postRead r.pa r.size).sendResp .host r (.loadResp r (part r.size) (List.replicate (max 1 (r.size / 8)) 0))
    else (s.postWrite r.pa (leBytes r.size r.data.toNat)).sendResp .host r (.ack r)
  | .copyRead q id pa n => (s.postRead pa n).modJob q id (fun j =>
      { j with hostIn := j.hostIn ++ [(pa, part n)], hostOut := j.hostOut.erase pa, progress := s.cycle })
  | .copyWrite q id pa bs => (s.postWrite pa bs).modJob q id (fun j => { j with hostOut := j.hostOut.erase pa, progress := s.cycle })
  | _ => s

/-- HOST_RESPONSE: an operation in its turn is performed (R335). -/
def hostResponse (k : Nat) (data : List Byte) (s : State) : State :=
  match s.pkt k with
  | some { msg := m, dst := .host, held := false, .. } =>
    (match m.hostPa with
     | some pa => if s.hostFirst k pa then (s.dropPkt k).hostPerforms m data else s
     | none => s)
  | _ => s

/-- HOST_RESPONSE. -/
def execHostResponse (pkt : Nat) (data : List Byte) : State → Host.Outcome State Fault Refusal :=
  eventOf (hostResponse pkt data)

/-- A home's refusal reaches its core: the record, one for all the parts of a load, carries the core, the tenant and the request's address,
and the fault token no handle (R370); a code 0 stands for a refusal that its own cluster has recorded already. -/
def State.recordRefusal (s : State) (r : Req) (cls code : Nat) : State :=
  if cls = 0 then s
  else
    let c := r.ctx.core
    let e := { coreErr cls code 5 c r.ctx.tenant with
      addr := some ((r.va - BitVec.ofNat 64 r.ofs).toNat % 2 ^ 48, false) }
    (s.logErr e).faultToken c e.toRec 0

/-- REFUSAL_ACKNOWLEDGEMENT (R370, R392, R417): of a token, its credit comes back; of a request, its counts fall and a load or
atomic completes with zeros and NV. -/
def refusalAcknowledgement (k : Nat) (s : State) : State :=
  match s.recv k with
  | some { msg := .refuseTok v port u, dst := dst, tenant := t, .. } =>
    (match dst with
     | .core core => (s.dropPkt k).takeCredit core v port u
     | .ingest d => (s.dropPkt k).addIngCredit d (ingestKey t v port) u
     | _ => s.dropPkt k)
  | some { msg := .refuse r cls code, .. } =>
    let told := (s.core r.ctx.core).pend.any (fun p => p.id == r.id && p.failed)
    let s0 := if told then s.dropPkt k else (s.dropPkt k).recordRefusal r cls code
    (match r.kind with
     | .lds => if s.canComplete r.ctx then
         (if (s.core r.ctx.core).pend.any (fun p => p.id == r.id) then s0.partDone r [] [] true
          else (s0.pendLoad r 1).partDone r [] [] true) else s
     | .ldro => if s.canComplete r.ctx then
         (if (s.core r.ctx.core).pend.any (fun p => p.id == r.id) then s0.partDone r [] [] true
          else (s0.pendLoad r 1).partDone r [] [] true) else s
     | .atomic _ _ _ _ => if s.canComplete r.ctx then s0.atomicDone r 0 0x10 else s
     | _ => s0.lowerStore r)
  | _ => s

/-- REFUSAL_ACKNOWLEDGEMENT. -/
def execRefusalAcknowledgement (pkt : Nat) : State → Host.Outcome State Fault Refusal :=
  eventOf (refusalAcknowledgement pkt)

end Sys2Proof.Machine
end

