-- ==== Sys2Proof/Machine/Sources.lean ====
section
/-! DEFINITION. Memory as the engines reach it: translation, keys, sync lines, reads with side-bands and line writes
(R108, R112, R117, R124, R380, R391, R451); and the status words of contributions (R305, R311, R392, R423, R426). -/

namespace Sys2Proof.Machine

/-! ## Translation for an engine (R391) -/

/-- Why an engine's access stops: its page is not present, bytes of the host's memory have not come yet (R335), or it is refused with
class and code; with its address. -/
inductive XErr where
  | park (va : Word) (level : Nat)
  | host (pa n : Nat)
  | bad (cls code : Nat) (va : Word)
  deriving DecidableEq, Repr

/-- The KEY check of a line (R391): the code with which it is refused. A steward core's accesses may use any key that is
loaded, and the steward's own ids 0 to 15 (log 38). -/
def State.keyBad (s : State) (steward : Bool) (asid key : Nat) : Option Nat :=
  match (tabFind s.keys key).map (·.tenant) with
  | none => if key < 16 then (if steward then none else some 2) else some 1
  | some a => if steward then none else if key < 16 ∨ a ≠ asid then some 2 else none

/-- An engine reaches the address class: HBM and remote devices, and a copy local SRAM and the host as well (R94). -/
def engineReach (copy : Bool) : Space → Bool
  | .hbm _ => true
  | .remote _ _ => true
  | .win _ o => copy && decide (o < sramSize)
  | .host _ _ => copy
  | .csr _ _ => false
  | .reserved => true

/-- A kerf guard stops what a tenant's core or engine sends towards a core (R418): the guard's router and direction. -/
def State.kerfTo (s : State) (confined : Bool) (core asid target : Nat) : Option (Nat × Nat) :=
  if isSteward core || isSteward target then none else s.kerfLink confined asid (clusterOf core) (clusterOf target)

/-- A kerf guard stops a tenant engine's request to a core window (R418). -/
def State.kerfWin (s : State) (core asid target : Nat) : Option (Nat × Nat) := s.kerfTo false core asid target

/-- No route of a line between a core's cluster and an address avoids every retired link, so the network drops it (R415, R417). -/
def State.lineDead (s : State) (core pa : Nat) : Bool :=
  !s.linksWhole && (match s.spaceOf pa with
    | .hbm p => !s.routeLives none (clusterOf core) (homeOf p)
    | .win c _ => !s.routeLives none (clusterOf core) (clusterOf c)
    | .remote dev _ => !s.deviceLives false 0 (clusterOf core) dev
    | _ => false)

/-- Where the route of such a line ends. -/
def State.lineEnd (s : State) (core pa : Nat) : Nat :=
  match s.spaceOf pa with
  | .hbm p => s.deadEnd none (clusterOf core) (homeOf p)
  | .win c _ => s.deadEnd none (clusterOf core) (clusterOf c)
  | .remote dev _ => s.deadEnd none (clusterOf core) (((s.deviceLink dev).map (fun e => gatewayOf (dieOf core) e.1)).getD (clusterOf core))
  | _ => clusterOf core

/-- The physical address and key of an engine's access of n bytes within a page; payload writes take the back copy (R116). -/
def State.xlate (s : State) (core asid : Nat) (copy payload : Bool) (need : Need) (va : Word) (n : Nat) :
    Except XErr (Nat × Nat) :=
  if inSelf va then
    (if copy ∧ selfOfs va + n ≤ sramSize then .ok (winAddr core (selfOfs va), 0) else .error (.bad 0x06 0x04 va))
  else match s.walk (dieOf core) asid va with
    | .absent l => .error (.park va l)
    | .bad cls code => .error (.bad cls code va)
    | .leaf _ pte big =>
      let pa := s.leafPa (dieOf core) asid pte big payload va
      if permOk pte need = false then .error (.bad 0x06 0x03 va)
      else if engineReach copy (s.spaceOf pa) = false then .error (.bad 0x06 0x04 va)
      else if (copy || need.read) && s.lineDead core pa then .error (.bad 0x06 0x05 va)
      else match s.spaceOf pa with
        | .reserved => .error (.bad 0x06 0x05 va)
        | .host h o => if hostOk (tabGet 0 s.hostTab h) asid o n need.write then .ok (pa, 0) else .error (.bad 0x06 0x07 va)
        | .hbm p => match s.keyBad (isSteward core) asid (leafKey pte) with
          | some c => .error (.bad 0x07 c va)
          | none => .ok (p, leafKey pte)
        | .win c _ => if (s.kerfWin core asid c).isSome then .error (.bad 0x06 0x05 va) else .ok (pa, 0)
        | _ => .ok (pa, 0)

/-- A line that was dropped on its way to one of these addresses is recorded by the guard that stopped it, or by the router where
its route ends (R415, R417, R419). -/
def State.dropReport (s : State) (core asid : Nat) (src : Agent) (pas : List Nat) : State :=
  match pas.findSome? (fun pa => if isWin pa then (s.kerfWin core asid (winCore pa)).map (fun l => (winCore pa, l)) else none) with
  | some (c, l) => s.kerfDrop l 0 core c asid
  | none => match pas.find? (s.lineDead core) with
    | some pa => s.noRouteNote src (s.lineEnd core pa) asid
    | none => s

/-- The physical address of an address of an address space, if its page is there. -/
def State.pagePa (s : State) (core asid : Nat) (va : Word) : List Nat :=
  match s.walk (dieOf core) asid va with
  | .leaf _ pte big => [s.leafPa (dieOf core) asid pte big false va]
  | _ => []

/-- Sets A, and D for a write, in the leaf of a page, read through the home slices (R112, R113). -/
def State.touchPage (s : State) (core asid : Nat) (wr : Bool) (va : Word) : State :=
  if inSelf va then s else s.markPage (dieOf core) asid wr va

/-- A request of an engine meets the L2 TLB of its core's cluster behind a parked request for the page (R394). -/
def State.pageHeld (s : State) (core asid : Nat) (va : Word) : Bool :=
  !inSelf va && (s.cluster (clusterOf core)).holdsPage (asid, vpageOf va)

/-- The level at which the walk of a page would stop now. -/
def State.levelOf (s : State) (core asid : Nat) (va : Word) : Nat := (s.walk (dieOf core) asid va).level

/-- Side-band that a byte carries from where it is read: of its local SRAM word, or POISON (R356, R451). -/
def State.byteSide (s : State) (pa : Nat) : Byte :=
  if isSram pa then s.sideAt pa else if s.poison.contains (pa / 8) then 0x20 else 0

/-- Bytes at a physical address as an engine reads them, with their side-bands. The memory of the host and of other devices, which
this part does not hold, gives free values (log 18). -/
def State.readPhys (s : State) (key pa n : Nat) : List (Byte × Byte) :=
  match s.spaceOf pa with
  | .host _ _ => (List.range n).map (fun j => (Config.outsideByte s.fresh (pa + j), 0))
  | .remote _ _ => (List.range n).map (fun j => (Config.outsideByte s.fresh (pa + j), 0))
  | _ => (List.range n).map (fun j => (s.readByte key (pa + j), s.byteSide (pa + j)))

/-- Bytes of a virtual range as an engine reads them. -/
def State.readEngine (s : State) (core asid : Nat) (copy : Bool) (va : Word) (n : Nat) : Except XErr (List (Byte × Byte)) :=
  ((pageSpans va n).mapM (fun e =>
    (s.xlate core asid copy false { read := true, write := false } e.1 e.2).map (fun p => s.readPhys p.2 p.1 e.2))).map
      List.flatten

/-- The first page of a range behind which an engine's read parks, because a request for it is parked already (R394). -/
def State.rangeHeld (s : State) (core asid : Nat) (va : Word) (n : Nat) : Option Word :=
  ((pageSpans va n).find? (fun e => s.pageHeld core asid e.1)).map (·.1)

/-- A part of a range within a page is read: A of the page is set (R112), and its lines are accessed at their home slices (R104). -/
def State.touchSpan (s : State) (core asid : Nat) (e : Word × Nat) : State :=
  match s.xlate core asid true false { read := true, write := false } e.1 e.2 with
  | .ok p => (s.touchPage core asid false e.1).touchLines p.2 p.1 e.2 false
  | .error _ => s.touchPage core asid false e.1

/-- A range has been read; the next read of what lies outside the part draws anew. -/
def State.touchRange (s : State) (core asid : Nat) (va : Word) (n : Nat) : State :=
  (pageSpans va n).foldl (fun t e => t.touchSpan core asid e) s.drawn

/-! ## Writes and sync lines (R376, R380, R409, R451) -/

/-- A frame's body holds an armed slot word in a 128-byte line of HBM (R380). -/
def State.armedBody (s : State) (core : Nat) (e : Nat × Frame) (line : Nat) : Bool :=
  match e.2.body with
  | none => false
  | some b =>
    let base := (s.core core).spillbase + 4096 * b
    (e.2.state == .spilled || e.2.state == .spilling) &&
      (List.range e.2.nslot).any (fun j => decide ((base + 8 * j) / 128 = line) && slotArmed (s.fword core e.1 j))

/-- The line is an armed sync line of some core's spill area (R380). -/
def State.syncLine (s : State) (pa : Nat) : Bool :=
  isHbm pa && s.cores.any (fun c => c.2.frames.any (fun e => s.armedBody c.1 e (pa / 128)))

/-- A write of n bytes at a physical address meets an armed slot word, a token pool or an armed sync line (R376, R380). -/
def State.syncHit (s : State) (pa n : Nat) : Bool :=
  (isSram pa && (s.armedRange (winCore pa) (winOfs pa) n || s.poolRange (winCore pa) (winOfs pa) n))
    || (isHbm pa && (s.syncLine pa || s.syncLine (pa + n - 1)))

/-- The bytes of a write that fall into the 8-byte word w, from a list that starts at an address. -/
def wordPart (pa w : Nat) (bs : List (Byte × Byte)) : List (Byte × Byte) :=
  (bs.zipIdx.filter (fun e => (pa + e.2) / 8 == w)).map (·.1)

/-- Bytes written by an engine: each word of local SRAM takes the OR of the side-bands of the bytes written into it (R451), and
POISON goes with them into HBM (R356); a write to another device leaves the part (R299). -/
def State.writeEngine (s : State) (key pa : Nat) (bs : List (Byte × Byte)) : State :=
  match s.spaceOf pa with
  | .remote dev o => s.emitOut (.deviceWrite dev o (bs.map (·.1)))
  | _ => (wordsOf pa bs.length).foldl (fun t w =>
      let l := wordPart pa w bs
      t.writeBytes key (max pa (8 * w)) (l.map (·.1)) (l.foldl (fun b e => b ||| e.2) 0)) s

/-! ## Contributions (R303, R305, R311, R392, R423) -/

/-- FP32 elements from bytes. -/
def elemsOf : List (Byte × Byte) → List (BitVec 32)
  | a :: b :: c :: d :: t => BitVec.ofNat 32 (leNat [a.1, b.1, c.1, d.1]) :: elemsOf t
  | _ => []

/-- A job's frame counter of copies falls by one. -/
def State.copyDone (s : State) (x : Ctx) : State := s.settle x (fun f => { f with ncpy := f.ncpy - 1 })

/-- A word into F[fw] of a frame of a device, and an arrival of amount 1 at its slot. -/
def State.reportAt (s : State) (src : Agent) (dev tenant : Nat) (h : Handle) (slot fw : Nat) (w : Word) : State :=
  if dev = s.device then s.report src tenant h slot fw w
  else if h = 0 then s
  else s.send { src := src, dst := .device dev (handleCore h), cls := .token, tenant := tenant,
                msg := .frame (.handle h) slot fw 1 8 (zx w) 0 0 false, held := false }

/-- The status word of a contribution and its arrival, at the member's device; its frame's ncpy falls there (R302, R305, R311). `lo` is
where its completion triple begins in the descriptor. -/
def State.putStatus (s : State) (src : Agent) (c : Chunk) (lo : Nat) (w : Word) : State :=
  if c.dev = s.device then
    (s.report src c.ctx.tenant (BitVec.ofNat 32 (fieldN c.desc lo 32)) (fieldN c.desc (lo + 32) 6) (fieldN c.desc (lo + 38) 9) w).copyDone
      c.ctx
  else s.send { src := src, dst := .device c.dev c.ctx.core, cls := .token, tenant := c.ctx.tenant, msg := .putStatus c w, held := false }

/-- The status word of an HPPUT and its arrival (R311). -/
def State.hpStatus (s : State) (src : Agent) (c : Chunk) (status rho : Nat) : State :=
  s.putStatus src c 128 (BitVec.ofNat 64 (status + rho % 65536 * 65536))

/-- The status word of a REDPUT and its arrival: outcome, flags and use number (R305, R423). -/
def State.redStatus (s : State) (src : Agent) (c : Chunk) (outcome flags use : Nat) : State :=
  s.putStatus src c 80 (BitVec.ofNat 64 (1 + outcome * 2 + flags % 32 * 256 + use % 65536 * 65536))

/-- Cluster of the home router that a collective reference names (R301). -/
def refCluster (ref : Nat) : Nat := ref / 1024 % 4 * 120 + 12 * (ref / 64 % 16) + ref / 4 % 16
/-- Die of that router. -/
def refDie (ref : Nat) : Nat := ref / 1024 % 4
/-- Device id of a reference. -/
def refDev (ref : Nat) : Nat := ref / 4096 % 1024
/-- Key of a reduction or hoop in its die's tables: cluster × 4 + index. -/
def refKey (ref : Nat) : Nat := refCluster ref * 4 + ref % 4
/-- Bits [31:22] of a reference are zero, and its router exists (R301). -/
def refSound (ref : Nat) : Bool := decide (ref < 2 ^ 22) && decide (ref / 64 % 16 < 10) && decide (ref / 4 % 16 < 12)

/-- ρ of a hoop; a free value when the reference names none here (log 62). -/
def State.rhoOf (s : State) (ref : Nat) : Nat :=
  (if refDev ref = s.device ∧ refSound ref = true then (tabFind (s.die (refDie ref)).hoops (refKey ref)).map (·.rho)
   else none).getD s.freeTag

/-- The report of a definition sets out (R303): a handle of 0 sends none. -/
def State.defReport (s : State) (src : Agent) (tenant code members : Nat) (h : Handle) (slot fw : Nat) : State :=
  if h = 0 then s
  else s.send { src := src, dst := .core (handleCore h), cls := .token, tenant := tenant,
                msg := .defReport code members h slot fw, held := false }

/-- The report triple of HPDEF (R309). -/
def State.hpReport (s : State) (x : Ctx) (d : Vec) (code : Nat) : State :=
  s.defReport (.router (refCluster (fieldN d 0 32))) x.tenant code 0 (BitVec.ofNat 32 (fieldN d 256 32)) (fieldN d 288 6)
    (fieldN d 294 9)

/-- A hoop leaves its home with its ways (R309). -/
def State.dropHoop (s : State) (ref ways : Nat) : State :=
  s.modDie (refDie ref) (fun k =>
    { k with hoops := tabDel k.hoops (refKey ref),
             hoopWays := tabSet k.hoopWays (refCluster ref) (tabGet 0 k.hoopWays (refCluster ref) - ways) })

/-- A lag table that cannot be read refuses its definition, which keeps no way (R309, R425 code 0x09). -/
def State.failLags (s : State) (x : Ctx) (d : Vec) (ways : Nat) : State := (s.dropHoop (fieldN d 0 32) ways).hpReport x d 9

/-- Ways that a hoop of n elements takes (R309). -/
def hoopWaysOf (n : Nat) : Nat := (n * 40 + 131071) / 131072

/-- Elements of a hoop. -/
def hpLen (d : Vec) : Nat := fieldN d 76 12 + 1

/-- A member's contribution leaves its unit. Its next one takes the same use, from the chunk whose read failed (log 39). -/
def RedUnit.dropPut (u : RedUnit) (c : Chunk) : RedUnit :=
  if tabGet 0 u.sent c.member = c.use + 1 then
    { u with puts := u.puts.filter (fun p => !(p.member == c.member && p.use == c.use)), sent := tabSet u.sent c.member c.use,
             redo := tabSet u.redo c.member c.index }
  else { u with puts := u.puts.filter (fun p => !(p.member == c.member && p.use == c.use)) }

/-- A member's contribution is withdrawn from its router (R392). -/
def State.dropPut (s : State) (c : Chunk) : State :=
  s.modCluster (clusterOf c.ctx.core) (fun k =>
    { k with reds := k.reds.map (fun e => if e.1 = c.ref then (e.1, e.2.dropPut c) else e) })

/-- A hoop's entries with one changed. -/
def modHoops (l : Tab Hoop) (key : Nat) (f : Hoop → Hoop) : Tab Hoop := l.map (fun e => if e.1 = key then (e.1, f e.2) else e)
/-- A reduction's entries with one changed. -/
def modReds (l : Tab Reduction) (key : Nat) (f : Reduction → Reduction) : Tab Reduction :=
  l.map (fun e => if e.1 = key then (e.1, f e.2) else e)

/-- The hoop of a reference changed, when its home is on this device. -/
def State.modHoop (s : State) (ref : Nat) (f : Hoop → Hoop) : State :=
  if refDev ref = s.device ∧ refSound ref = true then
    s.modDie (refDie ref) (fun d => { d with hoops := modHoops d.hoops (refKey ref) f })
  else s
/-- The reduction of a reference changed, when its root is on this device. -/
def State.modRed (s : State) (ref : Nat) (f : Reduction → Reduction) : State :=
  if refDev ref = s.device ∧ refSound ref = true then
    s.modDie (refDie ref) (fun d => { d with reds := modReds d.reds (refKey ref) f })
  else s

/-- A source read that fails ends its contribution with status 5 (R392, R426); a lag table that is refused, its definition (R309). -/
def State.failSource (s : State) (m : Msg) : State :=
  match m with
  | .hpput c =>
    let s1 := if c.index = 0 then s else s.modHoop c.ref (fun h => { h with cur := none })
    s1.drawn.hpStatus (.router (clusterOf c.ctx.core)) c 5 (s.rhoOf c.ref)
  | .redChunk c => (s.dropPut c).redStatus (.router (clusterOf c.ctx.core)) c 5 0 c.use
  | .define 0 d x => s.failLags x d (hoopWaysOf (hpLen d))
  | _ => s

/-- A copy job fails with what its line met (R381). -/
def State.failCopy (s : State) (q : JobQueue) (id : Nat) (f : JobFault) : State :=
  s.modJob q id (fun j => { j with fault := some f, parked := false, progress := s.cycle })

/-- Where the completion record of a job goes: VA[47:19] of the ring, 16 bytes for each id. -/
def Job.recordVa (j : Job) : Word :=
  let b := if j.op = .turngo then fieldN j.desc 176 29 else fieldN j.desc 377 29
  (BitVec.ofNat 48 (b * 2 ^ 19 + 16 * (j.id % 32768))).signExtend 64

/-- The parked request of a copy job ends: a record write is dropped, a line fails the job (R284, R398). -/
def State.endCopy (s : State) (q : JobQueue) (id : Nat) (va : Word) : State :=
  if (s.jobIn q id).any (fun j => j.recordVa == va) then
    s.modJob q id (fun j => { j with recDone := true, parked := false })
  else s.failCopy q id { fcode := 3, cls := 0, code := 0, addr := some va.toNat }

/-- A purged result page: its hoop or reduction goes on without it (R398). -/
def State.forceResult (s : State) (who : Option Collective) : State :=
  match who with
  | some (.hoop ref) => s.modHoop ref (fun h => { h with force := true })
  | some (.reduction ref) => s.modRed ref (fun r => { r with force := true })
  | _ => s

/-- The purged store of a PUBL's even generation: the PUBL goes on without it (R398). -/
def State.endPublStore (s : State) (asid : Nat) (va : Word) : State :=
  { s with dies := s.dies.map (fun e => (e.1, { e.2 with publs := e.2.publs.map (fun j =>
      if j.asid = asid ∧ (e.2.pub asid j.k).any (fun p => vpageOf ((BitVec.ofNat 48 p.genaddr).signExtend 64) == vpageOf va) = true then
        { j with purged := true }
      else j) })) }

/-- A purged or refused request of an engine ends (R392, R398). -/
def State.endX (s : State) (x : XReq) : State :=
  match x with
  | .core r => s.endRefused r
  | .copy q id _ va _ => s.endCopy q id va
  | .source _ _ m _ => s.failSource m
  | .wait asid va _ who => (s.forceResult who).endPublStore asid va

/-- REPLAY_PURGE: every parked request of an address space leaves the queue and ends as a refusal, with no record (R398). -/
def replayPurge (cluster asid : Nat) (s : State) : State :=
  let k := s.cluster cluster
  let gone := k.parked.filter (fun x => x.page.1 == asid)
  gone.foldl (fun t x => t.endX x)
    (s.modCluster cluster (fun k => { k with parked := k.parked.filter (fun x => x.page.1 != asid),
                                             fltbuf := k.fltbuf.filter (fun e => e.asid != asid) }))

/-- REPLAY_PURGE. -/
def execReplayPurge (cluster asid : Nat) : State → Host.Outcome State Fault Refusal := eventOf (replayPurge cluster asid)

end Sys2Proof.Machine
end

