-- ==== Sys2Proof/Machine/Registers.lean ====
section
/-! DEFINITION. The core windows and the dies' CSR windows: what the steward and the management controller read and write
there (R55, R89, R96, R298, R334, R341, R348, R349, R365 to R368, R398, R407, R411, R433, R436, R437), and the events of
the logs, flags, monitors and registers. Offsets from 0x30_0000 up are the model's own (log 9). -/

namespace Sys2Proof.Machine

/-! ## Core windows (R96) -/

/-- 64-bit word j of a wide value. -/
def wordOf {w : Nat} (v : BitVec w) (j : Nat) : Word := v.extractLsb' (64 * j) 64

/-- A channel table entry (R78). -/
def Chan.entry (c : Chan) : BitVec 128 :=
  BitVec.ofNat 128 (c.base % 8192 + (c.depth - 1) % 8192 * 2 ^ 13 + b2n c.en * 2 ^ 26 + c.head % 8192 * 2 ^ 32
    + c.tail % 8192 * 2 ^ 45 + c.occ % 16384 * 2 ^ 64 + c.port % 4 * 2 ^ 78 + c.vnode % 2 ^ 20 * 2 ^ 80
    + c.pcore % 8192 * 2 ^ 100 + c.pport % 4 * 2 ^ 113 + b2n c.rcfg * 2 ^ 115)

/-- A ready entry (R65): its age is the cycles at its level, saturating. -/
def Ready.entryWord (r : Ready) (cycle : Nat) : Word :=
  BitVec.ofNat 64 (r.frame % 1024 + r.entry % 16384 * 2 ^ 10 + r.prio % 4 * 2 ^ 24 + r.bprio % 4 * 2 ^ 26
    + r.slot % 64 * 2 ^ 28 + min 8191 (cycle - r.since) * 2 ^ 34 + b2n r.cont * 2 ^ 47)

/-- A placement table entry, in the layout of PLACE without the index (R231, log 9). -/
def Place.entryWord (p : Place) : Word := BitVec.ofNat 64 (b2n p.valid + p.vnode % 2 ^ 20 * 2 + p.core % 8192 * 2 ^ 21)

/-- Two 32-bit words of a code table at a byte offset: its entries, then its header word (R96, R160). -/
def CodeTable.window (t : CodeTable) (o : Nat) : Word :=
  let w (a : Nat) : Nat := if a < 0x400 then (t.entry (a / 4)).toNat else if a = 0x400 then t.header.toNat else 0
  BitVec.ofNat 64 (w o + w (o + 4) * 2 ^ 32)

/-- The 8-byte word at an offset of a core window above local SRAM; none where the window is reserved. -/
def State.winWord (s : State) (core o : Nat) : Option Word :=
  let c := s.core core
  if o < 0x60000 then none
  else if o < 0x68000 then some (frameWordOf (c.frame ((o - 0x60000) / 32)) (o / 8 % 4))
  else if o < 0x68400 then some (wordOf (c.chan ((o - 0x68000) / 16)).entry (o / 8 % 2))
  else if o < 0x68600 then
    some (match c.ready[(o - 0x68400) / 8]? with
      | some r => r.entryWord s.cycle
      | none => 0)
  else if o < 0x69000 then none
  else if o < 0x69800 then
    some (match c.descs[(o - 0x69000) / 32]? with
      | some d => wordOf d.2 (o / 8 % 4)
      | none => 0)
  else if o < 0x69C00 then some (wordOf (c.tile ((o - 0x69800) / 16)).entry (o / 8 % 2))
  else if o < 0x6A000 then
    some (tabGet { valid := false, vnode := 0, core := 0 } c.place ((o - 0x69C00) / 8)).entryWord
  else if o < 0x6C000 then some ((c.ctags.toList[(o - 0x6A000) / 0x800]?.getD (.preset 0)).window ((o - 0x6A000) % 0x800))
  else if o < 0x80000 then none
  else if o < 0x90000 then some (BitVec.ofNat 64 (leNat (memBytes s.mem (winAddr core o) 8)))
  else if 0xF0000 ≤ o ∧ o < 0xF8000 ∧ csrAssigned ((o - 0xF0000) / 8) = true then
    some ((s.csrRead core ((o - 0xF0000) / 8)).setWidth 64)
  else none

/-- A steward's write to a CSR through the core window: as CSRW, and DETMODE, and the job fields of JOBID (R206, log 9). -/
def State.winCsrWrite (s : State) (core n : Nat) (v v1 : Word) : State :=
  match n with
  | 0x001 => s.modCore core (fun c => { c with jprio := fieldN v 12 2, jwork := fieldN v 16 16, gwork := fieldN v 32 16 })
  | 0x006 => s.modCore core (fun c => { c with detmode := bitN v 0 })
  | _ => s.csrWrite core n v v1

/-! ## The error log (R367, R437) -/

/-- Log control (R367). -/
def ErrLog.control (l : ErrLog) : Word :=
  BitVec.ofNat 64 (l.head % 256 + l.tail % 256 * 2 ^ 8 + b2n l.full * 2 ^ 16 + b2n l.ovf * 2 ^ 17 + l.dropped % 65536 * 2 ^ 32)

/-- A write of log control: the head moves, and writing 1 to ovf zeroes dropped. -/
def ErrLog.write (l : ErrLog) (v v1 : Word) : ErrLog :=
  let h := fieldN v 0 8
  { l with head := h, full := l.full && h == l.head, ovf := l.ovf && !bitN v1 17,
           dropped := if bitN v1 17 then 0 else l.dropped }

/-- LOG_APPEND: the four words of the port, as they stand, become a record (R437). -/
def logAppend (die : Nat) (s : State) : State :=
  let p := (s.die die).logPort
  s.logRec die (BitVec.ofNat 256 ((List.range 4).foldl (fun n j => n + (tabGet 0 p j).toNat * 2 ^ (64 * j)) 0))

/-- LOG_APPEND. -/
def execLogAppend (die : Nat) : State → Host.Outcome State Fault Refusal := eventOf (logAppend die)

/-! ## Monitor units of other units (R88, R89, R349) -/

/-- A monitor unit of a die. -/
def Die.mon (d : Die) (u : Nat) : Word × MonFig := tabGet (0, MonFig.zero) d.mons u

/-- Words of a monitor unit as its die's window shows them: select, min, max, count, sum, and the bins (log 9). -/
def monWord (m : Word × MonFig) : Nat → Word
  | 0 => m.1
  | 1 => BitVec.ofNat 64 m.2.min
  | 2 => BitVec.ofNat 64 m.2.max
  | 3 => BitVec.ofNat 64 m.2.cnt
  | 4 => BitVec.ofNat 64 m.2.sum
  | j => if j < 13 then wordOf m.2.histWord (j - 5) else 0

/-- The select word written: its clr bit zeroes the figures (R89). -/
def monSelect (m : Word × MonFig) (v v1 : Word) : Word × MonFig := (monselWord v, if bitN v1 7 then MonFig.zero else m.2)

/-- The bin of a sample (R88). -/
def monBin (x : Nat) : Nat := if x < 2 then 0 else min 15 x.log2

/-- A sample enters the figures; counts and bins saturate (R88, R89). -/
def MonFig.add (m : MonFig) (x : Nat) : MonFig :=
  { min := if m.cnt = 0 then x else Nat.min m.min x, max := Nat.max m.max x, cnt := Nat.min (2 ^ 32 - 1) (m.cnt + 1),
    sum := m.sum + x, hist := tabSet m.hist (monBin x) (Nat.min (2 ^ 32 - 1) (tabGet 0 m.hist (monBin x) + 1)) }

/-- MONITOR_CLEAR: all of a unit's figures are zeroed (R89). -/
def monitorClear (u : MonUnit) (s : State) : State :=
  match u with
  | .core c 0 => s.modCore c (fun c => { c with mon0 := MonFig.zero })
  | .core c _ => s.modCore c (fun c => { c with mon1 := MonFig.zero })
  | .other d n => s.modDie d (fun k => { k with mons := tabSet k.mons n ((k.mon n).1, MonFig.zero) })

/-- MONITOR_CLEAR. -/
def execMonitorClear (unit : MonUnit) : State → Host.Outcome State Fault Refusal := eventOf (monitorClear unit)

/-! ## Words of a die's CSR window -/

/-- PWRSTAT (R348). -/
def Power.word (p : Power) : Word :=
  BitVec.ofNat 64 (p.mhz % 4096 + p.watts % 4096 * 2 ^ 12 + p.budget % 4096 * 2 ^ 24 + p.tmax % 4096 * 2 ^ 36
    + p.droop % 256 * 2 ^ 48 + b2n p.thr * 2 ^ 56)

/-- RESCTL (R411). -/
def Resctl.word (r : Resctl) : Word :=
  BitVec.ofNat 64 (r.hold % 4096 + r.stallexp % 64 * 2 ^ 12 + r.degn % 1024 * 2 ^ 18 + r.degw % 16 * 2 ^ 28)

/-- RESCTL as written. -/
def resctlOf (v : Word) : Resctl :=
  { hold := fieldN v 0 12, stallexp := fieldN v 12 6, degn := fieldN v 18 10, degw := fieldN v 28 4 }

/-- STARTSTAT (R433). -/
def StartStat.word (t : StartStat) : Word :=
  BitVec.ofNat 64 (t.stage % 16 + t.die % 4 * 2 ^ 4 + t.code % 256 * 2 ^ 8 + t.detail % 256 * 2 ^ 16 + t.fails % 4 * 2 ^ 24
    + b2n t.minimal * 2 ^ 26)

/-- A fault buffer entry (R398). -/
def FltEnt.entry (e : FltEnt) : BitVec 128 :=
  BitVec.ofNat 128 (1 + b2n e.wr * 2 + e.level % 4 * 4 + e.asid % 4096 * 2 ^ 8 + e.count % 512 * 2 ^ 20
    + e.vpage % 2 ^ 32 * 2 ^ 32 + e.core % 8192 * 2 ^ 64 + e.kind % 8 * 2 ^ 77)

/-- A cluster's replay control word (R398). -/
def Cluster.replayWord (k : Cluster) : Word :=
  BitVec.ofNat 64 (b2n k.drop + b2n k.stop * 2 + k.parked.length % 512 * 4)

/-- A core's debug word (R407); a mark that takes no entry leaves the commit queue empty (R133). -/
def CoreSt.debugWord (c : CoreSt) : Word :=
  BitVec.ofNat 64 (b2n c.dbgStop + b2n (c.dbgStop && c.firing.isNone) * 2 + b2n (c.occupied == 0) * 4)

/-- State code of a work table entry (R55). -/
def workStateCode : WorkState → Nat
  | .free => 0 | .opened => 1 | .done => 2 | .cancelling => 3

/-- A work table entry (R55). -/
def Work.entry (w : Work) : BitVec 128 :=
  BitVec.ofNat 128 (w.level % 8 + workStateCode w.state * 2 ^ 3 + w.counter % 2 ^ 24 * 2 ^ 8 + w.tenant % 4096 * 2 ^ 32
    + w.pidx % 256 * 2 ^ 44 + w.pdie % 4 * 2 ^ 52 + w.seq % 64 * 2 ^ 54 + w.chandle.toNat * 2 ^ 64 + w.cslot % 64 * 2 ^ 96)

/-- An entry as the steward firmware opens it (R60, log 9): fields from the low word, its sequence kept. -/
def Work.opened (w : Work) (v : Word) : Work :=
  { w with level := fieldN v 0 3, counter := fieldN v 8 24, tenant := fieldN v 32 12, pidx := fieldN v 44 8, pdie := fieldN v 52 2,
           state := match fieldN v 3 2 with
             | 0 => .free | 1 => .opened | 2 => .done | _ => .cancelling }

/-- Word 0 of a work table entry is written by the steward firmware: an OPEN entry that stays OPEN counts the difference as a completion or a
launch of its level does, so the report slot's decrement may complete its graph (R56, R61; log 9). -/
def State.writeWork (s : State) (die i : Nat) (v : Word) : State :=
  let w := s.work die i
  if w.state = .opened ∧ fieldN v 3 2 = 1 ∧ fieldN v 0 3 = w.level then
    s.sendWork (.core (stewardOf die)) (s.workId die i) ((fieldN v 8 24 : Int) - (w.counter : Int)) 0
  else s.setWork die i (w.opened v)

/-- A region of the steward's table, with its owner (R452, log 9). -/
def Region.word (r : Region) : Word :=
  BitVec.ofNat 64 (1 + r.tenant % 4096 * 2 + r.x0 % 64 * 2 ^ 13 + r.y0 % 16 * 2 ^ 19 + r.w % 64 * 2 ^ 23 + r.h % 16 * 2 ^ 29
    + r.job % 65536 * 2 ^ 33)

/-- A region as written. -/
def regionOf (v : Word) : Region :=
  { tenant := fieldN v 1 12, job := fieldN v 33 16, x0 := fieldN v 13 6, y0 := fieldN v 19 4, w := fieldN v 23 6, h := fieldN v 29 4 }

/-- A key id of the steward's table, with its owner; the key itself does not read (R117, log 9). -/
def KeyEnt.word (e : KeyEnt) : Word := BitVec.ofNat 64 (1 + e.tenant % 4096 * 2 + e.job % 65536 * 2 ^ 13)

/-- A parked-context entry (R86, log 9). -/
def parkedWord (e : Nat × Nat) : Word := BitVec.ofNat 64 (1 + e.1 % 4096 * 2 + e.2 % 2 ^ 48 * 2 ^ 16)

/-- Word j of the mailbox: result in word 0, then pa, sigoff and siglen (R436). -/
def Spmbox.read (m : Spmbox) (j : Nat) : Word :=
  match j with
  | 0 => BitVec.ofNat 64 (fieldN (tabGet 0 m.words 0) 8 8 * 256)
  | 3 => 0
  | _ => tabGet 0 m.words j

/-- VERIFY_IMAGE: a command written while the result is not BUSY sets it to BUSY (R436). -/
def verifyImage (s : State) : State :=
  if s.spmbox.busy then s
  else { s with spmbox := { busy := true, words := tabSet s.spmbox.words 0 0x100 } }

/-- VERIFY_IMAGE. -/
def execVerifyImage : State → Host.Outcome State Fault Refusal := eventOf verifyImage

/-- A write to word j of the mailbox. -/
def State.mailWrite (s : State) (j : Nat) (v v1 : Word) : State :=
  match j with
  | 0 => if fieldN v1 0 8 = 1 then verifyImage s else s
  | 3 => s
  | _ => { s with spmbox := { s.spmbox with words := tabSet s.spmbox.words j v } }

/-- The ingest tables, loaded from HBM through the home slices (R104) by the words of the load port: address, length, then kind and slot (log 9): 0 a character
table, 1 a dictionary, 2 a vocabulary (its byte-fallback base, entry count, matrix rows, class nibbles and 72-byte entries). -/
def State.loadIngest (s0 : State) (die : Nat) (cmd : Word) : State :=
  let p := (s0.die die).ingPort
  let b := memBytes s0.mem (tabGet 0 p 0).toNat (tabGet 0 p 1).toNat
  let s := s0.touchPlains (tabGet 0 p 0).toNat b.length false
  let at_ (o n : Nat) : Nat := leNat ((b.drop o).take n)
  let slot := fieldN cmd 8 16
  match fieldN cmd 0 2 with
  | 0 =>
    let tab := (List.range (b.length / 4)).map (fun j => BitVec.ofNat 32 (at_ (4 * j) 4))
    s.modDie die (fun k => { k with charTabs := tabSet k.charTabs slot tab })
  | 1 => s.modDie die (fun k => { k with dicts := tabSet k.dicts slot b })
  | _ =>
    let voc : Vocab :=
      { fbbase := BitVec.ofNat 32 (at_ 0 4), matrix := (List.range 16).map (fun r => (r, at_ (8 + 2 * r) 2)),
        classes := (List.range 65536).filterMap (fun c =>
          let v := at_ (40 + c / 2) 1 / 16 ^ (c % 2) % 16
          if v = 0 then none else some (c, v)),
        entries := (List.range (at_ 4 4)).map (fun e =>
          ((b.drop (32808 + 72 * e + 8)).take (at_ (32808 + 72 * e + 4) 4), at_ (32808 + 72 * e) 4)) }
    s.modDie die (fun k => { k with vocabs := tabSet k.vocabs slot voc })

/-! ## Contexts that are saved and restored (R83 to R85, R406) -/

/-- A cancel that the steward firmware makes by containment: a work table id (R57, R360, R404, R405; log 9). -/
def State.containWrite (s : State) (v : Word) : State :=
  let die := fieldN v 14 2
  let i := fieldN v 0 8
  if (s.work die i).seq = fieldN v 8 6 then s.cancelLevel die i true else s

/-- Code of a context's state (R85). -/
def phaseCode : CtxPhase → Nat
  | .marking => 1 | .drained => 2 | .saved => 3 | .switchedOut => 4 | .restoring => 5

/-- The state that the steward moves a context to: SAVED once the state is saved, SWITCHED-OUT or RESTORING from there, RESTORING from
SWITCHED-OUT, and RUNNING, which has no record, once the generators are resumed (R85). -/
def Drain.move (d : Drain) (code : Nat) : Option Drain :=
  match d.phase, code with
  | .drained, 3 => some { d with phase := .saved }
  | .saved, 4 => some { d with phase := .switchedOut }
  | .saved, 5 => some { d with phase := .restoring }
  | .switchedOut, 5 => some { d with phase := .restoring }
  | .restoring, 0 => none
  | _, _ => some d

/-- Code of a token's kind, as in the ring (R41, R87). -/
def tokCode : TokKind → Nat
  | .data => 0 | .endm => 1 | .checkpoint => 2 | .reconfig => 3
/-- The kind of a code. -/
def tokOfCode : Nat → TokKind
  | 0 => .data | 1 => .endm | 2 => .checkpoint | _ => .reconfig

/-- The header of a token as the port shows it: kind, form, side-band and colour. -/
def Token.head (t : Token) : Word := BitVec.ofNat 64 (tokCode t.kind + b2n t.vec * 4 + t.side.toNat * 256 + t.colour % 2 ^ 18 * 2 ^ 16)

/-- Code of a generator's state. -/
def genCode : GenState → Nat
  | .idle => 0 | .bound => 1 | .run => 2

/-- Four 16-bit figures of a generator's levels. -/
def levelWord (t : Tab Nat) : Word := BitVec.ofNat 64 ((List.range 4).foldl (fun n j => n + tabGet 0 t j % 65536 * 2 ^ (16 * j)) 0)

/-- What the port selects: core, kind of object, index, and place within it. -/
def ctxSel (v : Word) : Nat × Nat × Nat × Nat := (fieldN v 0 13, fieldN v 13 3, fieldN v 16 16, fieldN v 32 16)

/-- Word j, from 1, of the object that a die's context port selects (log 9): a context's state; a generator; a token of a channel; or a tag
with a row's state. -/
def State.ctxRead (s : State) (die j : Nat) : Word :=
  let port := (s.die die).ctxPort
  let (core, kind, index, place) := ctxSel (tabGet 0 port 0)
  let c := s.core core
  let g := tabGet Gen.zero c.gens index
  let t := (c.chan index).toks[place]?
  let tag := tabGet TagRec.zero c.press.tags index
  let row := tabGet RowState.zero c.press.rowst (tag.rsbase + place)
  match j, kind with
  | 0, _ => tabGet 0 port 0
  | 1, 0 => BitVec.ofNat 64 (((s.drains.find? (fun d => d.asid == index)).map (fun d => phaseCode d.phase)).getD 0)
  | 1, 1 => BitVec.ofNat 64 (genCode g.state + b2n g.stop * 4 + b2n g.done * 8 + b2n g.marked * 16 + b2n g.parked * 32 + g.bsrc % 16 * 2 ^ 8
      + g.depth % 8 * 2 ^ 12 + g.vnode % 2 ^ 20 * 2 ^ 16)
  | 2, 1 => levelWord g.dbound
  | 3, 1 => levelWord g.bounds
  | 4, 1 => levelWord g.idx
  | 1, 2 => (t.map Token.head).getD 0
  | n, 2 => (t.map (fun t => wordOf t.data (n - 2))).getD 0
  | 1, 3 => BitVec.ofNat 64 (b2n tag.present + tag.rsbase * 2)
  | 2, 3 => row.mu.setWidth 64
  | 3, 3 => row.sigma.setWidth 64
  | _, _ => 0

/-- A saved token comes back into its channel, with its kind and behind those that are there, while it fits (R84, step 3). DESIGN CHOICE:
it is not charged against its producer's credits (log 80). -/
def State.restoreToken (s : State) (core i : Nat) (t : Token) : State :=
  let ch := (s.core core).chan i
  if ch.en && decide (ch.occ + t.cost ≤ ch.depth) then
    ((s.modChan core i (fun ch => ch.push t s.cycle)).modCore core (fun c => c.want ch.vnode)).evalCore core
  else s

/-- A Press slice changed. -/
def State.withPress (s : State) (core : Nat) (f : Press → Press) : State := s.modCore core (fun c => { c with press := f c.press })

/-- A row of a tag's carried state, or with it all of it, is restored (R84, R406). -/
def State.restoreRow (s : State) (core tag place : Nat) (f : RowState → RowState) : State :=
  s.withPress core (fun p =>
    let r := (tabGet TagRec.zero p.tags tag).rsbase + place
    { p with rowst := tabSet p.rowst r (f (tabGet RowState.zero p.rowst r)) })

/-- Word j of the context port is written (log 9): the words of a token before its header, which puts it in. -/
def State.ctxWrite (s : State) (die j : Nat) (v : Word) : State :=
  let port := (s.die die).ctxPort
  let (core, kind, index, place) := ctxSel (tabGet 0 port 0)
  let s1 := s.modDie die (fun d => { d with ctxPort := tabSet d.ctxPort j v })
  match j, kind with
  | 0, _ => s1
  | 1, 0 => { s1 with drains := s1.drains.filterMap (fun d => if d.asid = index then d.move (fieldN v 0 3) else some d) }
  | 1, 2 => s1.restoreToken core index
      { kind := tokOfCode (fieldN v 0 2), side := BitVec.ofNat 8 (fieldN v 8 7), colour := fieldN v 16 18, vec := bitN v 2,
        data := BitVec.ofNat 512 ((List.range 8).foldl (fun n k => n + (tabGet 0 port (k + 2)).toNat * 2 ^ (64 * k)) 0) }
  | 1, 3 => s1.withPress core (fun p =>
      { p with tags := tabSet p.tags index { (tabGet TagRec.zero p.tags index) with present := bitN v 0 } })
  | 2, 3 => s1.restoreRow core index place (fun r => { r with mu := v.setWidth 34 })
  | 3, 3 => s1.restoreRow core index place (fun r => { r with sigma := v.setWidth 34 })
  | _, _ => s1

/-! ## Words of a die's CSR window, by offset -/

/-- The 8-byte word at an offset of a die's CSR window, as it reads; none where nothing is assigned. -/
def State.regRead (s : State) (die o : Nat) : Option Word :=
  let d := s.die die
  let cl (c : Nat) : Cluster := s.cluster (die * 120 + c)
  if o = 0x100 ∨ o = 0x108 then some (wordOf (d.harvest.setWidth 128) (o / 8 % 2))
  else if o = 0x200 ∧ die = 0 then some s.power.word
  else if o = 0x300 then some d.resctl.word
  else if o = 0x400 ∧ die = 0 then some s.start.word
  else if 0x500 ≤ o ∧ o < 0x520 ∧ die = 0 then some (s.spmbox.read ((o - 0x500) / 8))
  else if 0x1000 ≤ o ∧ o < 0x11E0 then
    some (BitVec.ofNat 64 ((cl ((o - 0x1000) / 4)).health.toNat + (cl ((o - 0x1000) / 4 + 1)).health.toNat * 2 ^ 32))
  else if o = 0x11E0 then some (BitVec.ofNat 64 (d.health.toNat + (if die = 0 then s.dlinks.toNat * 2 ^ 32 else 0)))
  else if 0x2000 ≤ o ∧ o < 0x23C0 then some ((cl ((o - 0x2000) / 8)).flags.setWidth 64)
  else if o = 0x3000 then some d.log.control
  else if 0x3100 ≤ o ∧ o < 0x3120 then some 0
  else if 0x4000 ≤ o ∧ o < 0x6000 then some (wordOf (tabGet 0 d.log.recs ((o - 0x4000) / 32)) (o / 8 % 4))
  else if 0x8000 ≤ o ∧ o < 0xBC00 then
    some (match (cl ((o - 0x8000) / 128)).fltbuf[(o - 0x8000) / 16 % 8]? with
      | some e => wordOf e.entry (o / 8 % 2)
      | none => 0)
  else if 0xC000 ≤ o ∧ o < 0xC3C0 then some (cl ((o - 0xC000) / 8)).replayWord
  else if 0x10000 ≤ o ∧ o < 0x14000 then some (s.core (die * 2048 + (o - 0x10000) / 8)).debugWord
  else if 0x100000 ≤ o ∧ o < 0x108000 then some (tabGet 0 d.farnode ((o - 0x100000) / 8))
  else if 0x200000 ≤ o ∧ o < 0x208000 ∧ die = 0 then some (wordOf (tabGet 0 s.hostTab ((o - 0x200000) / 32)) (o / 8 % 4))
  else if 0x300000 ≤ o ∧ o < 0x308000 then some (BitVec.ofNat 64 (tabGet 0 d.roots ((o - 0x300000) / 8)))
  else if 0x308000 ≤ o ∧ o < 0x309000 then some (wordOf (s.work die ((o - 0x308000) / 16)).entry (o / 8 % 2))
  else if 0x309000 ≤ o ∧ o < 0x309080 then some (((tabFind d.parkedCtx ((o - 0x309000) / 8)).map parkedWord).getD 0)
  else if 0x30A000 ≤ o ∧ o < 0x30A800 then some (((tabFind s.regions ((o - 0x30A000) / 8)).map Region.word).getD 0)
  else if 0x30B000 ≤ o ∧ o < 0x30C000 then
    some (((tabFind s.keys ((o - 0x30B000) / 8)).map KeyEnt.word).getD 0)
  else if 0x320000 ≤ o ∧ o < 0x380000 then some (monWord (d.mon ((o - 0x320000) / 128)) (o / 8 % 16))
  else if 0x380000 ≤ o ∧ o < 0x380018 then some (tabGet 0 d.ingPort ((o - 0x380000) / 8))
  else if 0x390000 ≤ o ∧ o < 0x390058 then some (s.ctxRead die ((o - 0x390000) / 8))
  else if 0x400000 ≤ o ∧ o < 0x408000 ∧ die = 0 then some (tabGet 0 s.qps ((o - 0x400000) / 8))
  else if 0x410000 ≤ o ∧ o < 0x430000 ∧ die = 0 then some (wordOf (tabGet 0 s.rkeys ((o - 0x410000) / 32)) (o / 8 % 4))
  else none

/-- A word of a wide entry replaced. -/
def setWordOf {w : Nat} (v : BitVec w) (j : Nat) (x : Word) : BitVec w := setFieldN v (64 * j) 64 x.toNat

/-- A write to a core's debug word: stop and resume, and a step (R407, R410). -/
def State.debugWrite (s : State) (core : Nat) (v v1 : Word) : State :=
  let s1 := if bitN v 0 then debugStop core s else debugResume core s
  if bitN v1 3 then debugStep core s1 else s1

/-- An 8-byte word of a die's CSR window is written: v for its RW fields, v1, zero outside the bytes written, for its W1C and WO
fields. -/
def State.regWrite (s : State) (die o : Nat) (v v1 : Word) : State :=
  let c (k : Nat) : Nat := die * 120 + k
  if o = 0x200 ∧ die = 0 then
    { s with power := { s.power with
        budget := if 600 ≤ fieldN v 24 12 ∧ fieldN v 24 12 ≤ 2400 then fieldN v 24 12 else s.power.budget,
        thr := s.power.thr && !bitN v1 56 } }
  else if o = 0x300 then s.modDie die (fun d => { d with resctl := resctlOf v })
  else if 0x500 ≤ o ∧ o < 0x520 ∧ die = 0 then s.mailWrite ((o - 0x500) / 8) v v1
  else if 0x2000 ≤ o ∧ o < 0x23C0 then
    s.modCluster (c ((o - 0x2000) / 8)) (fun k => { k with flags := k.flags &&& ~~~(v1.setWidth 8) })
  else if o = 0x3000 then s.modDie die (fun d => { d with log := d.log.write v v1 })
  else if 0x3100 ≤ o ∧ o < 0x3120 then
    let s1 := s.modDie die (fun d => { d with logPort := tabSet d.logPort ((o - 0x3100) / 8) v1 })
    if o = 0x3118 then logAppend die s1 else s1
  else if 0xC000 ≤ o ∧ o < 0xC3C0 then
    (if bitN v1 28 then replayPurge (c ((o - 0xC000) / 8)) (fieldN v1 16 12) s else s)
  else if 0x10000 ≤ o ∧ o < 0x14000 then s.debugWrite (die * 2048 + (o - 0x10000) / 8) v v1
  else if 0x100000 ≤ o ∧ o < 0x108000 then
    s.modDie die (fun d => { d with farnode := tabSet d.farnode ((o - 0x100000) / 8) v })
  else if 0x200000 ≤ o ∧ o < 0x208000 ∧ die = 0 then
    let h := (o - 0x200000) / 32
    { s with hostTab := tabSet s.hostTab h (setWordOf (tabGet 0 s.hostTab h) (o / 8 % 4) v) }
  else if 0x300000 ≤ o ∧ o < 0x308000 then
    s.modDie die (fun d => { d with roots := tabSet d.roots ((o - 0x300000) / 8) (v.toNat % 2 ^ 52) })
  else if 0x308000 ≤ o ∧ o < 0x309000 then
    let i := (o - 0x308000) / 16
    (if o / 8 % 2 = 0 then s.writeWork die i v
     else s.setWork die i { (s.work die i) with chandle := v.setWidth 32, cslot := fieldN v 32 6 })
  else if 0x309000 ≤ o ∧ o < 0x309080 then
    let i := (o - 0x309000) / 8
    s.modDie die (fun d =>
      { d with overrun := d.overrun.filter (fun t => t != fieldN v 1 12),
               parkedCtx := if bitN v 0 then tabSet d.parkedCtx i (fieldN v 1 12, fieldN v 16 48) else tabDel d.parkedCtx i })
  else if 0x30A000 ≤ o ∧ o < 0x30A800 then
    let i := (o - 0x30A000) / 8
    { s with regions := if bitN v 0 then tabSet s.regions i (regionOf v) else tabDel s.regions i }
  else if 0x30B000 ≤ o ∧ o < 0x30C000 then
    let i := (o - 0x30B000) / 8
    if bitN v 0 then s.loadKey i (fieldN v 1 12) (fieldN v 13 16) else { s with keys := tabDel s.keys i }
  else if 0x320000 ≤ o ∧ o < 0x380000 then
    (if o / 8 % 16 = 0 then
      s.modDie die (fun d => { d with mons := tabSet d.mons ((o - 0x320000) / 128) (monSelect (d.mon ((o - 0x320000) / 128)) v v1) })
     else s)
  else if 0x380000 ≤ o ∧ o < 0x380018 then
    let s1 := s.modDie die (fun d => { d with ingPort := tabSet d.ingPort ((o - 0x380000) / 8) v })
    if o = 0x380010 then s1.loadIngest die v else s1
  else if o = 0x309800 then s.containWrite v1
  else if 0x390000 ≤ o ∧ o < 0x390058 then s.ctxWrite die ((o - 0x390000) / 8) v
  else if 0x400000 ≤ o ∧ o < 0x408000 ∧ die = 0 then
    { s with qps := if bitN v 36 then tabSet s.qps ((o - 0x400000) / 8) v else tabDel s.qps ((o - 0x400000) / 8) }
  else if 0x410000 ≤ o ∧ o < 0x430000 ∧ die = 0 then
    let i := (o - 0x410000) / 32
    { s with rkeys := tabSet s.rkeys i (setWordOf (tabGet 0 s.rkeys i) (o / 8 % 4) v) }
  else s

/-! ## Accesses of a home to a window -/

/-- Bytes of a window read through its 8-byte words; an unassigned word draws a free value (log 9). -/
def readWords (word : Nat → Option Word) (fresh o n : Nat) : List Byte :=
  (List.range n).map (fun j =>
    let w := (word ((o + j) / 8 * 8)).getD (Config.freeWord (fresh + (o + j) / 8 - o / 8))
    w.extractLsb' (8 * ((o + j) % 8)) 8)

/-- The 8-byte words that n bytes at an offset touch, each with its old value merged with the bytes, and the bytes alone. -/
def mergeWords (word : Nat → Option Word) (o : Nat) (bs : List Byte) : List (Nat × Word × Word) :=
  (wordsOf o bs.length).map (fun w =>
    let old := (word (8 * w)).getD 0
    let put (base : Word) : Word := (bs.zipIdx.filter (fun e => (o + e.2) / 8 == w)).foldl
      (fun x e => setFieldN x (8 * ((o + e.2) % 8)) 8 e.1.toNat) base
    (8 * w, put old, put 0))

/-- Bytes written into a die's CSR window. -/
def State.writeRegs (s : State) (die o : Nat) (bs : List Byte) : State :=
  (mergeWords (s.regRead die) o bs).foldl (fun t e => t.regWrite die e.1 e.2.1 e.2.2) s

/-- Bytes written into a core window above local SRAM: the instruction store, whose block loses its seal (R95), and CSRs; its
tables are read-only (R96). -/
def State.writeWin (s : State) (core o : Nat) (bs : List Byte) : State :=
  if 0x80000 ≤ o ∧ o < 0x90000 then
    { s with mem := memPuts s.mem (winAddr core o) bs }.modCore core (fun c =>
      { c with sealed := c.sealed &&& ~~~(BitVec.ofNat 16 (2 ^ ((o - 0x80000) / 4096))) })
  else if 0xF0000 ≤ o ∧ o < 0xF8000 then
    (mergeWords (s.winWord core) o bs).foldl (fun t e => t.winCsrWrite core ((e.1 - 0xF0000) / 8) e.2.1 e.2.2) s
  else s

/-! ## Events on registers (R89, R366 to R368, R389, R420, R411) -/

/-- REGISTER_WRITE: the steward or the management controller writes an 8-byte register of a die's CSR window. -/
def registerWrite (die o : Nat) (v : Word) (s : State) : State := s.regWrite die (o / 8 * 8) v v

/-- REGISTER_WRITE. -/
def execRegisterWrite (die offset : Nat) (value : Word) : State → Host.Outcome State Fault Refusal :=
  eventOf (registerWrite die offset value)

/-- FIRSTX_EMPTY: 0xFF into the class field empties the latch (R366). -/
def execFirstxEmpty (core : Nat) : State → Host.Outcome State Fault Refusal :=
  eventOf (fun s => s.csrWrite core 0x008 0xFF 0xFF)

/-- LOG_OVERFLOW_CLEAR: writing 1 to ovf clears it and zeroes dropped (R367). -/
def logOverflowClear (die : Nat) (s : State) : State :=
  s.modDie die (fun d => { d with log := d.log.write d.log.control 0x20000 })

/-- LOG_OVERFLOW_CLEAR. -/
def execLogOverflowClear (die : Nat) : State → Host.Outcome State Fault Refusal := eventOf (logOverflowClear die)

/-- CLUSTER_FLAG_CLEAR: bits of a cluster flag word are cleared where the mask holds 1 (R368). -/
def clusterFlagClear (cluster : Nat) (mask : Word) (s : State) : State :=
  s.modCluster cluster (fun k => { k with flags := k.flags &&& ~~~(mask.setWidth 8) })

/-- CLUSTER_FLAG_CLEAR. -/
def execClusterFlagClear (cluster : Nat) (mask : Word) : State → Host.Outcome State Fault Refusal :=
  eventOf (clusterFlagClear cluster mask)

/-- KERFREP_CLEAR: valid and count are cleared (R420). -/
def execKerfrepClear (die : Nat) : State → Host.Outcome State Fault Refusal :=
  eventOf (fun s => s.modDie die (fun d => { d with kerfrep := kerfrepClear d.kerfrep 1 }))

/-- QRING_OVERFLOW_CLEAR: ovf is cleared (R389). -/
def execQringOverflowClear (die : Nat) : State → Host.Outcome State Fault Refusal :=
  eventOf (fun s => s.modDie die (fun d => { d with qring := d.qring.write d.qring.word (BitVec.ofNat 64 (2 ^ 57)) }))

/-- THROTTLE_FLAG_CLEAR: thr is cleared (R348). -/
def execThrottleFlagClear : State → Host.Outcome State Fault Refusal :=
  eventOf (fun s => { s with power := { s.power with thr := false } })

end Sys2Proof.Machine
end

