-- ==== Sys2Proof/Machine/Home.lean ====
section
/-! DEFINITION. What a home does with a request: its order (R124, R128), the KEY and sync-word checks (R376, R391), loads,
stores, atomics and the windows (R95, R96, R125, R238, R244 to R247, R299, R409). -/

namespace Sys2Proof.Machine

/-! ## The memory order of a die (R128) -/

/-- The home lies on the die of the request's core (R123). -/
def State.dieLocal (s : State) (r : Req) : Bool := r.dev.isNone && s.localPa r.ctx.core r.pa

/-- Two requests touch a byte in common. -/
def overlaps (q r : Req) : Bool := decide (q.pa < r.pa + r.size) && decide (r.pa < q.pa + q.size)

/-- An earlier access q of the same core, on its way to its home, must be performed before r: not when q is a store, r a load,
and their locations differ (R128 rule 3). -/
def State.mustPrecede (s : State) (q r : Req) : Bool :=
  q.ctx.core == r.ctx.core && decide (q.id < r.id) && q.kind.ordered && s.dieLocal q && r.dev.isNone
    && !(q.kind.isStore && r.kind == .lds && !overlaps q r)

/-- An earlier ordered access of the core that is in translation and not known to be far. -/
def State.laterThan (s : State) (r : Req) (x : XReq) : Bool :=
  match x with
  | .core q => q.ctx.core == r.ctx.core && decide (q.id < r.id) && q.kind.ordered && !s.knownFar q
  | _ => false

/-- The rules of R128 let a die-local ordered access be performed now; other accesses keep only the order of their network
flow (R124, R137). -/
def State.orderOk (s : State) (r : Req) : Bool :=
  if r.kind.ordered && s.dieLocal r then
    let k := s.cluster (clusterOf r.ctx.core)
    s.net.all (fun p => match p.msg with
      | .access q => !s.mustPrecede q r
      | _ => true) && !k.walking.any (s.laterThan r) && !k.parked.any (s.laterThan r)
  else true

/-! ## Loads -/

/-- Side-band of each 8-byte word that n bytes touch, as a load brings it: of local SRAM, or POISON of HBM (R173, R356); of a token pool
a free value (log 6). -/
def State.sidesFor (s : State) (pa n : Nat) : List Byte :=
  (wordsOf pa n).map (fun w => if isSram pa && s.poolRange (winCore pa) (winOfs pa) n then s.freeSide else s.byteSide (8 * w))

/-- Bytes of a load at its home; words of a token pool, whose contents the manual does not lay out, are free values (log 6). -/
def State.loadBytes (s : State) (r : Req) : List Byte :=
  let free := (List.range r.size).map (fun j => Config.outsideByte s.fresh (r.pa + j))
  match s.spaceOf r.pa with
  | .win c o =>
    if o < sramSize then (if s.poolRange c o r.size then free else s.readBytes 0 r.pa r.size)
    else readWords (s.winWord c) s.fresh o r.size
  | .csr d o => readWords (s.regRead d) s.fresh o r.size
  | _ => s.readBytes r.key r.pa r.size

/-- A load is performed: its response leaves; an LDRO brings the whole line (R243). -/
def State.homeLoad (s : State) (r : Req) : State :=
  let src := s.agentOf r.pa
  if r.kind = .ldro then
    let a := r.pa / 128 * 128
    (s.touchLines r.key a 128 false).sendResp src r (.loadResp r (s.readBytes r.key a 128) (s.sidesFor a 128))
  else { s.touchLines r.key r.pa r.size false with fresh := s.fresh + r.size / 8 + 2 }.sendResp src r
    (.loadResp r (s.loadBytes r) (s.sidesFor r.pa r.size))

/-! ## Stores -/

/-- A steward's store into another core's local SRAM (R409). -/
def Req.stewardStore (r : Req) : Bool :=
  isSteward r.ctx.core && r.kind.isStore && isSram r.pa && winCore r.pa != r.ctx.core

/-- The sync-word check of R376 refuses the access. -/
def State.syncRefused (s : State) (r : Req) : Bool := !r.stewardStore && s.syncHit r.pa r.size

/-- A steward store that covers slot words is progress of their frame (R431), and the slots are tested (R409). -/
def State.afterSteward (s : State) (r : Req) : State :=
  let core := winCore r.pa
  match (s.core core).frameAt (winOfs r.pa) with
  | none => s
  | some (i, k) =>
    if k < ((s.core core).frame i).nslot then (s.modFrame core i (fun f => f.touch s.cycle)).evalCore core else s

/-- A store is performed: its bytes are written and the acknowledgement leaves; one into the core's own local SRAM is
acknowledged in the same step (R129). -/
def State.homeStore (s : State) (r : Req) : State :=
  let bs := leBytes r.size r.data.toNat
  let s1 := match s.spaceOf r.pa with
    | .win c o => if o < sramSize then s.writeBytes 0 r.pa bs r.side else s.writeWin c o bs
    | .csr d o => s.writeRegs d o bs
    | _ => s.writeBytes r.key r.pa bs r.side
  let s2 := if r.stewardStore then s1.afterSteward r else s1
  if isSram r.pa ∧ winCore r.pa = r.ctx.core then s2.lowerStore r else s2.sendResp (s.agentOf r.pa) r (.ack r)

/-! ## Atomics (R245, R246) -/

/-- The result of an atomic and its flags: op, width in bits, old value, operands. -/
def atomResult (op w : Nat) (old x y : Nat) : Nat × Byte :=
  match op with
  | 0 => ((old + x) % 2 ^ w, 0)
  | 1 => (old &&& x, 0)
  | 2 => (old ||| x, 0)
  | 3 => (old ^^^ x, 0)
  | 4 => (if sextN w old ≤ sextN w x then old else x, 0)
  | 5 => (if sextN w old ≤ sextN w x then x else old, 0)
  | 6 => (x, 0)
  | 7 => rounded fmtF32 .rne (addX .rne (fmtF32.decode old) (fmtF32.decode x))
  | _ => (if old = x then y else old, 0)

/-- An atomic is performed as one indivisible step: an ACAS that fails leaves the value as it is (R245); the side-band of a word of local
SRAM is written by every atomic (R246). -/
def State.homeAtomic (s : State) (r : Req) (op : Nat) (x y : Word) : State :=
  let old := leNat (s.readBytes r.key r.pa r.size)
  let was := (s.sidesFor r.pa r.size).foldl (· ||| ·) 0
  let v := atomResult op (8 * r.size) old x.toNat y.toNat
  let side := r.side ||| v.2 ||| (if op = 6 ∨ op = 8 then 0 else was &&& 0x20)
  let s1 := if op = 8 ∧ old ≠ x.toNat then
      (if isSram r.pa then s.setSide r.pa side else s.touchLines r.key r.pa r.size false)
    else s.writeBytes r.key r.pa (leBytes r.size v.1) side
  s1.sendResp (s.agentOf r.pa) r (.atomResp r (BitVec.ofNat 64 old) (was ||| v.2))

/-! ## Homes on other devices (R299; log 18) -/

/-- What another device answers is not this part's: a load and an atomic bring free values, a store leaves the part. -/
def State.performAway (s : State) (r : Req) : State :=
  let src := s.agentOf r.pa
  let bs := (List.range r.size).map (fun j => Config.outsideByte s.fresh (r.pa + j))
  match r.kind with
  | .lds => s.drawn.sendResp src r (.loadResp r bs (List.replicate (wordsOf r.pa r.size).length 0))
  | .ldro => s.drawn.sendResp src r (.loadResp r bs (List.replicate (wordsOf r.pa r.size).length 0))
  | .atomic _ _ _ _ => s.drawn.sendResp src r (.atomResp r (BitVec.ofNat 64 (leNat bs)) 0)
  | _ => (s.emitOut (.deviceWrite ((r.pa - 0x4000000000000) / 0x10000000000) (r.pa % 0x10000000000)
      (leBytes r.size r.data.toNat))).sendResp src r (.ack r)

/-! ## The event -/

/-- The KEY check of the line (R391); only HBM lines have keys (R117). -/
def State.keyRefused (s : State) (r : Req) : Option Nat :=
  if isHbm r.pa && r.dev.isNone then s.keyBad (isSteward r.ctx.core) r.asid r.key else none

/-- The home performs a request, or refuses it (R370, R376, R391). -/
def State.perform (s : State) (r : Req) : State :=
  let src := s.agentOf r.pa
  match s.keyRefused r with
  | some code => s.sendResp src r (.refuse r 0x07 code)
  | none =>
    match s.spaceOf r.pa, r.kind with
    | .remote _ _, _ => s.performAway r
    | _, .lds => s.homeLoad r
    | _, .ldro => s.homeLoad r
    | _, .atomic op x y _ =>
      if s.syncRefused r then s.sendResp src r (.refuse r 0x04 0x03) else s.homeAtomic r op x y
    | _, _ => if s.syncRefused r then s.sendResp src r (.refuse r 0x04 0x03) else s.homeStore r

/-- HOME_ACCESS: a request in its turn is performed at its home (R124, R126, R128), one of another device on the line as it stands (R299;
log 18). The host's are HOST_RESPONSE. -/
def homeAccess (k : Nat) (s : State) : State :=
  match s.recv k with
  | some { msg := .access r, dst := dst, .. } =>
    if dst = .host ∨ s.orderOk r = false then s
    else (s.dropPkt k).perform (if r.dev.isSome then { r with key := s.plainKey r.pa } else r)
  | _ => s

/-- HOME_ACCESS. -/
def execHomeAccess (pkt : Nat) : State → Host.Outcome State Fault Refusal := eventOf (homeAccess pkt)

end Sys2Proof.Machine
end

