-- ==== Sys2Proof/Machine/Copy.lean ====
section
/-! DEFINITION. The copy unit: lines, transforms, sync lines, fill targets, failures, completion records and arrivals (R101,
R116, R139, R141, R279 to R284, R379 to R381, R401, R451), and what a Turn ring transfer writes (R317, R318). -/

namespace Sys2Proof.Machine

/-! ## Fill targets (R100 to R102, R379) -/

/-- Bytes written into the W or A buffer of a core; buffer addresses wrap at 128 KiB. -/
def Press.put (p : Press) (buf a : Nat) (bs : List Byte) : Press :=
  let m := bs.zipIdx.foldl (fun m e => memPut m ((a + e.2) % 131072) e.1) (if buf = 0 then p.wbuf else p.abuf)
  if buf = 0 then { p with wbuf := m } else { p with abuf := m }

/-- Bytes of the W or A buffer from an address. -/
def Press.bytes (p : Press) (buf a n : Nat) : List Byte :=
  (List.range n).map (fun j => memByte (if buf = 0 then p.wbuf else p.abuf) ((a + j) % 131072))

/-- Bytes that a fill target still takes. -/
def Tile.room (t : Tile) : Nat :=
  match t.state with
  | .empty => t.expect - t.arrived
  | .filling => t.expect - t.arrived
  | _ => 0

/-- n bytes at an offset fit into a fill target: its expected count takes them, and they lie within its extent (R279, R379; log 83). -/
def Tile.takes (t : Tile) (ofs n : Nat) : Bool := decide (n ≤ t.room) && decide (ofs + n ≤ t.extent)

/-- Bytes reach a fill target at an offset of its extent: those up to the expected count and within the extent are written and counted,
and the tile goes to FILLING or READY in the same step (R101, R279, R379). -/
def State.fillTile (s : State) (core tile ofs : Nat) (bs : List Byte) : State :=
  let t := (s.core core).tile tile
  let w := bs.take (min t.room (t.extent - ofs))
  if w.isEmpty then s
  else
    (s.modCore core (fun c => { c with press := c.press.put t.buf (64 * t.base + ofs) w })).modTile core tile (fun t =>
      { t with arrived := t.arrived + w.length,
               state := if t.arrived + w.length = t.expect then .ready else .filling })

/-! ## What a job moves -/

/-- The copy job of a queue, when it is at work: ISSUED, not parked, not failed and not cancelled. -/
def Job.working (j : Job) : Bool := j.state == .issued && !j.parked && j.fault.isNone && !j.cancelled

/-- Row bytes and rows of what a job writes: the records of a PACK are one row, a CRC writes none. -/
def Job.outDims (j : Job) : Nat × Nat :=
  if j.op = .cpyx ∧ fieldN j.desc 292 3 = 0 then (j.buf.length, 1)
  else if j.op = .cpyx ∧ fieldN j.desc 292 3 = 2 then (0, 1)
  else (cpyRowb j.desc, cpyRows j.desc)

/-- The address space of a job (R284, R435). -/
def State.jobAsid (s : State) (j : Job) : Nat := (s.core j.ctx.core).asid

/-- Bytes that a job reads within a page: in the host's memory, once the answer to its READ has come (R335). A page for which a request
is parked parks the read behind it (R394). -/
def State.readSpan (s : State) (j : Job) (copy : Bool) (e : Word × Nat) : Except XErr (List (Byte × Byte)) :=
  let core := j.ctx.core
  let asid := s.jobAsid j
  if s.pageHeld core asid e.1 then .error (.park e.1 (s.levelOf core asid e.1))
  else match s.xlate core asid copy false { read := true, write := false } e.1 e.2 with
    | .error x => .error x
    | .ok p => match s.spaceOf p.1 with
      | .host _ _ => (match j.hostIn.find? (fun h => h.1 == p.1 && h.2.length == e.2) with
        | some h => .ok (h.2.map (fun b => (b, 0)))
        | none => .error (.host p.1 e.2))
      | _ => .ok (s.readPhys p.2 p.1 e.2)

/-- Bytes that a job reads. -/
def State.readJob (s : State) (j : Job) (copy : Bool) (va : Word) (n : Nat) : Except XErr (List (Byte × Byte)) :=
  ((pageSpans va n).mapM (s.readSpan j copy)).map List.flatten

/-- Where the index of row r of a GATH stands (R283). -/
def Job.indexVa (j : Job) (r : Nat) : Word := va48 j.desc 329 + BitVec.ofNat 64 (4 * r)

/-- The source row of row r: r itself, or the index that a GATH reads once for the row (R280, R283). -/
def State.rowIndex (s : State) (j : Job) (r : Nat) : Except XErr Nat :=
  if j.op ≠ .gath then .ok r
  else if j.row.any (fun e => e.1 == r) then .ok ((j.row.map (·.2)).getD 0)
  else (s.readJob j true (j.indexVa r) 4).map (fun b => leNat (b.map (·.1)))

/-- Where row r of the source begins. -/
def State.srcRow (s : State) (j : Job) (r : Nat) : Except XErr Word :=
  (s.rowIndex j r).map (fun i => va48 j.desc 116 + BitVec.ofInt 64 ((i : Int) * cpySstride j.desc))

/-- n bytes of row r of the source from column c on. -/
def State.srcBytes (s : State) (j : Job) (r c n : Nat) : Except XErr (List (Byte × Byte)) :=
  match s.srcRow j r with
  | .error e => .error e
  | .ok a => s.readJob j true (a + BitVec.ofNat 64 c) n

/-- The source of a job from a place on, as parts of its rows: row, column and length of each. -/
def Job.partsFrom (j : Job) (p : Nat) : List (Nat × Nat × Nat) :=
  let rb := cpyRowb j.desc
  (List.range (cpyRows j.desc - p / rb)).map (fun i =>
    if i = 0 then (p / rb, p % rb, rb - p % rb) else (p / rb + i, 0, rb))

/-- The source of a job from a place on, row by row. -/
def State.srcFrom (s : State) (j : Job) (p : Nat) : Except XErr (List (Byte × Byte)) :=
  ((j.partsFrom p).mapM (fun e => s.srcBytes j e.1 e.2.1 e.2.2)).map List.flatten

/-! ## CPYX (R282) -/

/-- Element size in bytes of a CPYX. -/
def Job.xes (j : Job) : Nat := 2 ^ fieldN j.desc 295 2

/-- A 4-byte number with the OR of some side-bands. -/
def sided (n : Nat) (side : Byte) : List (Byte × Byte) := (leBytes 4 n).map (fun b => (b, side))

/-- The records of a PACK: elements whose bits are not all zero. -/
def packRecs (es base : Nat) : Nat → List (Byte × Byte) → List (List (Byte × Byte))
  | _, [] => []
  | i, b :: t =>
    if es = 0 ∨ i % es ≠ 0 then packRecs es base (i + 1) t
    else
      let e := (b :: t).take es
      let v := leNat (e.map (·.1))
      let side := e.foldl (fun s x => s ||| x.2) 0
      if v = 0 then packRecs es base (i + 1) t
      else (sided v side ++ sided ((base + i / es) % 2 ^ 32) side) :: packRecs es base (i + 1) t

/-- The records of an UNPACK are read and placed until the end record; none when a coordinate does not increase or lies outside
the destination. -/
def State.unpack (s : State) (j : Job) : Nat → Nat → Option Nat → List (Byte × Byte) → Except XErr (Option (List (Byte × Byte)))
  | 0, _, _, _ => .ok none
  | n + 1, i, last, out =>
    match s.readJob j true (va48 j.desc 116 + BitVec.ofNat 64 (8 * i)) 8 with
    | .error e => .error e
    | .ok rec =>
      let v := leNat ((rec.take 4).map (·.1))
      let x := leNat ((rec.drop 4).map (·.1))
      let side := rec.foldl (fun a b => a ||| b.2) 0
      let base := fieldN j.desc 297 32
      if x = 0xFFFFFFFF ∧ v = 0 then .ok (some out)
      else if x < base ∨ last.any (fun l => x ≤ l) = true ∨ out.length < (x - base + 1) * j.xes then .ok none
      else s.unpack j n (i + 1) (some x)
        (out.take ((x - base) * j.xes) ++ (leBytes j.xes v).map (fun b => (b, side)) ++ out.drop ((x - base + 1) * j.xes))

/-- What a CPYX has made of its source: its output bytes and the aux field; none when UNPACK fails with code 0x05. -/
def State.transform (s : State) (j : Job) : Except XErr (Option (List (Byte × Byte) × Nat)) :=
  match fieldN j.desc 292 3 with
  | 0 => (s.srcFrom j 0).map (fun b =>
      let recs := packRecs j.xes (fieldN j.desc 297 32) 0 b
      some (recs.flatten ++ sided 0 0 ++ sided 0xFFFFFFFF 0, recs.length))
  | 1 =>
    let n := cpyRowb j.desc * cpyRows j.desc
    (s.unpack j (n / j.xes + 1) 0 none (List.replicate n (0, 0))).map (fun o => o.map (fun b => (b, 0)))
  | _ => (s.srcFrom j 0).map (fun b => some ([], crc32c (b.map (·.1))))

/-! ## Lines (R280, R281, R381, R401) -/

/-- Bytes that a job writes in all. -/
def Job.total (j : Job) : Nat := j.outDims.1 * j.outDims.2

/-- The code that a failed translation gives a copy's record (R381, R392). -/
def xerrFcode (cls code : Nat) : Nat := if cls = 7 then 4 else if cls = 6 ∧ (code = 5 ∨ code = 7) then 6 else 3

/-- The cores that take a job's memory rows through their own windows: the receivers of a CPYM, or the job's own core. -/
def Job.receivers (j : Job) : List Nat :=
  match j.op with
  | .cpym => maskReceivers j.ctx.core (bitN j.desc 426) (fieldN j.desc 406 8) (fieldN j.desc 414 12) (fieldN j.desc 437 3)
  | _ => [j.ctx.core]

/-- A READ or WRITE of a job leaves for the host, and the job notes its address (R335). -/
def State.askHost (s : State) (q : JobQueue) (j : Job) (pa : Nat) (m : Msg) : State :=
  (s.modJob q j.id (fun j => { j with hostOut := j.hostOut ++ [pa] })).send
    { src := .copy (clusterOf j.ctx.core), dst := .host, cls := .request, tenant := j.ctx.tenant, msg := m, held := false }

/-- A line meets a page that is not present and parks, waits for bytes of the host, or is refused and the job fails (R335, R381, R401). -/
def State.copyErr (s : State) (q : JobQueue) (j : Job) (wr : Bool) (e : XErr) : State :=
  match e with
  | .park va level =>
    let cl := clusterOf j.ctx.core
    if (s.cluster cl).stop then s
    else ((s.modJob q j.id (fun j => { j with parked := true, progress := s.cycle, reported := false })).park cl
      (.copy q j.id (s.jobAsid j) va wr) level)
  | .host pa n => if j.hostOut.contains pa then s else s.askHost q j pa (.copyRead q j.id pa n)
  | .bad cls code va =>
    let hit := if inSelf va then j.receivers.map (fun c => winAddr c 0) else s.pagePa j.ctx.core (s.jobAsid j) va
    (if cls = 0x06 ∧ code = 0x05 then s.dropReport j.ctx.core (s.jobAsid j) (.copy (clusterOf j.ctx.core)) hit else s).failCopy q j.id
      { fcode := xerrFcode cls code, cls := cls, code := code, addr := some va.toNat }

/-- Bytes of a job are written: a WRITE of the host's memory waits for its acknowledgement (R335). -/
def State.copyPut (s : State) (q : JobQueue) (j : Job) (key pa : Nat) (bs : List (Byte × Byte)) : State :=
  match s.spaceOf pa with
  | .host _ _ => s.askHost q j pa (.copyWrite q j.id pa (bs.map (·.1)))
  | _ => s.writeEngine key pa bs

/-- Where the line at place p of a job lands in a memory destination, and its length: it ends at its row's end or at a 128-byte
boundary. -/
def Job.memLine (j : Job) (p : Nat) : Word × Nat :=
  let (rb, _) := j.outDims
  let a := va48 j.desc 164 + BitVec.ofInt 64 (rowOfs j.desc (p / rb)) + BitVec.ofNat 64 (p % rb)
  (a, min (rb - p % rb) (128 - a.toNat % 128))

/-- Where it lands in a tile's extent, and its length. -/
def Job.tileLine (j : Job) (p : Nat) : Nat × Nat :=
  let (rb, _) := j.outDims
  (((fieldN j.desc 173 24 : Nat) + rowOfs j.desc (p / rb)).toNat + p % rb, min (rb - p % rb) (128 - p % rb % 128))

/-- The bytes of a line: those read ahead, or the source as it stands. -/
def State.lineBytes (s : State) (j : Job) (p n : Nat) : Except XErr (List (Byte × Byte)) :=
  if j.srcDone || j.op == .cpyx || j.op == .turngo then .ok (((j.buf.zip j.sbuf).drop (p - j.bufAt)).take n)
  else s.srcBytes j (p / j.outDims.1) (p % j.outDims.1) n

/-- The index of row r of a GATH has been read, unless it was before (R112, R283). -/
def State.touchIndex (s : State) (j : Job) (r : Nat) : State :=
  if j.op = .gath ∧ j.row.any (fun e => e.1 == r) = false then s.touchRange j.ctx.core (s.jobAsid j) (j.indexVa r) 4 else s

/-- n bytes of row r of the source from column c on have been read (R112), of a GATH its index too. -/
def State.touchSource (s : State) (j : Job) (r c n : Nat) : State :=
  match s.srcRow j r with
  | .error _ => s
  | .ok a => (s.touchRange j.ctx.core (s.jobAsid j) (a + BitVec.ofNat 64 c) n).touchIndex j r

/-- The source of a job has been read from a place on. -/
def State.touchFrom (s : State) (j : Job) (p : Nat) : State :=
  (j.partsFrom p).foldl (fun t e => t.touchSource j e.1 e.2.1 e.2.2) s

/-- The job when it comes to its next line: a GATH reads the index of a row as it begins the row, and keeps it (R283). -/
def State.beginRow (s : State) (q : JobQueue) (j : Job) : State × Job :=
  let r := j.line / max 1 j.outDims.1
  if j.op ≠ .gath ∨ j.srcDone = true ∨ j.row.any (fun e => e.1 == r) = true then (s, j)
  else match s.rowIndex j r with
    | .error _ => (s, j)
    | .ok i => ((s.touchIndex j r).modJob q j.id (fun j => { j with row := some (r, i) }), { j with row := some (r, i) })

/-- A line of n bytes has been written, read from the source unless its bytes were read ahead. -/
def State.lineDone (s : State) (q : JobQueue) (j : Job) (n : Nat) : State :=
  (if j.srcDone || j.op == .cpyx || j.op == .turngo then s
   else s.touchSource j (j.line / j.outDims.1) (j.line % j.outDims.1) n).modJob q j.id
    (fun j => { j with line := j.line + n, bytes := j.bytes + n, progress := s.cycle })

/-- A PUBL holds engine writes to the published page of an address (R141, step 4). -/
def State.publHolds (s : State) (die asid : Nat) (va : Word) : Bool :=
  match s.walk die asid va with
  | .leaf _ pte false => fieldN pte 8 8 != 0 &&
      s.dies.any (fun d => d.2.publs.any (fun p => p.asid == asid && p.k == fieldN pte 8 8))
  | _ => false

/-- A line of a job to a core's window is dropped on its way, by a kerf guard or for want of a route (R415, R418). -/
def State.lineDrops (s : State) (j : Job) (target : Nat) : Bool :=
  (s.kerfWin j.ctx.core (s.jobAsid j) target).isSome || s.lineDead j.ctx.core (winAddr target 0)

/-- Where a memory line goes: of the receivers of a CPYM in the self window, the place in each window; otherwise one place. -/
def State.linePlaces (s : State) (j : Job) (va : Word) (n : Nat) : Except XErr (List (Nat × Nat)) :=
  if j.op = .cpym then
    (if inSelf va ∧ selfOfs va + n ≤ sramSize then
      (if j.receivers.any (s.lineDrops j) then .error (.bad 0x06 0x05 va)
       else .ok (j.receivers.map (fun r => (winAddr r (selfOfs va), 0))))
     else .error (.bad 0x06 0x04 va))
  else if s.pageHeld j.ctx.core (s.jobAsid j) va then .error (.park va (s.levelOf j.ctx.core (s.jobAsid j) va))
  else (s.xlate j.ctx.core (s.jobAsid j) true true { read := false, write := true } va n).map (fun p => [p])

/-- The next line of a job with a memory destination, performed in one step (R125; log 29). -/
def State.memLine (s : State) (q : JobQueue) (j : Job) : State :=
  let (va, n) := j.memLine j.line
  match s.lineBytes j j.line n with
  | .error e => s.copyErr q j false e
  | .ok bs =>
    match s.linePlaces j va n with
    | .error e => s.copyErr q j true e
    | .ok ps =>
      if s.publHolds (dieOf j.ctx.core) (s.jobAsid j) va then s
      else if ps.any (fun p => s.syncHit p.1 n) then
        s.failCopy q j.id { fcode := 1, cls := 4, code := 3, addr := some va.toNat }
      else ((ps.foldl (fun t p => t.copyPut q j p.2 p.1 bs) s).touchPage j.ctx.core (s.jobAsid j) true va).lineDone q j n

/-- Where the source of a line lies, for the record of a line that has no destination address (R381; log 76). -/
def State.lineSource (s : State) (j : Job) : Option Nat :=
  match s.srcRow j (j.line / max 1 j.outDims.1) with
  | .ok a => some (a + BitVec.ofNat 64 (j.line % max 1 j.outDims.1)).toNat
  | .error _ => none

/-- The next line of a job with a tile destination: a line whose bytes go beyond the expected count or the tile's extent fails
the job, and only what these still take is written of it (R279, R379, R381; log 83). -/
def State.tileLine (s : State) (q : JobQueue) (j : Job) : State :=
  let (o, n) := j.tileLine j.line
  match s.lineBytes j j.line n with
  | .error e => s.copyErr q j false e
  | .ok bs =>
    let ts := copyFills j.op j.ctx.core j.desc
    let full (e : Nat × Nat) : Bool := !((s.core e.1).tile e.2).takes o n
    if ts.any (fun e => s.lineDrops j e.1) then
      (s.dropReport j.ctx.core (s.jobAsid j) (.copy (clusterOf j.ctx.core)) (ts.map (fun e => winAddr e.1 0))).failCopy q j.id
        { fcode := 6, cls := 6, code := 5, addr := s.lineSource j }
    else
    let fill (l : List (Nat × Nat)) : State := l.foldl (fun t e => t.fillTile e.1 e.2 o (bs.map (·.1))) s
    if ts.any full then
      (fill (ts.filter full)).failCopy q j.id
        { fcode := 2, cls := 0x0C, code := 3, addr := none }
    else (fill ts).lineDone q j n

/-- Records that an UNPACK reads: up to the one that ends them (R282). -/
def State.recordsRead (s : State) (j : Job) : Nat → Nat → Nat
  | 0, i => i
  | n + 1, i =>
    match s.readJob j true (va48 j.desc 116 + BitVec.ofNat 64 (8 * i)) 8 with
    | .error _ => i
    | .ok rec => if leNat (rec.map (·.1)) = 0xFFFFFFFF00000000 then i + 1 else s.recordsRead j n (i + 1)

/-- The source of a CPYX has been read. -/
def State.touchAll (s : State) (j : Job) : State :=
  if fieldN j.desc 292 3 = 1 then
    s.touchRange j.ctx.core (s.jobAsid j) (va48 j.desc 116) (8 * s.recordsRead j (cpyRowb j.desc * cpyRows j.desc / j.xes + 1) 0)
  else s.touchFrom j 0

/-- The source of a CPYX is read and transformed. -/
def State.prepare (s : State) (q : JobQueue) (j : Job) : State :=
  match s.transform j with
  | .error e => s.copyErr q j false e
  | .ok none => (s.touchAll j).failCopy q j.id { fcode := 5, cls := 0x0C, code := 7, addr := some (va48 j.desc 116).toNat }
  | .ok (some (out, aux)) => (s.touchAll j).modJob q j.id (fun j =>
      { j with ready := true, buf := out.map (·.1), sbuf := out.map (·.2), aux := aux, progress := s.cycle })

/-! ## Turn ring transfers (R316 to R318) -/

/-- Receivers of a ring entry. -/
def Ring.receivers (r : Ring) : List Nat :=
  maskReceivers r.core (bitN r.desc 120) (fieldN r.desc 121 8) (fieldN r.desc 129 12) (fieldN r.desc 141 3)
/-- K tile and V tile of a slot. -/
def Ring.tilesOf (r : Ring) (q : Nat) : Nat × Nat := (fieldN r.desc (72 + 12 * q) 6, fieldN r.desc (78 + 12 * q) 6)
/-- K and V sizes in bytes. -/
def Ring.sizes (r : Ring) : Nat × Nat := (64 * (fieldN r.desc 144 10 + 1), 64 * (fieldN r.desc 154 10 + 1))
/-- The tiles of a slot on every receiver. -/
def Ring.slotTiles (r : Ring) (q : Nat) : List (Nat × Nat) :=
  r.receivers.flatMap (fun c => [(c, (r.tilesOf q).1), (c, (r.tilesOf q).2)])
/-- The successor lies on this device. -/
def Ring.nextHere (s : State) (r : Ring) : Bool := fieldN r.desc 16 10 == s.device
/-- Cluster and entry of the successor. -/
def Ring.next (r : Ring) : Nat × Nat := (clusterOf (fieldN r.desc 26 13), fieldN r.desc 39 2)

/-- A ring entry changed. -/
def State.modRing (s : State) (cluster n : Nat) (f : Ring → Ring) : State :=
  s.modCluster cluster (fun k => { k with rings := k.rings.map (fun e => if e.1 = n then (n, f e.2) else e) })

/-- The source of a SEND is read: K then V (R302, R318). -/
def State.readBlock (s : State) (q : JobQueue) (j : Job) (r : Ring) : State :=
  let a := s.readJob j false (va48 j.desc 40) r.sizes.1
  let b := s.readJob j false (va48 j.desc 88) r.sizes.2
  match a, b with
  | .error e, _ => s.copyErr q j false e
  | _, .error e => s.copyErr q j false e
  | .ok x, .ok y => ((s.touchRange j.ctx.core (s.jobAsid j) (va48 j.desc 40) r.sizes.1).touchRange j.ctx.core (s.jobAsid j)
      (va48 j.desc 88) r.sizes.2).modJob q j.id (fun j =>
      { j with srcDone := true, bufAt := 0, buf := (x ++ y).map (·.1), sbuf := (x ++ y).map (·.2), progress := s.cycle })

/-- The block's bytes from a place, up to 128 of one part, and where they lie in it: in K or V, and from which byte. -/
def blockLine (sizes : Nat × Nat) (p : Nat) : Bool × Nat × Nat :=
  if p < sizes.1 then (true, p, min 128 (sizes.1 - p)) else (false, p - sizes.1, min 128 (sizes.1 + sizes.2 - p))

/-- Origin and hop count of the block that a job carries. -/
def Job.blockTag (j : Job) (r : Ring) : Nat × Nat :=
  if bitN j.desc 34 then (let b := tabGet (0, 0) r.blocks (fieldN j.desc 35 2); (b.1, b.2 + 1)) else (fieldN r.desc 8 6, 1)

/-- The clusters of a job's unit and of the ring's successor, and the region that confines what goes between them (R294). -/
def State.blockPath (s : State) (j : Job) (r : Ring) : Option Region × Nat × Nat :=
  (s.sharedRegion (s.jobAsid j) (clusterOf j.ctx.core) r.next.1, clusterOf j.ctx.core, r.next.1)

/-- The next bytes of a block leave for another device (R299, R317). -/
def State.sendBlock (s : State) (j : Job) (r : Ring) (isK : Bool) (o n : Nat) : State :=
  s.send { src := .core r.core, dst := .device (fieldN r.desc 16 10) (fieldN r.desc 26 13), cls := .collective, tenant := j.ctx.tenant,
           msg := .block (fieldN r.desc 39 2) j.aux (j.blockTag r) isK o ((j.buf.drop j.line).take n) (r.sizes.1 + r.sizes.2)
             (clusterOf j.ctx.core) j.id, held := false }

/-- The bytes of a block are dropped on their way, by a kerf guard or for want of a route (R415, R418). -/
def State.blockDrops (s : State) (j : Job) (r : Ring) : Bool :=
  let (g, a, b) := s.blockPath j r
  (s.kerfTo true j.ctx.core (s.jobAsid j) (fieldN r.desc 26 13)).isSome || (!s.linksWhole && !s.routeLives g a b)

/-- The report of that drop (R415, R419). -/
def State.blockReport (s : State) (j : Job) (r : Ring) : State :=
  let (g, a, b) := s.blockPath j r
  match s.kerfTo true j.ctx.core (s.jobAsid j) (fieldN r.desc 26 13) with
  | some l => s.kerfDrop l 3 j.ctx.core (fieldN r.desc 26 13) (s.jobAsid j)
  | none => s.noRouteNote (.copy a) (s.deadEnd g a b) (s.jobAsid j)

/-- The first bytes of a block land in a slot: it is LANDING and holds the block's origin and hop count (R317). -/
def State.landIn (s : State) (at_ : Nat × Nat) (slot : Nat) (tag : Nat × Nat) : State :=
  s.modRing at_.1 at_.2 (fun d =>
    if tabFind d.slots slot = some .granted then
      { d with slots := tabSet d.slots slot .landing, blocks := tabSet d.blocks slot tag } else d)

/-- Where the next bytes of a block lie, of a SEND (R381; log 76). -/
def Job.blockSource (j : Job) (isK : Bool) (o : Nat) : Option Nat :=
  if bitN j.desc 34 then none else some ((if isK then va48 j.desc 40 else va48 j.desc 88) + BitVec.ofNat 64 o).toNat

/-- Tiles where a block waits are no fill targets of its job until its bytes land there (R317; log 22). -/
def State.waitFills (s : State) (q : JobQueue) (j : Job) (l : List (Nat × Nat)) : State :=
  (s.dropRefs l).modJob q j.id (fun j => { j with refs := j.refs.filter (fun e => !l.contains e) })

/-- A tile becomes a fill target of a job (R98). -/
def State.takeFill (s : State) (q : JobQueue) (j : Job) (e : Nat × Nat) : State :=
  (s.modTile e.1 e.2 (fun w => { w with nref := w.nref + 1 })).modJob q j.id (fun j => { j with refs := j.refs ++ [e] })

/-- The next bytes of a block land in the successor's slot, which the job's grant names, at every receiver whose tile was EMPTY as its
first bytes came; at another they wait (R317). -/
def State.ringLine (s : State) (q : JobQueue) (j : Job) (r : Ring) : State :=
  let (isK, o, n) := blockLine r.sizes j.line
  if r.nextHere s = false then (s.sendBlock j r isK o n).lineDone q j n
  else if s.blockDrops j r then
    (s.blockReport j r).failCopy q j.id { fcode := 6, cls := 6, code := 5, addr := j.blockSource isK o }
  else match s.ring r.next.1 r.next.2 with
    | none => s
    | some d =>
      let slot := j.aux
      let bs := (j.buf.drop j.line).take n
      let tile := if isK then (d.tilesOf slot).1 else (d.tilesOf slot).2
      let full := if o = 0 then (d.receivers.filter (fun c => ((s.core c).tile tile).state != .empty)).map (fun c => (c, tile)) else []
      let late := j.late ++ full
      let early := d.receivers.filter (fun c => !late.contains (c, tile))
      let tooFar := early.any (fun c => !((s.core c).tile tile).takes o n)
      let s1 := early.foldl (fun t c => t.fillTile c tile o bs) (s.waitFills q j full)
      let s2 := (if early.isEmpty then s1 else s1.landIn r.next slot (j.blockTag r)).modJob q j.id (fun j => { j with late := late })
      if tooFar then s2.failCopy q j.id { fcode := 2, cls := 0x0C, code := 3, addr := none } else s2.lineDone q j n

/-- Bytes that wait at a receiver land when its tile is EMPTY (R317). -/
def State.ringLate (s : State) (q : JobQueue) (j : Job) (r : Ring) : State :=
  match s.ring r.next.1 r.next.2, j.late.find? (fun e => ((s.core e.1).tile e.2).state == .empty) with
  | none, _ => s.modJob q j.id (fun j => { j with late := [] })
  | _, none => s
  | some d, some e =>
    let bs := if e.2 = (d.tilesOf j.aux).1 then j.buf.take r.sizes.1 else j.buf.drop r.sizes.1
    let s1 := ((s.takeFill q j e).fillTile e.1 e.2 0 bs).landIn r.next j.aux (j.blockTag r)
    if ((s.core e.1).tile e.2).takes 0 bs.length = false then s1.failCopy q j.id { fcode := 2, cls := 0x0C, code := 3, addr := none }
    else s1.modJob q j.id (fun j => { j with late := j.late.erase e, progress := s.cycle })

/-- A job still has a block to move: a SEND, or a RELEASE whose block goes on. -/
def Job.movesBlock (j : Job) (r : Ring) : Bool :=
  !bitN j.desc 34 || (tabGet (0, 0) r.blocks (fieldN j.desc 35 2)).2 != fieldN r.desc 2 6

/-- One step of a TURNGO. -/
def State.turnStep (s : State) (q : JobQueue) (j : Job) : State :=
  let cl := clusterOf j.ctx.core
  let n := fieldN j.desc 32 2
  match s.ring cl n with
  | none => s
  | some r =>
    if !bitN j.desc 34 && !j.srcDone then s.readBlock q j r
    else if j.line < j.buf.length then
      let s1 := s.ringLine q j r
      if bitN j.desc 34 ∧ ((s1.jobIn q j.id).map (·.line)) = some j.buf.length then
        s1.modRing cl n (fun r => { r with fwd := tabSet r.fwd (fieldN j.desc 35 2) false })
      else s1
    else if j.late.isEmpty then s
    else s.ringLate q j r

/-- A job of a steward's queue has a line to move now. -/
def State.movesLine (s : State) (j : Job) : Bool :=
  j.working && j.op != .turngo && !(s.cluster (clusterOf j.ctx.core)).stop && j.hostOut.isEmpty
    && ((j.op == .cpyx && !j.ready) || decide (j.line < j.total))
    && (cpyTiled j.desc || !s.publHolds (dieOf j.ctx.core) (s.jobAsid j) (j.memLine j.line).1)

/-- The copy unit of cluster (0, 0) of a die serves its steward's jobs before those of the cluster's cores (R435). -/
def State.yieldsUnit (s : State) (q : JobQueue) : Bool :=
  match q with
  | .copy c => c % 120 == 0 && (s.jobsOf (.steward (c / 120))).any s.movesLine
  | _ => false

/-- COPY_LINE_WRITE: one line of an issued copy job is read and written (R101, R280 to R283, R317, R435). -/
def copyLineWrite (q : JobQueue) (id : Nat) (s : State) : State :=
  match s.jobIn q id with
  | none => s
  | some j =>
    if j.working = false ∨ (s.cluster (clusterOf j.ctx.core)).stop = true ∨ s.yieldsUnit q = true then s
    else if j.op = .turngo then s.turnStep q j
    else if j.op = .cpyx ∧ j.ready = false then s.prepare q j
    else if j.total ≤ j.line then s
    else
      let (t, j) := s.beginRow q j
      if cpyTiled j.desc then t.tileLine q j else t.memLine q j

/-- COPY_LINE_WRITE. -/
def execCopyLineWrite (queue : JobQueue) (id : Nat) : State → Host.Outcome State Fault Refusal :=
  eventOf (copyLineWrite queue id)

/-! ## Completion (R139, R281, R284, R381) -/

/-- The agent of a copy queue. -/
def queueAgent : JobQueue → Agent
  | .press c => .press (coreAt c 0)
  | .copy c => .copy c
  | .steward d => .core (stewardOf d)

/-- The source-release arrival (R280). -/
def State.sourceArrival (s : State) (q : JobQueue) (j : Job) : State :=
  if j.op = .turngo then s
  else s.arrive (queueAgent q) j.ctx.tenant (BitVec.ofNat 32 (fieldN j.desc 32 32)) (fieldN j.desc 64 6) 1

/-- What is left of the source of a job, read ahead of its lines; none while a CPYX has not read it. -/
def State.readRest (s : State) (j : Job) : Option (Except XErr (List (Byte × Byte))) :=
  if j.op = .cpyx then (if j.ready then some (.ok ((j.buf.zip j.sbuf).drop j.line)) else none)
  else if j.total ≤ j.line then some (.ok [])
  else some (s.srcFrom j j.line)

/-- It has been read. -/
def State.restRead (s : State) (j : Job) : State := if j.op = .cpyx ∨ j.total ≤ j.line then s else s.touchFrom j j.line

/-- COPY_SOURCE_RELEASE: every read of the source has been performed, so its arrival is sent (R139, R280). -/
def copySourceRelease (q : JobQueue) (id : Nat) (s : State) : State :=
  match s.jobIn q id with
  | none => s
  | some j =>
    if j.working = false ∨ j.srcDone = true ∨ j.op = .turngo ∨ (s.cluster (clusterOf j.ctx.core)).stop = true then s
    else match s.readRest j with
      | some (.error (.host pa n)) => s.copyErr q j false (.host pa n)
      | some (.error _) => s
      | none => s
      | some (.ok b) =>
        ((s.restRead j).modJob q id (fun j =>
          { j with srcDone := true, bufAt := j.line, buf := b.map (·.1), sbuf := b.map (·.2) })).sourceArrival q j

/-- COPY_SOURCE_RELEASE. -/
def execCopySourceRelease (queue : JobQueue) (id : Nat) : State → Host.Outcome State Fault Refusal :=
  eventOf (copySourceRelease queue id)

/-- The work of a copy job is over: done, failed or cancelled. -/
def State.copyOver (s : State) (j : Job) : Bool :=
  j.state == .issued && !j.parked && j.hostOut.isEmpty && (j.fault.isSome || j.cancelled ||
    (match j.op with
     | .turngo => match s.ring (clusterOf j.ctx.core) (fieldN j.desc 32 2) with
       | none => true
       | some r => j.late.isEmpty && (if bitN j.desc 34 then j.ready else
          j.srcDone && decide (j.buf.length ≤ j.line) && (if !r.nextHere s then j.ready else
            (match s.ring r.next.1 r.next.2 with
             | none => true
             | some d => (d.slotTiles j.aux).all (fun e => ((s.core e.1).tile e.2).state != .filling))))
     | .cpyx => j.ready && decide (j.total ≤ j.line)
     | _ => decide (j.total ≤ j.line)))

/-- The aux field of a completion record: the CRC, or the records that a PACK has written; otherwise 0 (R284). -/
def Job.recordAux (j : Job) : Nat :=
  if j.op = .cpyx ∧ fieldN j.desc 292 3 = 0 then min j.aux (j.bytes / 8)
  else if j.op = .cpyx ∧ fieldN j.desc 292 3 = 2 then j.aux
  else 0

/-- The completion record (R284). -/
def Job.record (j : Job) : List Byte :=
  let st := if j.fault.isSome then 2 else if j.cancelled then 1 else 0
  let fc := (j.fault.map (·.fcode)).getD 0
  leBytes 4 (j.id + st * 2 ^ 16 + fc * 2 ^ 24) ++ leBytes 4 j.bytes ++ leBytes 4 j.recordAux ++ leBytes 4 0

/-- An error record of a copy unit (R381, R284). -/
def State.copyRecord (s : State) (q : JobQueue) (j : Job) (cls code : Nat) (addr : Option Nat) : State :=
  let c := match q with
    | .copy k => coreAt k 0
    | _ => j.ctx.core
  s.logErr { unitErr cls code 5 c 2 0 j.ctx.tenant with
    addr := addr.map (fun a => (a % 2 ^ 48, false)) }

/-- The visible arrivals (R280, R281, R381): of a CPYM one for each receiver whose frame is a node frame. -/
def State.visibleArrivals (s : State) (q : JobQueue) (j : Job) : State :=
  let n := if j.op = .cpyx ∧ fieldN j.desc 292 3 = 2 ∧ j.fault = none ∧ j.cancelled = false then 1 else j.bytes
  let slot := fieldN j.desc 104 6
  match j.op with
  | .turngo => s.arrive (queueAgent q) j.ctx.tenant (BitVec.ofNat 32 (fieldN j.desc 136 32)) (fieldN j.desc 168 6) 1
  | .cpym =>
    let i := fieldN j.desc 427 10
    j.receivers.foldl (fun t r =>
      let f := (t.core r).frame i
      if f.static && f.state != .free then t.arrive (queueAgent q) j.ctx.tenant (mkHandle r i f.gen) slot n else t) s
  | _ => s.arrive (queueAgent q) j.ctx.tenant (BitVec.ofNat 32 (fieldN j.desc 72 32)) slot n

/-- The source-release arrival of a job is still on its way. -/
def State.sourceOut (s : State) (q : JobQueue) (j : Job) : Bool :=
  j.op != .turngo && s.net.any (fun p => p.src == queueAgent q && (match p.msg with
    | .frame (.handle h) n _ _ _ _ _ _ _ => h.toNat == fieldN j.desc 32 32 && n == fieldN j.desc 64 6
    | _ => false))

/-- The job retires: its id is free, its tiles lose their references, and its frame's ncpy falls. -/
def State.retireCopy (s : State) (q : JobQueue) (j : Job) : State :=
  ((s.modJobs q (fun l => l.filter (fun k => k.id != j.id))).dropRefs j.refs).copyDone j.ctx

/-- The record of the job is written, refused, also where it would write an armed slot word, a token pool or an armed sync line, or parks
(R284, R380); a PUBL of its buffer holds it (R141). -/
def State.writeRecord (s : State) (q : JobQueue) (j : Job) : State :=
  let va := j.recordVa
  if (s.cluster (clusterOf j.ctx.core)).stop then s
  else if s.pageHeld j.ctx.core (s.jobAsid j) va then s.copyErr q j true (.park va (s.levelOf j.ctx.core (s.jobAsid j) va))
  else match s.xlate j.ctx.core (s.jobAsid j) true false { read := false, write := true } va 16 with
  | .ok (pa, key) =>
    if s.publHolds (dieOf j.ctx.core) (s.jobAsid j) va then s
    else if s.syncHit pa 16 then (s.copyRecord q j 4 3 (some va.toNat)).modJob q j.id (fun j => { j with recDone := true })
    else ((s.copyPut q j key pa (j.record.map (fun b => (b, 0)))).touchPage j.ctx.core (s.jobAsid j) true va).modJob q j.id
      (fun j => { j with recDone := true })
  | .error (.bad cls code _) => (s.copyRecord q j cls code (some va.toNat)).modJob q j.id (fun j => { j with recDone := true })
  | .error e => s.copyErr q j true e

/-- COPY_VISIBLE_COMPLETION: the source-release arrival if it is still owed, then the record, then the visible arrivals, each
after the one before it (R139, R284); the record of a job that failed or was cancelled comes before both of its arrivals (R286, R381); the
job retires. -/
def copyVisibleCompletion (q : JobQueue) (id : Nat) (s : State) : State :=
  match s.jobIn q id with
  | none => s
  | some j =>
    if s.copyOver j = false then s
    else if j.recDone = false ∧ (j.fault.isSome = true ∨ j.cancelled = true) then s.writeRecord q j
    else if j.srcDone = false then (s.modJob q id (fun j => { j with srcDone := true })).sourceArrival q j
    else if j.recDone = false then s.writeRecord q j
    else if s.sourceOut q j then s
    else
      let s1 := match j.fault with
        | some f => if f.cls = 0 then s else s.copyRecord q j f.cls f.code f.addr
        | none => s
      (s1.visibleArrivals q j).retireCopy q j

/-- COPY_VISIBLE_COMPLETION. -/
def execCopyVisibleCompletion (queue : JobQueue) (id : Nat) : State → Host.Outcome State Fault Refusal :=
  eventOf (copyVisibleCompletion queue id)

end Sys2Proof.Machine
end

