-- ==== Sys2Proof/Machine/EngineRun.lean ====
section
/-! DEFINITION. The sequencers and the Press at work: job release, issue and withdrawal (R72 to R76, R269, R286, R378), tiles
(R102, R262, R376), formats, tags and code tables at release (R165, R258, R263, R271, R275), k-steps, drains and scans
(R266 to R278), and what a failed Press job reports (R378). -/

namespace Sys2Proof.Machine

/-! ## Release and withdrawal (R57, R72, R260, R286) -/

/-- A reserved job becomes QUEUED: it counts in the tiles that it names or fills and in its frame (R72, R260). -/
def State.queueJob (s : State) (x : Ctx) (id : Nat) : State :=
  let q := queueOfId x.core id
  match s.jobIn q id with
  | none => s
  | some j =>
    let refs := (s.jobNames j ++ j.fills).eraseDups
    let press := (s.core x.core).press.fmt
    let j1 := { j with state := .queued, prio := x.prio, since := s.cycle, refs := refs, fmt := press, progress := s.cycle }
    let s1 := s.modJobs q (fun l => l.filter (fun k => k.id != id) ++ [j1])
    let s2 := refs.foldl (fun t e => t.modTile e.1 e.2 (fun w => { w with nref := w.nref + 1 })) s1
    if s2.sameFrame x then
      s2.modFrame x.core x.frame (fun f =>
        if isSteward x.core ∨ 0x8000 ≤ id then { f with ncpy := f.ncpy + 1 } else { f with ntile := f.ntile + 1 })
    else s2

/-- A job's counter of its frame falls by one. -/
def State.jobCounted (s : State) (q : JobQueue) (x : Ctx) : State :=
  match q with
  | .press _ => s.settle x (fun f => { f with ntile := f.ntile - 1 })
  | _ => s.copyDone x

/-- A job leaves its queue: its id is free, its tiles and its frame's counter fall (R72, R260). -/
def State.retireJob (s : State) (q : JobQueue) (j : Job) : State :=
  ((s.modJobs q (fun l => l.filter (fun k => k.id != j.id))).dropRefs j.refs).jobCounted q j.ctx

/-- JCAN at its release: a QUEUED job is withdrawn, an ISSUED copy job stops; any other is left alone (R286). -/
def State.cancelJob (s : State) (core id : Nat) : State :=
  match s.jobNamed core id with
  | none => s
  | some j =>
    let q := queueOfId core id
    match j.state with
    | .queued => s.retireJob q j
    | .issued => if 0x8000 ≤ id then s.modJob q id (fun j => { j with cancelled := true, parked := false }) else s
    | .reserved => s

/-! ## Tiles and commands at release (R102, R258, R262, R263, R271, R275, R376) -/

/-- TDEF at its release (R102, R262): refused on a tile that is not EMPTY (R376 code 0x05). -/
def State.defTile (s : State) (h : Held) (n : Nat) (g : Vec) : State :=
  let buf := fieldN g 0 2
  let expect := fieldN g 64 24
  let t := (s.core h.ctx.core).tile n
  if t.state ≠ .empty then s.refuseAct h.ctx h.pc 0x0C 0x05 none
  else s.modTile h.ctx.core n (fun t =>
    { buf := buf, state := if expect = 0 ∧ buf ≠ 2 then .ready else .empty, esize := fieldN g 4 2, base := fieldN g 8 12,
      rows := fieldN g 20 12, cols := fieldN g 32 12, expect := expect, arrived := 0, nref := t.nref })

/-- A job that fills the tile is ISSUED, of this device or, for a slot of a ring, of another (R376). -/
def State.filling (s : State) (core n : Nat) : Bool :=
  let k := s.cluster (clusterOf core)
  (s.clusters.flatMap (fun c => c.2.copyQ) ++ s.dies.flatMap (fun d => d.2.copyQ) ++ k.pressQ).any
      (fun j => j.state == .issued && (j.fills.contains (core, n) || (j.op == .turngo && j.refs.contains (core, n))))
    || s.clusters.any (fun c => c.2.rings.any (fun r => r.2.incoming.any (fun q => (r.2.slotTiles q.1).contains (core, n))))

/-- A tile is released as TREL releases it (R102); FILLING with no issued job that fills it, it returns to EMPTY (R376). -/
def Tile.release (t : Tile) : Tile :=
  match t.state with
  | .ready => if t.nref = 0 then { t with state := .empty, arrived := 0 } else { t with state := .draining }
  | .filling => { t with state := .empty, arrived := 0 }
  | _ => t

/-- TREL at its release (R102, R262, R376 code 0x06). -/
def State.relTile (s : State) (h : Held) (n : Nat) : State :=
  if ((s.core h.ctx.core).tile n).state = .filling ∧ s.filling h.ctx.core n then s.refuseAct h.ctx h.pc 0x0C 0x06 none
  else s.modTile h.ctx.core n Tile.release

/-- A QUEUED or ISSUED Press job of a core. -/
def State.livePress (s : State) (core : Nat) : List Job :=
  (s.cluster (clusterOf core)).pressQ.filter (fun j => j.ctx.core == core && j.state != .reserved)

/-- A live Press job of the core names a tag, which holds MXCLR and MXEPI back (R271, R275). -/
def State.tagNamed (s : State) (core tag : Nat) : Bool := (s.livePress core).any (fun j => j.refs.contains (core, tag))

/-- The press of a core changed. -/
def State.modPress (s : State) (core : Nat) (f : Press → Press) : State :=
  s.modCore core (fun c => { c with press := f c.press })

/-- A tag record changed. -/
def Press.modTag (p : Press) (n : Nat) (f : TagRec → TagRec) : Press := { p with tags := tabSet p.tags n (f (p.tag n)) }

/-- MXEPI at its release (R275). -/
def State.setEpi (s : State) (core : Nat) (d : Vec) : State :=
  s.modPress core (fun p => p.modTag (fieldN d 0 6) (fun t =>
    { t with stages := mxepiStages d, rsbase := fieldN d 10 12 }))

/-- Place of an entry of a C tile in the buffer (R97, R99). -/
def Tile.centry (t : Tile) (r n : Nat) : Nat := (16 * (t.base + r) + n) % 65536

/-- Negative infinity in XF34, the start of a softmax. -/
def xfNegInf : BitVec 34 := xf34Bits (.inf true)

/-- The clear of an MXCLR: every entry of the tile to +0 with clear flags, and with rsclr its row state, as the tile and the row-state base
stood at its release (R271). -/
def Press.clear (p : Press) (t : Tile) (rsbase : Nat) (d : Vec) : Press :=
  let lo := 16 * t.base
  let hi := 16 * (t.base + t.rows + 1)
  let p1 := { p with cbuf := p.cbuf.filter (fun e => decide (e.1 < lo) || decide (hi ≤ e.1)) }
  if bitN d 22 then
    { p1 with rowst := (List.range (t.rows + 1)).foldl (fun w r =>
        tabSet w ((rsbase + r) % 4096) { mu := if bitN d 23 then 0 else xfNegInf, sigma := 0 }) p1.rowst }
  else p1

/-- Issue order of the core's last issued Press job that has not retired; 0 when there is none. -/
def State.lastOrder (s : State) (core : Nat) : Nat :=
  ((s.livePress core).filter (fun j => j.state == .issued)).foldl (fun m j => max m j.order) 0

/-- MXCLR at its release (R102, R271): the record is set, the tile goes to READY, and the clear takes its place in the slice's
order, behind the jobs that have issued. -/
def State.clearTag (s : State) (core : Nat) (d : Vec) : State :=
  let n := fieldN d 0 6
  let t := (s.core core).tile n
  let s1 := s.modPress core (fun p => p.modTag n (fun g =>
    { g with expect := fieldN d 6 16, steps := 0, present := g.present || bitN d 22 }))
  let s2 := if t.buf = 2 ∧ (t.state = .empty ∨ t.state = .ready) then s1.modTile core n (fun t => { t with state := .ready })
    else s1
  let o := s2.lastOrder core
  let rs := ((s.core core).press.tag n).rsbase
  if o = 0 then s2.modPress core (fun p => p.clear t rs d)
  else s2.modPress core (fun p => { p with clears := p.clears ++ [(o, t, rs, d)] })

/-- A live Press job of the core uses a code table through its format context (R165). -/
def State.tableUsed (s : State) (core n : Nat) : Bool :=
  (s.livePress core).any (fun j => (j.fmt.afmt == 3 && j.fmt.atab == n) || (j.fmt.wfmt == 3 && j.fmt.wtab == n)
    || (j.fmt.ofmt == 3 && j.fmt.otab == n))

/-- The table that a CTLD loads: a preset image, or one read from local SRAM (R258). DESIGN CHOICE: of an image that lies in the token
pool, whose bytes the manual does not lay out, it is what memory lists there (log 78). -/
def State.ctldTable (s : State) (core : Nat) (op : Word) : CodeTable :=
  if bitN op 0 then
    let a := winAddr core (8 * fieldN op 4 18)
    .image ((List.range 256).map (fun c => BitVec.ofNat 32 (leNat (memBytes s.mem (a + 4 * c) 4))))
      (BitVec.ofNat 32 (leNat (memBytes s.mem (a + 1024) 4)))
  else .preset (fieldN op 1 3)

/-- CTLD at its release: the table is replaced whole, or the load refused (R161, R258, R376 code 0x04). -/
def State.loadTable (s : State) (h : Held) (n : Nat) (op : Word) : State :=
  let t := s.ctldTable h.ctx.core op
  if t.ordered then s.modCore h.ctx.core (fun c => { c with ctags := c.ctags.set (n % 4) t (Nat.mod_lt _ (by decide)) })
  else s.refuseAct h.ctx h.pc 0x0C 0x04 none

/-! ## Issue (R73 to R75, R260, R269, R273, R275, R317, R378) -/

/-- One job goes before another: by its priority, then by the cycle at which it reached it (R74). -/
def Job.before (j k : Job) : Bool := decide (k.prio < j.prio) || (j.prio == k.prio && decide (j.since ≤ k.since))

/-- The job that a sequencer takes: of the eligible ones the highest priority, the first to enter that level (R74). -/
def pickJob (ok : Job → Bool) : List Job → Option Job
  | [] => none
  | j :: t =>
    match pickJob ok t with
    | none => if ok j then some j else none
    | some k => if ok j && j.before k then some j else some k

/-- Number of the queue's next issue. -/
def State.nextOrder (s : State) : JobQueue → Nat
  | .press c => (s.cluster c).issueNo + 1
  | .copy c => (s.cluster c).issueNo + 1
  | .steward d => (s.die d).issueNo + 1

/-- The issue number of a queue advances. -/
def State.bumpOrder (s : State) (q : JobQueue) : State :=
  match q with
  | .press c => s.modCluster c (fun k => { k with issueNo := k.issueNo + 1 })
  | .copy c => s.modCluster c (fun k => { k with issueNo := k.issueNo + 1 })
  | .steward d => s.modDie d (fun k => { k with issueNo := k.issueNo + 1 })

/-- Tags whose expected sequence a job advances (R75, R273). -/
def Job.seqTags (j : Job) : List Nat :=
  if j.sequenced then j.tagSeq.1 :: (if j.isSoftmax then [fieldN j.desc 158 6] else []) else []

/-- The expected sequences of a job's tags advance by one. -/
def State.advanceSeq (s : State) (j : Job) : State :=
  s.modPress j.ctx.core (fun p => j.seqTags.foldl (fun p n => p.modTag n (fun t => { t with expect := (t.expect + 1) % 65536 })) p)

/-- Bytes of local SRAM from an offset; an offset beyond it gives free values. -/
def State.sramBytes (s : State) (core o n : Nat) : List Byte :=
  (List.range n).map (fun j => if o + j < sramSize then memByte s.mem (winAddr core (o + j))
    else Config.outsideByte s.fresh (o + j))

/-- The vectors of the BIAS stages that an MXRD applies, read at its issue (R275). -/
def State.biasBytes (s : State) (j : Job) : List Byte :=
  if j.op = .mxrd ∧ fieldN j.desc 118 2 ≠ 2 then
    ((s.core j.ctx.core).press.tag (fieldN j.desc 72 6)).stages.flatMap (fun w =>
      if fieldN w 0 3 = 1 then s.sramBytes j.ctx.core (8 * fieldN w 3 16) 64 else [])
  else []

/-- The tiles that a block fills on this device: those of the successor's slot that the grant names (R100, R317). -/
def State.blockFills (s : State) (r : Ring) (slot : Nat) : List (Nat × Nat) :=
  if r.nextHere s then ((s.ring r.next.1 r.next.2).map (fun d => d.slotTiles slot)).getD [] else []

/-- A TURNGO at its issue: the oldest grant is consumed for a block, whose landing tiles it fills; a RELEASE takes the slot's bytes to send
on and releases its tiles (R100, R317, R318). -/
def State.issueTurn (s : State) (q : JobQueue) (j : Job) : State :=
  let cl := clusterOf j.ctx.core
  let n := fieldN j.desc 32 2
  match s.ring cl n with
  | none => s
  | some r =>
    let slot := fieldN j.desc 35 2
    let move := j.movesBlock r
    let s1 := if move then
        let fills := s.blockFills r (r.grants.headD 0)
        fills.foldl (fun t e => t.modTile e.1 e.2 (fun w => { w with nref := w.nref + 1 }))
          ((s.modRing cl n (fun r => { r with grants := r.grants.drop 1 })).modJob q j.id (fun j =>
            { j with aux := r.grants.headD 0, refs := j.refs ++ fills }))
      else s
    if bitN j.desc 34 then
      let p := (s.core (r.receivers.headD j.ctx.core)).press
      let part (tile n : Nat) := p.bytes 0 (64 * ((s.core (r.receivers.headD j.ctx.core)).tile tile).base) n
      let b := if move then part (r.tilesOf slot).1 r.sizes.1 ++ part (r.tilesOf slot).2 r.sizes.2 else []
      let s2 := (s1.modJob q j.id (fun j =>
        { j with srcDone := true, bufAt := 0, buf := b, sbuf := List.replicate b.length 0 })).modRing cl n (fun r =>
          { r with slots := tabSet r.slots slot .releasing, fwd := tabSet r.fwd slot move })
      (r.slotTiles slot).foldl (fun t e => t.modTile e.1 e.2 Tile.release) s2
    else s1

/-- One job issues (R74, R75): its sequences advance and it reads what it takes at issue. `stamp` joins the members of a gang. -/
def State.issueOne (s : State) (q : JobQueue) (j : Job) (stamp : Nat) : State :=
  let bias := s.biasBytes j
  let s1 := (s.modJob q j.id (fun j =>
    { j with state := .issued, order := s.nextOrder q, aux := stamp, buf := bias, progress := s.cycle, reported := false })).bumpOrder
      q |>.drawn
  let s2 := s1.advanceSeq j
  if j.op = .turngo then s2.issueTurn q j else s2

/-- The queue of a Press job. -/
def Job.pressQueue (j : Job) : JobQueue := .press (clusterOf j.ctx.core)

/-- Rows of a gang job, which its members must agree in. -/
def Job.gangRows (j : Job) : Nat := if j.op = .mxrd then fieldN j.desc 90 12 else fieldN j.desc 98 12

/-- The candidates of a gang agree in rows and size, and their indices are exactly 0 to its size (R269, R378). -/
def gangSound (cs : List Job) : Bool :=
  match cs with
  | [] => true
  | c :: _ => cs.all (fun j => j.gangRows == c.gangRows && j.gangN == c.gangN) &&
      (List.range (c.gangN + 1)).all (fun i => (cs.filter (fun j => j.gangIdx == i)).length == 1) && cs.length == c.gangN + 1

/-- The error record of a Press job, its fault token (R378). -/
def State.pressRecord (s : State) (j : Job) (code : Nat) : State :=
  let c := j.ctx.core
  let e := { unitErr 0x0C code 5 c 1 (coreInCluster c) j.ctx.tenant with raw := j.tagSeq.1 }
  (s.logErr e).faultToken c e.toRec 0

/-- The completion arrival of a Press job, after it has retired (R260). -/
def State.pressArrival (s : State) (j : Job) : State :=
  s.arrive (.press j.ctx.core) j.ctx.tenant (BitVec.ofNat 32 (fieldN j.desc 32 32)) (fieldN j.desc 64 6) 1

/-- A gang whose members disagree: each job retires without writing (R378). -/
def State.gangFails (s : State) (cs : List Job) : State :=
  cs.foldl (fun t j => ((((t.advanceSeq j).retireJob j.pressQueue j).pressArrival j).pressRecord j 0x02)) s

/-- The jobs that one copy unit serves: those of its cluster, and at cluster (0, 0) of a die those of the steward as well (R435). -/
def State.unitJobs (s : State) (q : JobQueue) : List Job :=
  match q with
  | .press _ => []
  | .copy c => s.jobsOf (.copy c) ++ (if c % 120 = 0 then s.jobsOf (.steward (c / 120)) else [])
  | .steward d => s.jobsOf (.copy (d * 120)) ++ s.jobsOf (.steward d)

/-- A queue may issue: a copy unit runs up to 4 issued jobs (R74), and it issues the steward's before those of its cluster (R435). -/
def State.issueRoom (s : State) (q : JobQueue) : Bool :=
  decide (((s.unitJobs q).filter (fun j => j.state == .issued)).length < 4) && (match q with
    | .copy c => c % 120 != 0 || (pickJob s.eligible (s.jobsOf (.steward (c / 120)))).isNone
    | _ => true)

/-- JOB_ISSUE: a sequencer issues one eligible job; a gang's jobs issue together (R73, R74, R269, R378, R435). -/
def jobIssue (q : JobQueue) (s : State) : State :=
  if s.issueRoom q = false then s
  else match pickJob s.eligible (s.jobsOf q) with
    | none => s
    | some j =>
      match j.gang with
      | none => s.issueOne q j 0
      | some g =>
        let cs := s.candidates g
        if gangSound cs then cs.foldl (fun t k => t.issueOne k.pressQueue k (s.reqNo + 1)) { s with reqNo := s.reqNo + 2 }
        else s.gangFails cs

/-- JOB_ISSUE. -/
def execJobIssue (queue : JobQueue) : State → Host.Outcome State Fault Refusal := eventOf (jobIssue queue)

/-! ## Operands (R99, R150, R264, R266, R267) -/

/-- A value of a Press input format as E8M10 (R150, R264): a BF16 subnormal becomes a zero and sets UF. -/
def pressValue (tabs : Vector CodeTable 4) (fmt tab v : Nat) : Num × Byte :=
  match fmt with
  | 0 => (fmtE8M10.decode (v % 2 ^ 19), flNone)
  | 1 =>
    let x := fmtB16.decode v
    if !x.isZero && !x.isInf && !x.isNan && decide (x.ilog < -126) then (.fin x.sign 0 0, flUF) else (x, flNone)
  | 2 => (fmtH16.decode v, flNone)
  | _ => ((tabs.get ⟨tab % 4, Nat.mod_lt _ (by decide)⟩).decode v, flNone)

/-- Element (r, c) of a W or A tile; +0 beyond the tile (R266, R267). -/
def CoreSt.element (c : CoreSt) (t : Tile) (fmt tab r k : Nat) : Num × Byte :=
  if t.rows < r ∨ t.cols < k then (.fin false 0 0, flNone)
  else
    let n := fmtBytes fmt
    pressValue c.ctags fmt tab (leNat (c.press.bytes t.buf (64 * t.base + r * t.pitch + n * k) n))

/-- The 32 elements of an A row's k-block with their flags (R267). -/
def CoreSt.aRow (c : CoreSt) (j : Job) (r : Nat) : List (Num × Byte) :=
  let t := c.tile (fieldN j.desc 72 6)
  (List.range 32).map (fun k => c.element t j.fmt.afmt j.fmt.atab (fieldN j.desc 78 12 + r) (32 * fieldN j.desc 90 8 + k))

/-- OR of the flags of values. -/
def flagsOf (l : List (Num × Byte)) : Byte := l.foldl (fun b e => b ||| e.2) 0

/-- Flags go into FFLAGS of a core. -/
def State.orFflags (s : State) (core : Nat) (b : Byte) : State :=
  s.modCore core (fun c => { c with fflags := c.fflags ||| b.setWidth 7 })

/-- MXLDW: a block of the W tile into the shadow plane (R266). -/
def State.loadShadow (s : State) (j : Job) : State :=
  let c := s.core j.ctx.core
  let t := c.tile (fieldN j.desc 72 6)
  let es := (List.range 512).map (fun x =>
    (x, c.element t j.fmt.wfmt j.fmt.wtab (32 * fieldN j.desc 78 12 + x / 16) (16 * fieldN j.desc 90 8 + x % 16)))
  (s.modPress j.ctx.core (fun p => { p with shadow := es.map (fun e =>
    (e.1, BitVec.ofNat 19 (fmtE8M10.encode e.2.1))) })).orFflags j.ctx.core (flagsOf (es.map (·.2)))

/-! ## k-steps (R166, R267, R269, R270) -/

/-- A C entry: XF34 value, NX in bit 34, NV in bit 35 (R151). -/
def centryOf (x : Num) (nx nv : Bool) : BitVec 40 :=
  BitVec.ofNat 40 ((xf34Bits x).toNat + b2n nx * 2 ^ 34 + b2n nv * 2 ^ 35)

/-- The value of an entry. -/
def centryNum (e : BitVec 40) : Num := xf34Num (e.setWidth 34)
/-- The flags of an entry as side-band bits. -/
def centryFlags (e : BitVec 40) : Byte := flIf (e.getLsbD 34) flNX ||| flIf (e.getLsbD 35) flNV

/-- A C entry changed by a value with flags, which join those it has. -/
def centryPut (old : BitVec 40) (x : Num) (fl : Byte) : BitVec 40 :=
  centryOf x (old.getLsbD 34 || fl.getLsbD 0) (old.getLsbD 35 || fl.getLsbD 4)

/-- A column of the active plane. -/
def Press.column (p : Press) (n : Nat) : List Num :=
  (List.range 32).map (fun k => fmtE8M10.decode (tabGet 0 p.active (16 * k + n)).toNat)

/-- One row of a k-step: 16 entries, of which those of the tile's columns are written (R267). -/
def Press.stepRow (p : Press) (t : Tile) (crow : Nat) (fresh : Bool) (a : List Num) (cols : List (List Num)) (scale : Int) : Press :=
  { p with cbuf := (List.range (min 16 (t.cols + 1))).foldl (fun b n =>
      let i := t.centry crow n
      let old := if fresh then 0 else tabGet 0 b i
      let v := pressStep (centryNum old) (a.zip (cols.getD n [])) scale
      tabSet b i (centryPut old v.1 v.2)) p.cbuf }

/-- A k-step job's rows applied to its tag with given A rows; its step count rises (R267, R270). -/
def State.kSteps (s : State) (j : Job) (rows : List (List Num)) (sa : Int) : State :=
  let t := (s.core j.ctx.core).tile (fieldN j.desc 110 6)
  s.modPress j.ctx.core (fun p =>
    let cols := (List.range 16).map p.column
    let p1 := rows.zipIdx.foldl (fun p e =>
      p.stepRow t (fieldN j.desc 116 12 + e.2) (bitN j.desc 161) e.1 cols (sa + j.fmt.sw)) p
    p1.modTag (fieldN j.desc 110 6) (fun g => { g with steps := (g.steps + 1) % 2 ^ 32 }))

/-- A job with swap exchanges the planes at its start (R266). -/
def State.swapPlanes (s : State) (j : Job) : State :=
  if (j.op = .mxstrm ∨ j.op = .mxgang) ∧ bitN j.desc 144 then
    s.modPress j.ctx.core (fun p => { p with active := p.shadow, shadow := p.active })
  else s

/-- The k-step jobs of a gang, or one alone: the leader's A rows under its format, each member's plane and tag (R269). -/
def State.applySteps (s : State) (ms : List Job) : State :=
  match ms.find? (fun j => j.gangIdx == 0 || ms.length == 1) with
  | none => s
  | some l =>
    let c := s.core l.ctx.core
    let rows := (List.range (fieldN l.desc 98 12 + 1)).map (c.aRow l)
    (ms.foldl (fun t j => (t.swapPlanes j).kSteps j (rows.map (fun r => r.map (·.1))) l.fmt.sa) s).orFflags l.ctx.core
      (flagsOf rows.flatten)

/-! ## The epilogue (R274 to R276) -/

/-- A value in XF34 with the flags on its way. -/
abbrev XVal := Num × Byte

/-- The one rounding of an operator, whose flags join those of its operands. -/
def xround (x : Num) (fl : Byte) : XVal :=
  let (y, f) := toXf34 x
  (y, fl ||| f)

/-- A product in XF34. -/
def xmul (a b : XVal) : XVal := let (p, f) := mulX a.1 b.1; xround p (a.2 ||| b.2 ||| f)
/-- A sum in XF34. -/
def xadd (a b : XVal) : XVal := let (p, f) := addX .rne a.1 b.1; xround p (a.2 ||| b.2 ||| f)
/-- A constant. -/
def xc (x : Num) : XVal := (x, flNone)
/-- E(y): the v of vexp2 rounded to XF34, with the flags of that rounding (R276). -/
def xexp (a : XVal) : XVal := let (y, f) := vexp2With (fun _ v => toXf34 v.num) a.1; (y, a.2 ||| f)
/-- RC(y): the v of vrcp rounded to XF34 (R276). -/
def xrcp (a : XVal) : XVal := let (y, f) := vrcpWith (fun _ v => toXf34 v.num) a.1; (y, a.2 ||| f)
/-- A number of no fraction. -/
def xnum (neg : Bool) (m : Nat) (e : Int) : XVal := xc (.fin neg m e)

/-- sigm(x). -/
def xsigm (x : XVal) : XVal := xrcp (xadd (xnum false 1 0) (xexp (xmul (x.1.negate, x.2) (xc cL2E))))
/-- tanh(x). -/
def xtanh (x : XVal) : XVal := xadd (xmul (xnum false 2 0) (xsigm (xmul (xnum false 2 0) x))) (xnum true 1 0)
/-- gelu(x). -/
def xgelu (x : XVal) : XVal :=
  let cube := xmul (xmul (xmul (xc cG2) x) x) x
  xmul (xmul (xnum false 1 (-1)) x) (xadd (xnum false 1 0) (xtanh (xmul (xc cG1) (xadd x cube))))

/-- The function codes of R276. -/
def xfun (g : Nat) (x : XVal) : XVal :=
  match g with
  | 0 => x
  | 1 => (if x.1.isNan ∨ numLt (.fin false 0 0) x.1 then x.1 else .fin false 0 0, x.2)
  | 2 => xgelu x
  | 3 => xsigm x
  | 4 => xtanh x
  | _ => xmul x (xsigm x)

/-- An F32 or B16 parameter. -/
def paramF32 (w : Word) (lo : Nat) : Num := fmtF32.decode (fieldN w lo 32)

/-- What the stages see of an entry: the core, its BIAS vectors, the entry's row and column. -/
structure StageAt where
  c    : CoreSt
  bias : List Byte
  r    : Nat
  n    : Nat

/-- Entry (r, n) of the C tile of a GATE stage; a disabled one counts as the constant given (R275). -/
def StageAt.gateEntry (a : StageAt) (w : Word) (j : Nat) (off : Num) : XVal :=
  if bitN w (33 + j) then xc (centryNum (tabGet 0 a.c.press.cbuf ((a.c.tile (fieldN w (15 + 6 * j) 6)).centry a.r a.n)))
  else xc off

/-- One stage; `b` counts the BIAS stages before it (R275). -/
def StageAt.stage (a : StageAt) (w : Word) (b : Nat) (v : XVal) : XVal :=
  match fieldN w 0 3 with
  | 0 => xmul v (xc (paramF32 w 3))
  | 1 => xadd v (xc (fmtF32.decode (leNat ((a.bias.drop (64 * b + 4 * a.n)).take 4))))
  | 2 => xfun (fieldN w 3 3) v
  | 3 =>
    let one : Num := .fin false 1 0
    let p0 := xfun (fieldN w 3 3) v
    let p1 := xfun (fieldN w 6 3) (a.gateEntry w 0 one)
    let p2 := xfun (fieldN w 9 3) (a.gateEntry w 1 (.fin false 0 0))
    let p3 := xfun (fieldN w 12 3) (a.gateEntry w 2 one)
    let (x, fx) := mulX p0.1 p1.1
    let (y, fy) := mulX p2.1 p3.1
    let (z, fz) := addX .rne x y
    xround z (p0.2 ||| p1.2 ||| p2.2 ||| p3.2 ||| fx ||| fy ||| fz)
  | _ => v

/-- The stages of a tag in order, except RECUR and SOFTMAX (R274). -/
def StageAt.stages (a : StageAt) : List Word → Nat → XVal → XVal
  | [], _, v => v
  | w :: t, b, v => a.stages t (if fieldN w 0 3 = 1 then b + 1 else b) (a.stage w b v)

/-- The value of entry (r, n) of a drained tag before its conversion, with its flags (R274). -/
def CoreSt.drainValue (c : CoreSt) (j : Job) (r n : Nat) : XVal :=
  let mode := fieldN j.desc 118 2
  let tag := fieldN j.desc 72 6
  let e := tabGet 0 c.press.cbuf ((c.tile tag).centry r n)
  let v0 : XVal := (centryNum e, centryFlags e)
  let v1 : XVal := if mode = 3 then
      let k := ((c.press.tag (fieldN j.desc 158 6)).rsbase + r) % 4096
      let (q, f) := divX fmtXF34 .rne v0.1 (xf34Num (tabGet RowState.zero c.press.rowst k).sigma)
      (q, v0.2 ||| f)
    else v0
  if mode = 2 then v1
  else ({ c := c, bias := j.buf, r := r, n := n } : StageAt).stages (c.press.tag tag).stages 0 v1

/-- The conversion of a value by the output format (R167, R264). -/
def CoreSt.outConv (c : CoreSt) (f : FmtCtx) (v : XVal) : Nat × Byte :=
  let fm (g : Fmt) : Nat × Byte := let (y, b) := roundTo g f.rm f.sat v.1; (g.encode y, v.2 ||| b)
  match f.ofmt with
  | 0 => fm fmtE8M10
  | 1 => fm fmtB16
  | 2 => fm fmtH16
  | 3 => let (y, b) := (c.ctags.get ⟨f.otab % 4, Nat.mod_lt _ (by decide)⟩).encode v.1; (y, v.2 ||| b)
  | _ => fm fmtF32

/-- The output row of a drain: the bits and flags of each column (R274). -/
def CoreSt.drainRow (c : CoreSt) (j : Job) (r : Nat) : List (Nat × Byte) :=
  (List.range (min 16 ((c.tile (fieldN j.desc 72 6)).cols + 1))).map (fun n => c.outConv j.fmt (c.drainValue j r n))

/-- A row's elements as bytes of e each. -/
def rowBytes (e : Nat) (l : List (Nat × Byte)) : List Byte := l.flatMap (fun v => leBytes e v.1)
/-- OR of a row's flags. -/
def rowFlags (l : List (Nat × Byte)) : Byte := l.foldl (fun b v => b ||| v.2) 0

/-- A drained row into an A tile; whether it meets the expected count (R274, R378). -/
def State.rowToTile (s : State) (core tile row ofs : Nat) (bs : List Byte) : State × Bool :=
  let t := (s.core core).tile tile
  (s.fillTile core tile (row * t.pitch + ofs) bs, !t.takes (row * t.pitch + ofs) bs.length)

/-- Rows into an A tile one after the other. -/
def State.rowsToTile (s : State) (core tile : Nat) : List (Nat × Nat × List Byte) → State × Bool
  | [] => (s, false)
  | (row, ofs, bs) :: t =>
    let (s1, a) := s.rowToTile core tile row ofs bs
    let (s2, b) := s1.rowsToTile core tile t
    (s2, a || b)

/-- A row into local SRAM: 16 elements of e bytes; those beyond the tile's columns are free values (R274). -/
def State.rowToSram (s : State) (core ofs e : Nat) (l : List (Nat × Byte)) : State :=
  let pad := (List.range (16 * e - e * l.length)).map (fun j => Config.outsideByte s.fresh j)
  let bs := rowBytes e l ++ pad
  (List.range (2 * e)).foldl (fun t w =>
    t.writeBytes 0 (winAddr core (ofs + 8 * w)) ((bs.drop (8 * w)).take 8)
      (rowFlags ((l.drop (8 * w / e)).take (8 / e)))) s.drawn

/-- The tokens of a drain to a channel (R274). -/
def rowToken (x : Ctx) (e : Nat) (l : List (Nat × Byte)) : Token :=
  { kind := .data, side := rowFlags l, colour := colourOf x.frame x.gen, vec := true, data := BitVec.ofNat 512 (leNat (rowBytes e l)) }

/-- Rows that an MXRD drains. -/
def Job.rows (j : Job) : List Nat := (List.range (fieldN j.desc 90 12 + 1)).map (fieldN j.desc 78 12 + ·)

/-- The writes of a DRAIN, PEEK or FINAL are performed; the rows of a channel drain become its tokens (R274, R378). -/
def State.drain (s : State) (j : Job) : State :=
  let core := j.ctx.core
  let c := s.core core
  let e := fmtBytes j.fmt.ofmt
  let out := j.rows.map (c.drainRow j)
  let fl := out.foldl (fun b l => b ||| rowFlags l) 0
  match fieldN j.desc 120 2 with
  | 0 =>
    let (s1, bad) := s.rowsToTile core (fieldN j.desc 122 6)
      (out.zipIdx.map (fun l => (fieldN j.desc 128 12 + l.2, 0, rowBytes e l.1)))
    let s2 := s1.orFflags core fl
    if bad then s2.pressRecord j 0x03 else s2
  | 1 => out.zipIdx.foldl (fun t l => t.rowToSram core (8 * fieldN j.desc 140 16 + l.2 * 16 * e) e l.1) s
  | _ => s.modJob j.pressQueue j.id (fun k => { k with toks := out.map (rowToken j.ctx e) })

/-! ## Softmax (R277) -/

/-- E(to_xf34((a − b) × L2E)), the difference rounded with its product in one step. -/
def expDiff (a b : Num) : XVal :=
  let (d, f) := addX .rne a b.negate
  let (p, g) := mulX d cL2E
  xexp (xround p (f ||| g))

/-- The maximum; a NaN if any value is one. -/
def maxNan (a : Num) (l : List Num) : Num :=
  if a.isNan ∨ l.any Num.isNan then .nan false else l.foldl (fun m x => if numLt m x then x else m) a

/-- The values of one row of a SOFTMAX drain on one member. -/
def CoreSt.softRow (c : CoreSt) (j : Job) (i : Nat) : List XVal :=
  (List.range (min 16 ((c.tile (fieldN j.desc 72 6)).cols + 1))).map (fun n => c.drainValue j (fieldN j.desc 78 12 + i) n)

/-- Row i of a SOFTMAX drain on one member: its row state, its link's row, and its bytes of every member; the flags of the row
(R277). `vals` are the gang's values, with each member's index. -/
def State.softmaxRow (s : State) (j : Job) (vals : List (Nat × List XVal)) (i : Nat) : State × Byte × List (Nat × Nat × List Byte) :=
  let core := j.ctx.core
  let p := (s.core core).press
  let r := fieldN j.desc 78 12 + i
  let k := ((p.tag (fieldN j.desc 72 6)).rsbase + r) % 4096
  let st := tabGet RowState.zero p.rowst k
  let all := (vals.flatMap (·.2))
  let mold := xf34Num st.mu
  let mnew := maxNan mold (all.map (·.1))
  let alpha : XVal := if mold == .inf true then xc (.fin false 0 0) else expDiff mold mnew
  let prob (v : XVal) : XVal :=
    let e := expDiff v.1 mnew
    let (y, f) := toE8m10 e.1
    (y, v.2 ||| e.2 ||| f)
  let ps := vals.map (fun m => (m.1, m.2.map prob))
  let flat := ps.flatMap (·.2)
  let (sc, f0) := mulX alpha.1 (xf34Num st.sigma)
  let (sum, f1) := flat.foldl (fun (a : XVal) v => let (y, f) := addX .rne a.1 v.1; (y, a.2 ||| f)) (sc, f0)
  let (sig, f2) := toXf34 sum
  let lt := (s.core core).tile (fieldN j.desc 158 6)
  let link := (List.range (min 16 (lt.cols + 1))).map (fun n =>
    let i := lt.centry r n
    let old := tabGet 0 p.cbuf i
    let (q, f) := mulX alpha.1 (centryNum old)
    let (y, g) := toXf34 q
    (i, old, y, f ||| g))
  let s1 := s.modPress core (fun p =>
    { p with rowst := tabSet p.rowst k { mu := xf34Bits mnew, sigma := xf34Bits sig },
             cbuf := link.foldl (fun b e => tabSet b e.1 (centryPut e.2.1 e.2.2.1 e.2.2.2)) p.cbuf })
  let other := link.foldl (fun (b : Byte) e => b ||| (e.2.2.2 &&& 0xEE)) 0
  let bytes := ps.map (fun m => (fieldN j.desc 128 12 + i, 64 * m.1,
    m.2.flatMap (fun v => leBytes 4 (fmtE8M10.encode v.1))))
  (s1, flagsOf flat ||| alpha.2 ||| f1 ||| f2 ||| other, bytes)

/-- The rows of one member, and whether some row exceeds the expected count. -/
def State.softmaxRows (s : State) (j : Job) (vals : Nat → List (Nat × List XVal)) : List Nat → State × Bool
  | [] => (s, false)
  | i :: t =>
    let (s1, fl, bytes) := s.softmaxRow j (vals i) i
    let (s2, bad) := s1.rowsToTile j.ctx.core (fieldN j.desc 122 6) bytes
    let (s3, more) := (s2.orFflags j.ctx.core fl).softmaxRows j vals t
    (s3, bad || more)

/-- A member's rows, with one record when some exceed the expected count (R378). -/
def State.softmaxMember (s : State) (j : Job) (vals : Nat → List (Nat × List XVal)) (rows : Nat) : State :=
  let (s1, bad) := s.softmaxRows j vals (List.range rows)
  if bad then s1.pressRecord j 0x03 else s1

/-- A SOFTMAX drain of a gang, or of one core: every member sees the whole row as it stood before (R277). -/
def State.softmax (s : State) (ms : List Job) : State :=
  let vals (i : Nat) : List (Nat × List XVal) :=
    ms.map (fun m => (if ms.length = 1 then 0 else m.gangIdx, (s.core m.ctx.core).softRow m i))
  ms.foldl (fun t j => t.softmaxMember j vals (fieldN j.desc 90 12 + 1)) s

/-! ## Scans (R278) -/

/-- The parameters of a tag's RECUR stage: decay and gain. -/
def recurOf (t : TagRec) : Num × Num :=
  match t.stages.find? (fun w => fieldN w 0 3 == 5) with
  | some w => (paramF32 w 3, fmtB16.decode (fieldN w 35 16))
  | none => (.fin false 0 0, .fin false 0 0)

/-- n successive products of a start with a factor, each rounded to XF34. -/
def powers (a : Num) : Nat → Num → List Num
  | 0, x => [x]
  | n + 1, x => x :: powers a n (toXf34 (mulX x a).1).1

/-- One channel of a scan: the outputs with their flags, from the carried state. -/
def scanChannel (ps qs : List Num) (x : List Num) (hp : Num) : List XVal :=
  (List.range 32).map (fun n =>
    let w := (List.range 32).map (fun k => if k ≤ n then (toE8m10 (ps.getD (n - k) (.fin false 0 0))).1 else Num.fin false 0 0)
    let (v, f) := pressStep (.fin false 0 0) (x.zip w) 0
    let q := (toXf34 (mulX (qs.getD (n + 1) (.fin false 0 0)) hp).1).1
    let (z, g) := addX .rne v q
    xround z (f ||| g))

/-- MXSCAN: one chunk of 32 steps for each channel (R278). -/
def State.scan (s : State) (j : Job) : State :=
  let core := j.ctx.core
  let tag := fieldN j.desc 110 6
  let c := s.core core
  let t := c.tile tag
  let g := c.press.tag tag
  let (a, b) := recurOf g
  let ps := powers a 31 (toXf34 b).1
  let qs := powers a 32 (.fin false 1 0)
  let crow := fieldN j.desc 116 12
  let one (p : Press) (fl : Byte) (r : Nat) : Press × Byte :=
    let x := c.aRow j r
    let k := (g.rsbase + crow / 2 + r) % 4096
    let hs := scanChannel ps qs (x.map (·.1)) (xf34Num (tabGet RowState.zero p.rowst k).mu)
    let cb := hs.zipIdx.foldl (fun b h =>
      tabSet b (t.centry (crow + 2 * r + h.2 / 16) (h.2 % 16)) (centryPut 0 h.1.1 h.1.2)) p.cbuf
    let last := (hs.getLast?.map (·.1)).getD (.fin false 0 0)
    ({ p with cbuf := cb, rowst := tabSet p.rowst k { (tabGet RowState.zero p.rowst k) with mu := xf34Bits last } },
      fl ||| flagsOf x)
  let (p, fl) := (List.range (fieldN j.desc 98 12 + 1)).foldl (fun (e : Press × Byte) r => one e.1 e.2 r) (c.press, flNone)
  (s.modPress core (fun _ => p.modTag tag (fun g => { g with steps := (g.steps + 1) % 2 ^ 32 }))).orFflags core fl

/-! ## Retirement (R72, R260, R271, R274) -/

/-- The oldest issued Press job of a core; a retired slice works on none (R364). -/
def State.slice (s : State) (core : Nat) : Option Job :=
  if s.pressGone core then none
  else ((s.livePress core).filter (fun j => j.state == .issued)).foldl (fun b j => match b with
    | none => some j
    | some k => if j.order < k.order then some j else some k) none

/-- The clears that stand before an issue order are performed (R271). -/
def State.runClears (s : State) (core order : Nat) : State :=
  ((s.core core).press.clears.filter (fun e => decide (e.1 < order))).foldl (fun t e =>
    t.modPress core (fun p => { (p.clear e.2.1 e.2.2.1 e.2.2.2) with
      clears := p.clears.filter (fun x => decide (order ≤ x.1)) })) s

/-- With no issued job left, every clear is performed. -/
def State.lastClears (s : State) (core : Nat) : State :=
  match s.slice core with
  | some j => s.runClears core j.order
  | none => s.runClears core (((s.core core).press.clears.foldl (fun m e => max m e.1) 0) + 1)

/-- The step count of a PEEK goes to its frame word, with a generation check (R274). -/
def State.peekWord (s : State) (j : Job) : State :=
  if j.op = .mxrd ∧ fieldN j.desc 118 2 = 2 ∧ s.sameFrame j.ctx ∧
      fieldN j.desc 180 9 < ((s.core j.ctx.core).frame j.ctx.frame).words then
    s.putWords j.ctx.core j.ctx.frame (fieldN j.desc 180 9)
      [(BitVec.ofNat 64 ((s.core j.ctx.core).press.tag (fieldN j.desc 72 6)).steps, 0)]
  else s

/-- A Press job whose writes are performed retires and sends its arrival (R260). -/
def State.pressRetires (s : State) (j : Job) : State := ((s.peekWord j).retireJob j.pressQueue j).pressArrival j

/-- The members of an issued job's gang that stand first on their slices. -/
def State.gangFront (s : State) (j : Job) : List Job :=
  if j.aux = 0 then [j]
  else (s.clusters.flatMap (fun c => (List.range 8).filterMap (fun q => s.slice (coreAt c.1 q)))).filter (fun k => k.aux == j.aux)

/-- The frame of a retiring job stands still. -/
def State.stillFrame (s : State) (x : Ctx) : Bool := (s.inTransfer x.core x.frame x.gen).isNone

/-- What the jobs at the front of their slices do. -/
def State.applyPress (s : State) (j : Job) (ms : List Job) : State :=
  match j.op with
  | .mxldw => s.loadShadow j
  | .mxscan => s.scan j
  | .mxrd => if j.isSoftmax then s.softmax ms else s.drain j
  | _ => s.applySteps ms

/-- PRESS_JOB_RETIRE: the oldest issued job of a slice is applied whole and retires; a gang's on all its slices at once, a drain
to a channel stays until its tokens have gone (R72, R269, R272, R274). -/
def pressJobRetire (core : Nat) (s : State) : State :=
  match s.slice core with
  | none => s
  | some j =>
    let ms := s.gangFront j
    if j.toks ≠ [] ∨ ms.length ≠ (if j.aux = 0 then 1 else j.gangN + 1) ∨ ms.all (fun m => s.stillFrame m.ctx) = false then s
    else
      let s0 := ms.foldl (fun t m => t.runClears m.ctx.core m.order) s
      let s1 := s0.applyPress j ms
      if j.op = .mxrd ∧ fieldN j.desc 120 2 = 2 then s1
      else ms.foldl (fun t m => (t.pressRetires m).lastClears m.ctx.core) s1

/-- PRESS_JOB_RETIRE. -/
def execPressJobRetire (core : Nat) : State → Host.Outcome State Fault Refusal := eventOf (pressJobRetire core)

/-- MXRD_TOKEN_SEND: the next token of a drain leaves when the port holds its 5 units; the last one lets the job retire (R274). -/
def mxrdTokenSend (core : Nat) (s : State) : State :=
  match s.slice core with
  | none => s
  | some j =>
    match j.toks with
    | [] => s
    | t :: rest =>
      let p := fieldN j.desc 156 2
      if (s.core core).canSend j.ctx.vnode [p] 5 = false ∨ s.stillFrame j.ctx = false then s
      else
        let s1 := (s.nodeSend core j.ctx.vnode p t).modJob j.pressQueue j.id (fun k => { k with toks := rest })
        if rest.isEmpty then (s1.pressRetires j).lastClears core else s1

/-- MXRD_TOKEN_SEND. -/
def execMxrdTokenSend (core : Nat) : State → Host.Outcome State Fault Refusal := eventOf (mxrdTokenSend core)

end Sys2Proof.Machine
end

