-- ==== Sys2Proof/Machine/Results.lean ====
section
/-! DEFINITION. What hoops and reductions share: references and definitions (R301, R303, R304, R425), published buffers (R115, R141, R320),
results written to the back copy (R306, R313), and the source reads of contributions (R305, R311, R392 to R394). -/

namespace Sys2Proof.Machine

/-! ## Definitions (R301, R303, R425) -/

/-- The descriptor with a DYN rounding field resolved to the node's mode (R152, R303). -/
def State.resolveRm (s : State) (x : Ctx) (d : Vec) (lo : Nat) : Vec :=
  if fieldN d lo 3 = 7 then
    setFieldN d lo 3 (if isSteward x.core then 0 else (match fieldN ((s.core x.core).nodeDesc x.vnode) 5 3 with
      | 7 => 0
      | c => c))
  else d

/-- The rounding code is assigned. -/
def rmOk (c : Nat) : Bool := c != 5 && c != 6

/-- A cluster lies in the region of the job of a core (R301). -/
def State.inRegion (s : State) (x : Ctx) (cluster : Nat) : Bool :=
  isSteward x.core || s.owns (s.tenantOf x.core) (coreAt cluster 0)

/-- The reference names a router of this device. -/
def State.refHere (s : State) (ref : Nat) : Bool := refDev ref == s.device && refSound ref

/-- The home router is in the issuing job's region. -/
def State.refOk (s : State) (x : Ctx) (ref : Nat) : Bool := s.refHere ref && s.inRegion x (refCluster ref)

/-- The hoop at a reference, in force or not. -/
def State.hoopHeld (s : State) (ref : Nat) : Option Hoop :=
  if s.refHere ref then tabFind (s.die (refDie ref)).hoops (refKey ref) else none

/-- The hoop that is defined at a reference. -/
def State.hoopAt (s : State) (ref : Nat) : Option Hoop := (s.hoopHeld ref).filter (·.ready)

/-- The reduction of a reference. -/
def State.redAt (s : State) (ref : Nat) : Option Reduction :=
  if s.refHere ref then tabFind (s.die (refDie ref)).reds (refKey ref) else none

/-- Ways of a slice: 16 (R104). -/
def sliceWays : Nat := 16

/-! ## Published buffers (R115, R141, R320) -/

/-- The report of PBDEF. -/
def State.pbReport (s : State) (x : Ctx) (d : Vec) (code : Nat) : State :=
  s.defReport (.core x.core) x.tenant code 0 (BitVec.ofNat 32 (fieldN d 176 32)) (fieldN d 208 6) (fieldN d 214 9)

/-- The frame of page j from an address, when it is an ordinary 64 KiB page with W permission (R320). -/
def State.plainFrame (s : State) (x : Ctx) (va : Word) (j : Nat) : Option Nat :=
  match s.walk (dieOf x.core) (s.core x.core).asid (va + BitVec.ofNat 64 (65536 * j)) with
  | .leaf _ pte false =>
    if fieldN pte 8 8 = 0 ∧ pte.getLsbD 3 then
      some (s.leafPa (dieOf x.core) (s.core x.core).asid pte false false (va + BitVec.ofNat 64 (65536 * j)) / 65536) else none
  | _ => none

/-- n pages from page j on have the frames that follow a base (R320). -/
def State.frameRun (s : State) (x : Ctx) (va : Word) (base : Nat) : Nat → Nat → Bool
  | 0, _ => true
  | n + 1, j => s.plainFrame x va j == some (base + j) && s.frameRun x va base n (j + 1)

/-- The pages of a run have been translated: the walker sets A in each (R112). -/
def State.touchRun (s : State) (x : Ctx) (va : Word) (n : Nat) : State :=
  (List.range n).foldl (fun t j => t.touchPage x.core (t.core x.core).asid false (va + BitVec.ofNat 64 (65536 * j))) s

/-- First frame of a run of n pages. -/
def State.runBase (s : State) (x : Ctx) (va : Word) (n : Nat) : Option Nat :=
  if va.toNat % 65536 ≠ 0 then none
  else match s.plainFrame x va 0 with
    | some b => if s.frameRun x va b (n - 1) 1 then some b else none
    | none => none

/-- The published-buffer entry of a buffer changed in every die's copy (R115). -/
def State.setPub (s : State) (asid k : Nat) (f : PubBuf → PubBuf) (p : PubBuf) : State :=
  [0, 1, 2, 3].foldl (fun t d => t.modDie d (fun e => { e with pubs := tabSet e.pubs (asid * 256 + k) (f p) })) s

/-- The generation word's page is not present, or a request for it is parked in the cluster that writes it (R393, R394): its address and
level. -/
def State.genAbsent (s : State) (cluster core asid genaddr : Nat) : Option (Word × Nat) :=
  let va : Word := (BitVec.ofNat 48 genaddr).signExtend 64
  if (s.cluster cluster).holdsPage (asid, vpageOf va) then some (va, s.levelOf core asid va)
  else match s.xlate core asid false false { read := false, write := true } va 8 with
    | .error (.park va l) => some (va, l)
    | _ => none

/-- The generation word is stored through the front view; a store that is refused is recorded (R116, R141, R370). -/
def State.genStore (s : State) (core asid genaddr v : Nat) : State :=
  let va : Word := (BitVec.ofNat 48 genaddr).signExtend 64
  match s.xlate core asid false false { read := false, write := true } va 8 with
  | .ok (pa, key) => (s.writeEngine key pa ((leBytes 8 v).map (fun b => (b, 0)))).touchPage core asid true va
  | .error (.bad cls code _) => s.logErr { unitErr cls code 5 core 8 0 asid with addr := some (genaddr, false) }
  | .error _ => s

/-- PBDEF at its release (R320, R425 codes 0x01 and 0x06): it waits at the head while the page of its generation word is not
there, or while the L2 TLB has stopped (R396). The walker sets A in the pages of both runs (R112). -/
def State.pbdef (s : State) (x : Ctx) (d : Vec) : State :=
  let k := fieldN d 0 8
  let n := fieldN d 8 24
  let asid := (s.core x.core).asid
  if zeroF d 223 289 = false ∨ n = 0 ∨ zeroF d 32 16 = false ∨ zeroF d 80 16 = false then s.pbReport x d 1
  else match k, s.runBase x (va48 d 32) n, s.runBase x (va48 d 80) n with
    | 0, _, _ => s.pbReport x d 6
    | _, some b0, some b1 =>
      match s.genAbsent (clusterOf x.core) x.core asid (fieldN d 128 48) with
      | some (va, l) => s.park (clusterOf x.core) (.source asid va (.define 2 d x) x.core) l
      | none =>
        let p : PubBuf := { sel := false, npages := n, gen := 0, base0 := b0, base1 := b1, genaddr := fieldN d 128 48 }
        ((((s.touchRun x (va48 d 32) n).touchRun x (va48 d 80) n).setPub asid k id p).genStore x.core asid (fieldN d 128 48) 0).pbReport x d 0
    | _, _, _ => s.pbReport x d 6

/-- A PUBL of a buffer is in progress. -/
def State.publBusy (s : State) (asid k : Nat) : Bool := s.dies.any (fun d => d.2.publs.any (fun p => p.asid == asid && p.k == k))

/-- Steps 2 to 4 of a PUBL: the odd generation, the swap in every walker copy, and the accesses that it waits for (R141). -/
def State.swapPubl (s : State) (j : PublJob) (p : PubBuf) : State :=
  let waits := s.net.filterMap (fun q => match q.msg with
    | .access r => if r.pb = j.k ∧ r.asid = j.asid then some r.id else none
    | _ => none)
  let s1 := s.genStore j.ctx.core j.asid p.genaddr (p.gen + 1).toNat
  (s1.setPub j.asid j.k (fun p => { p with gen := p.gen + 1, sel := !p.sel }) p).modDie (dieOf j.ctx.core) (fun d =>
    { d with publs := d.publs ++ [{ j with waits := waits }] })

/-! ## Results (R306, R310, R313) -/

/-- A page of a result is not present, or a request for it is parked in the cluster that writes it. -/
def State.pageAbsent (s : State) (cluster core asid : Nat) (e : Word × Nat) : Option (Word × Nat) :=
  if (s.cluster cluster).holdsPage (asid, vpageOf e.1) then some (e.1, s.levelOf core asid e.1)
  else match s.xlate core asid false true { read := false, write := true } e.1 e.2 with
    | .error (.park v l) => some (v, l)
    | _ => none

/-- The generation word's page of a buffer, where a PUBL has to wait for it. -/
def State.genWait (s : State) (cluster core asid k : Nat) : List (Word × Nat) :=
  match (s.die (dieOf core)).pub asid k with
  | some p => (s.genAbsent cluster core asid p.genaddr).toList
  | none => []

/-- Where an engine's result goes: pages and the generation word's page for which it has to wait. -/
def State.resultAbsent (s : State) (cluster core asid k : Nat) (va : Word) (n : Nat) : List (Word × Nat) :=
  (pageSpans va n).filterMap (s.pageAbsent cluster core asid) ++ s.genWait cluster core asid k

/-- A result waits: the home's L2 TLB accepts no request (R396), a PUBL of its buffer is in progress, or one holds writes to a page of it
(R141). -/
def State.resultHeld (s : State) (cluster core asid k : Nat) (va : Word) (n : Nat) : Bool :=
  (s.cluster cluster).stop || s.publBusy asid k || (pageSpans va n).any (fun e => s.publHolds (dieOf core) asid e.1)

/-- The pages that a result or a PUBL waits for park in the cluster that writes it, once each (R313, R393). -/
def State.parkResult (s : State) (cluster core asid : Nat) (who : Option Collective) (l : List (Word × Nat)) : State :=
  l.foldl (fun t e =>
    let x : XReq := .wait asid e.1 core who
    if (t.cluster cluster).stop || (t.cluster cluster).parked.contains x then t else t.park cluster x e.2) s

/-- A result is written to the back copy; a part that is refused is left out, with one record (R116, R313). -/
def State.writeResult (s : State) (cluster core asid : Nat) (va : Word) (bs : List Byte) : State :=
  let go := (pageSpans va bs.length).foldl (fun (e : State × Nat × Bool) sp =>
    let part := (bs.drop e.2.1).take sp.2
    match e.1.xlate core asid false true { read := false, write := true } sp.1 sp.2 with
    | .ok (pa, key) => ((e.1.writeEngine key pa (part.map (fun b => (b, 0)))).touchPage core asid true sp.1, e.2.1 + sp.2, e.2.2)
    | .error (.bad cls code v) =>
      (if e.2.2 then e.1 else e.1.logErr { unitErr cls code 5 (coreAt cluster 0) 4 0 asid with addr := some (v.toNat % 2 ^ 48, false) },
        e.2.1 + sp.2, true)
    | .error _ => (e.1, e.2.1 + sp.2, e.2.2)) (s, 0, false)
  go.1

/-- A PUBL for a hoop or reduction begins; with no valid entry nothing is published (R141, R321). -/
def State.publResult (s : State) (who : Collective) (x : Ctx) (asid k scope : Nat) : Option State :=
  match (s.die (dieOf x.core)).pub asid k with
  | none => none
  | some p => some (s.swapPubl { asid := asid, k := k, scope := if scope = 3 then .pkg else .sys, op := 0, ctx := x,
                                 who := some who, waits := [], purged := false } p)

/-- The rounded elements of a result and the OR of their flags. -/
def roundAll (acc : List LongAcc) (rm : Rnd) : List (BitVec 32) × Byte :=
  let es := acc.map (fun a => a.round rm)
  (es.map (·.1), es.foldl (fun b e => b ||| e.2) 0)

/-! ## Contributions (R305, R311, R392 to R394, R426) -/

/-- A contribution as its core sends it. -/
def State.newChunk (s : State) (h : Held) (d : Vec) (member : Nat) : Chunk :=
  { ref := fieldN d 0 32, member := member, index := 0, use := 0, elems := [], forms := [], sum := 0, count := 1, alt := false, again := false,
    desc := d, ctx := h.ctx, pc := h.pc, dev := s.device, len := 0 }

/-- A held contribution raises its frame's ncpy (R302). -/
def State.raiseCopy (s : State) (x : Ctx) : State :=
  if s.sameFrame x then s.modFrame x.core x.frame (fun f => { f with ncpy := f.ncpy + 1 }) else s

/-- The home of a reference as a packet of a core names it: a reference that names no router meets the core's own (R426). -/
def State.homeAgent (s : State) (core ref : Nat) : Agent :=
  if refSound ref = false then .router (clusterOf core)
  else if refDev ref = s.device then .router (refCluster ref)
  else .device (refDev ref) 0

/-- A chunk of a hoop's contribution, with the checksum of its elements at shift 0 (R171), travels to the home; a chunk of a reduction, in
long-partial form, to its member's own router (R306, R311). -/
def State.putRead (s : State) (m : Msg) (es : List (BitVec 32)) : State :=
  let vs := es.map (fun e => longFix e 0)
  let go (c : Chunk) (dst : Agent) (m : Msg) : State :=
    s.send { src := .core c.ctx.core, dst := dst, cls := .collective, tenant := s.tenantOf c.ctx.core, msg := m, held := false }
  match m with
  | .hpput c => go c (s.homeAgent c.ctx.core c.ref) (.hpput { c with elems := es, sum := checksum vs })
  | .redChunk c => go c (.router (clusterOf c.ctx.core)) (.redChunk { c with forms := vs.map LongAcc.form, sum := checksum vs })
  | _ => s

/-- n elements of a contribution's source are read (R392 to R394). -/
def State.readPut (s : State) (m : Msg) (c : Chunk) (va : Word) (n : Nat) : State :=
  let core := c.ctx.core
  let asid := (s.core core).asid
  match s.rangeHeld core asid va (4 * n), s.readEngine core asid false va (4 * n) with
  | some v, _ => s.park (clusterOf core) (.source asid v m core) (s.levelOf core asid v)
  | none, .ok bs => (s.touchRange core asid va (4 * n)).putRead m (elemsOf bs)
  | none, .error (.park v l) => s.park (clusterOf core) (.source asid v m core) l
  | none, .error (.host _ _) => s
  | none, .error (.bad cls code v) =>
    let s1 := if cls = 0x06 ∧ code = 0x05 then s.dropReport core asid (.core core) (s.pagePa core asid v) else s
    (s1.refuseAct c.ctx c.pc cls code (some (v.toNat % 2 ^ 48, false))).failSource m

end Sys2Proof.Machine
end

