-- ==== Sys2Proof/Machine/Hoop.lean ====
section
/-! DEFINITION. Hoops: definition, contributions chunk by chunk, decisions, rounds and waits (R309 to R315, R322, R421, R424, R426). -/

namespace Sys2Proof.Machine

/-! ## Definition (R309, R425) -/

/-- The fields of HPDEF are legal (R309, R425 code 0x01). -/
def hpdefOk (d : Vec) : Bool :=
  zeroF d 22 10 && decide (fieldN d 0 2 ≤ 1) && zeroF d 303 209 &&
    (if bitN d 112 then zeroF d 32 80 && zeroF d 113 143
     else zeroF d 56 8 && zeroF d 115 13 && zeroF d 179 13 && zeroF d 240 16 && decide (fieldN d 44 12 ≤ fieldN d 32 12)
       && rmOk (fieldN d 73 3) && fieldN d 88 8 != 0 && (fieldN d 176 3 == 3 || fieldN d 176 3 == 4) && zeroF d 128 6)

/-- The lags of a table of bytes, two bits for each member (R309). -/
def lagsOf (bs : List Byte) : Tab Nat := (List.range 4096).map (fun m => (m, fieldN (bs.getD (m / 4) 0) (2 * (m % 4)) 2))

/-- A wait word and its arrival, at the device of the wait (R314). -/
def State.hpWord (s : State) (ref : Nat) (w : Vec × Ctx × Nat) (rho outcome : Nat) : State :=
  s.reportAt (.router (refCluster ref)) w.2.2 w.2.1.tenant (BitVec.ofNat 32 (fieldN w.1 64 32)) (fieldN w.1 96 6) (fieldN w.1 102 9)
    (BitVec.ofNat 64 (fieldN w.1 32 16 + rho * 2 ^ 16 + outcome * 2 ^ 32))

/-- A hoop takes its ways at its home slice, which gives up the lines that no longer fit (R107, R309); it is not in force yet. -/
def State.addHoop (s : State) (x : Ctx) (d : Vec) : State :=
  let ref := fieldN d 0 32
  let cl := refCluster ref
  let h : Hoop := { desc := d, ctx := x, phase := .opened, ready := false, force := false, rho := fieldN d 96 16, acc := [], ontime := [],
                    late := [], weight := 0, tags := [], senders := [], lags := [], cur := none, waits := [] }
  (s.modDie (refDie ref) (fun k =>
    { k with hoops := tabSet k.hoops (refKey ref) h,
             hoopWays := tabSet k.hoopWays cl (tabGet 0 k.hoopWays cl + hoopWaysOf (hpLen d)) })).trimSlice cl

/-- The lag table of a hoop that has its ways is read, and the hoop is in force; a page that is not present parks the definition, and a
read that is refused or meets poison refuses it (R309, R425 code 0x09). -/
def State.readLags (s : State) (x : Ctx) (d : Vec) : State :=
  let va := va48 d 192
  let asid := (s.core x.core).asid
  let begin_ (t : State) (lags : Tab Nat) : State :=
    (t.modHoop (fieldN d 0 32) (fun h => { h with ready := true, lags := lags })).hpReport x d 0
  if fieldN d 192 48 = 0 then begin_ s []
  else match s.rangeHeld x.core asid va 1024, s.readEngine x.core asid false va 1024 with
    | some v, _ => s.park (clusterOf x.core) (.source asid v (.define 0 d x) x.core) (s.levelOf x.core asid v)
    | none, .ok bs =>
      let s1 := s.touchRange x.core asid va 1024
      if bs.any (fun b => isPoison b.2) then s1.failLags x d (hoopWaysOf (hpLen d)) else begin_ s1 (lagsOf (bs.map (·.1)))
    | none, .error (.park v l) => s.park (clusterOf x.core) (.source asid v (.define 0 d x) x.core) l
    | none, .error _ => s.failLags x d (hoopWaysOf (hpLen d))

/-- The hoop is released with its ways; its waits end with outcome 7, and the contribution that it is adding with status 6 (R309,
R426). -/
def State.freeHoop (s : State) (ref : Nat) (h : Hoop) : State :=
  let s1 := h.waits.foldl (fun t w => t.hpWord ref w h.rho 7) (s.dropHoop ref (hoopWaysOf (hpLen h.desc)))
  match h.cur with
  | none => s1
  | some p => s1.hpStatus (.router (refCluster ref)) p.chunk 6 h.rho

/-- HPDEF at its release (R309, R425). -/
def State.hpdef (s : State) (x : Ctx) (d0 : Vec) : State :=
  let d := if bitN d0 112 then d0 else s.resolveRm x d0 73
  let ref := fieldN d 0 32
  let cl := refCluster ref
  let taken := fieldN (s.cluster cl).health 28 4 + tabGet 0 (s.die (refDie ref)).hoopWays cl
  if hpdefOk d = false then s.hpReport x d 1
  else if s.refOk x ref = false then s.hpReport x d 2
  else match s.hoopHeld ref with
    | some h => if bitN d 112 && h.ready then (s.freeHoop ref h).hpReport x d 0 else s.hpReport x d 3
    | none =>
      if bitN d 112 then s.hpReport x d 3
      else if sliceWays < taken + hoopWaysOf (hpLen d) + 4 then s.hpReport x d 4
      else (s.addHoop x d).readLags x d

/-! ## Rounds (R310, R313, R315, R322) -/

/-- The job of a hoop runs in determinism mode (R322). -/
def State.hoopDet (s : State) (h : Hoop) : Bool := (s.core h.ctx.core).detmode

/-- On-time contributions that close a round. -/
def State.hoopQuorum (s : State) (h : Hoop) : Nat := (if s.hoopDet h then fieldN h.desc 32 12 else fieldN h.desc 44 12) + 1

/-- Lag limit of a member. -/
def State.hoopLag (s : State) (h : Hoop) (m : Nat) : Nat :=
  if s.hoopDet h then 0 else if fieldN h.desc 192 48 = 0 then fieldN h.desc 113 2 else tabGet 0 h.lags m

/-- Bytes of a member mask; a member stands in it once. -/
def maskBytes (l : List Nat) : List Byte :=
  leBytes 512 (l.eraseDups.foldl (fun n m => n + 2 ^ m) 0)

/-- The result record of a round (R310). -/
def Hoop.record (h : Hoop) : List Byte :=
  let (es, fl) := roundAll ((List.range (hpLen h.desc)).map (tabGet LongAcc.zero h.acc)) (rndOfCode (fieldN h.desc 73 3))
  leBytes 4 h.rho ++ leBytes 2 h.ontime.length ++ leBytes 2 h.late.length ++ leBytes 4 (256 * h.ontime.length + h.weight)
    ++ [(fl &&& 0x1F) ||| flIf (!h.late.isEmpty) flLATE] ++ List.replicate 51 0 ++ maskBytes h.ontime ++ maskBytes h.late
    ++ es.flatMap (fun e => leBytes 4 e.toNat)

/-- The round has been published: the waits for it, then the next round (R313). -/
def State.finishHoop (s : State) (ref : Nat) : State :=
  match s.hoopAt ref with
  | none => s
  | some h =>
    let mine (w : Vec × Ctx × Nat) : Bool := fieldN w.1 32 16 == h.rho
    ((h.waits.filter mine).foldl (fun t w => t.hpWord ref w h.rho 0) s).modHoop ref (fun h =>
      { h with phase := .opened, force := false, rho := (h.rho + 1) % 65536, acc := [], ontime := [], late := [], weight := 0,
               waits := h.waits.filter (fun w => !mine w) })

/-- A closing round goes on as far as it can: the result record, then its PUBL, once no other PUBL of the buffer is in progress and the
home's L2 TLB takes its writes (R141, R313, R315, R396). -/
def State.closeHoop (s : State) (ref : Nat) : State :=
  match s.hoopAt ref with
  | none => s
  | some h =>
    let core := h.ctx.core
    let asid := (s.core core).asid
    let k := fieldN h.desc 88 8
    let va := va48 h.desc 128
    let bs := h.record
    let absent := if h.force then [] else s.resultAbsent (refCluster ref) core asid k va bs.length
    if h.phase ≠ .closing ∨ s.resultHeld (refCluster ref) core asid k va bs.length then s
    else if !absent.isEmpty then s.parkResult (refCluster ref) core asid (some (.hoop ref)) absent
    else
      let s1 := s.writeResult (refCluster ref) core asid va bs
      match s1.publResult (.hoop ref) h.ctx asid k (fieldN h.desc 176 3) with
      | none => s1.finishHoop ref
      | some s2 => s2.modHoop ref (fun h => { h with phase := .publishing })

/-! ## Waits (R314, R426) -/

/-- A wait at its hoop's home. -/
def State.holdWait (s : State) (w : Vec × Ctx × Nat) : State :=
  let ref := fieldN w.1 0 32
  match s.hoopAt ref with
  | none => s.drawn.hpWord ref w s.freeTag 7
  | some h =>
    let delta := (h.rho + 65536 - fieldN w.1 32 16) % 65536
    if 1 ≤ delta ∧ delta ≤ 32767 then s.hpWord ref w h.rho 0
    else if 64 ≤ h.waits.length then s.hpWord ref w h.rho 5
    else s.modHoop ref (fun h => { h with waits := h.waits ++ [w] })

/-! ## Contributions (R311, R312, R421, R424, R426) -/

/-- A router asks for a chunk again: it comes once more behind what its sender has sent (R421). -/
def State.askAgain (s : State) (k : Nat) (m : Msg) : State :=
  match s.pkt k with
  | none => s
  | some p => (s.dropPkt k).send { p with msg := m }

/-- A chunk's checksum does not match for the second time: the sending router's reduction unit is retired, one of this device, and recorded
(R364, R421). -/
def State.badChunk (s : State) (home : Nat) (src : Option Nat) : State :=
  (src.elim s (fun r => s.retireBit r 20)).logErr { unitErr 0x10 0x01 4 (coreAt home 0) 4 0 0 with retry := 2 }

/-- Elements of a chunk added under a shift (R312). -/
def addElems (acc : Tab LongAcc) (start sh : Nat) (es : List (BitVec 32)) : Tab LongAcc :=
  es.zipIdx.foldl (fun t e => tabSet t (start + e.2) ((tabGet LongAcc.zero t (start + e.2)).add (longFix e.1 sh))) acc

/-- Weight shift of a lag (R312). -/
def Hoop.shift (h : Hoop) (d : Nat) : Nat := if d = 0 then 0 else fieldN h.desc (64 + 3 * (d - 1)) 3

/-- The router that has read a contribution's chunks, when it is one of this device. -/
def State.sendingRouter (s : State) (c : Chunk) : Option Nat := if c.dev = s.device then some (clusterOf c.ctx.core) else none

/-- A home has added a contribution whole: its tag and sender, its mask and its status, and the close of its round (R312). -/
def State.acceptPut (s : State) (h : Hoop) (p : HoopPut) : State :=
  let c := p.chunk
  let h1 : Hoop := { h with tags := tabSet h.tags c.member (fieldN c.desc 44 16),
                            senders := tabSet h.senders c.member (c.dev, c.ctx.core), acc := p.acc, cur := none }
  let h2 : Hoop := if p.lag = 0 then { h1 with ontime := h1.ontime ++ [c.member] }
    else { h1 with late := h1.late ++ [c.member], weight := h1.weight + 2 ^ (8 - h.shift p.lag) }
  let full := s.hoopQuorum h ≤ h2.ontime.length
  let h3 : Hoop := if full then { h2 with phase := .closing } else h2
  let s1 := (s.modHoop c.ref (fun _ => h3)).hpStatus (.router (refCluster c.ref)) c (if p.lag = 0 then 0 else 1) h.rho
  if full then s1.closeHoop c.ref else s1

/-- A verified chunk of a contribution of a lag is added to its accumulators; after the last one the contribution is accepted, before it
the next chunk is asked for (R311, R424). -/
def State.addChunk (s : State) (h : Hoop) (c : Chunk) (lag : Nat) (acc : Tab LongAcc) : State :=
  let p : HoopPut := { chunk := c, lag := lag,
                       acc := addElems acc (64 * c.index) (h.shift lag) (c.elems.take (hpLen h.desc - 64 * c.index)) }
  if hpLen h.desc ≤ 64 * (c.index + 1) then s.acceptPut h p
  else (s.modHoop c.ref (fun h => { h with cur := some p })).send
    { src := .router (refCluster c.ref), dst := if c.dev = s.device then .router (clusterOf c.ctx.core) else .device c.dev 0,
      cls := .collective, tenant := c.ctx.tenant, msg := .hpNext { c with elems := [], again := false }, held := false }

/-- A chunk after the first belongs to the contribution that its home is adding. -/
def Hoop.expects (h : Hoop) (c : Chunk) : Option HoopPut :=
  h.cur.filter (fun p => p.chunk.member == c.member && p.chunk.desc == c.desc && p.chunk.ctx == c.ctx && p.chunk.dev == c.dev
    && p.chunk.index + 1 == c.index)

/-- Elements of a chunk of a contribution: of a hoop of another device a free number of elements decides, and 64 of one that is not defined
(R311, R426; log 62). -/
def State.hpChunk (s : State) (c : Chunk) : Nat :=
  match s.hoopAt c.ref with
  | some h => min 64 (hpLen h.desc - 64 * c.index)
  | none => if c.len = 0 then 64 else min 64 (c.len - 64 * c.index)

/-- Elements of a hoop that a reference names on another device (R311; log 62). -/
def State.awayLen (s : State) (ref : Nat) : Nat :=
  if refSound ref && refDev ref != s.device then Config.hoopLen s.fresh % 4096 + 1 else 0

/-- A chunk of a contribution to a hoop is read. -/
def State.readHoopPut (s : State) (c : Chunk) : State :=
  s.readPut (.hpput c) c (va48 c.desc 64 + BitVec.ofNat 64 (256 * c.index)) (s.hpChunk c)

/-- HOOP_DECISION: the home decides one contribution, while its round is OPEN and no other is being added (R312, R426); adds a further
chunk of one (R424); a member's router reads the next chunk for its home (R311); or the home takes a wait that has come to it (R314). A chunk
whose checksum does not match comes once more, and the second time ends its contribution (R421, R424). -/
def hoopDecision (k : Nat) (s : State) : State :=
  match s.recv k with
  | some { msg := .hpput c, dst := .router cl, .. } =>
    let end_ (status rho : Nat) : State := (s.dropPkt k).hpStatus (.router cl) c status rho
    let good := c.sum == checksum (c.elems.map (fun e => longFix e 0))
    match s.hoopAt c.ref with
    | none => if c.index = 0 then (s.dropPkt k).drawn.hpStatus (.router cl) c 6 s.freeTag else s.dropPkt k
    | some h =>
      let t := fieldN c.desc 44 16
      let delta := (t + 65536 - h.rho) % 65536
      let d := if delta = 0 then 0 else 65536 - delta
      if c.index ≠ 0 then
        (match h.expects c with
         | none => s.dropPkt k
         | some p =>
           if good then (s.dropPkt k).addChunk h c p.lag p.acc
           else if !c.again then s.askAgain k (.hpput { c with again := true })
           else (((s.dropPkt k).modHoop c.ref (fun h => { h with cur := none })).badChunk cl (s.sendingRouter c)).hpStatus (.router cl) c 5 h.rho)
      else if fieldN h.desc 32 12 < c.member then end_ 6 h.rho
      else if h.phase ≠ .opened ∨ h.cur.isSome = true then s
      else if delta ≠ 0 ∧ delta ≤ 32767 then end_ 3 h.rho
      else if s.hoopLag h c.member < d then end_ 2 h.rho
      else if (tabFind h.tags c.member).any (fun u => decide ((u + 65536 - t) % 65536 < 32768)) then end_ 4 h.rho
      else if good then (s.dropPkt k).addChunk h c d h.acc
      else if !c.again then s.askAgain k (.hpput { c with again := true })
      else ((s.dropPkt k).badChunk cl (s.sendingRouter c)).hpStatus (.router cl) c 5 h.rho
  | some { msg := .hpNext c, dst := .router cl, .. } =>
    if (s.cluster cl).stop then s else (s.dropPkt k).readHoopPut { c with index := c.index + 1 }
  | some { msg := .hpwait d x dev, .. } => (s.dropPkt k).holdWait (d, x, dev)
  | _ => s

/-- HOOP_DECISION. -/
def execHoopDecision (pkt : Nat) : State → Host.Outcome State Fault Refusal := eventOf (hoopDecision pkt)

/-- HPPUT at its release: its first chunk is read (R311, R426). -/
def State.hpput (s : State) (h : Held) (d : Vec) : State :=
  let ref := fieldN d 0 32
  let c : Chunk := { s.newChunk h d (fieldN d 32 12) with len := s.awayLen ref }
  let s1 := if c.len = 0 then s.raiseCopy h.ctx else (s.raiseCopy h.ctx).drawn
  if refSound ref = false ∨ zeroF d 60 4 = false ∨ zeroF d 112 16 = false ∨ zeroF d 175 337 = false ∨ zeroF d 64 2 = false then
    s1.drawn.hpStatus (.router (clusterOf h.ctx.core)) c 6 (s.rhoOf c.ref)
  else s1.readHoopPut c

/-- HPWAIT at its release: the wait for a hoop of another device, or outside the job's region, travels to its home (R418, R441). -/
def State.hpwait (s : State) (x : Ctx) (d : Vec) : State :=
  let ref := fieldN d 0 32
  if refSound ref = true ∧ s.refOk x ref = false then
    s.send { src := .core x.core, dst := s.homeAgent x.core ref, cls := .collective, tenant := s.tenantOf x.core,
             msg := .hpwait d x s.device, held := false }
  else s.holdWait (d, x, s.device)

end Sys2Proof.Machine
end

