-- ==== Sys2Proof/Machine/Reduce.lean ====
section
/-! DEFINITION. Reductions: the trees of a definition (R304, R308), the reduction units that combine chunks (R305, R306, R421, R422), the
root's result (R306, R307), the end of a use (R307, R423), and the loss of a link (R308, R322, R413, R414). -/

namespace Sys2Proof.Machine

/-! ## Fields (R304, R425) -/

/-- Elements of a reduction. -/
def redLen (d : Vec) : Nat := fieldN d 88 20 + 1
/-- Chunks of a reduction. -/
def redChunks (d : Vec) : Nat := (redLen d + 63) / 64

/-- The fields of REDDEF are legal (R304, R425 code 0x01). -/
def reddefOk (d : Vec) : Bool :=
  zeroF d 22 10 && zeroF d 239 273 &&
    (if bitN d 111 then zeroF d 32 79 && zeroF d 112 80
     else zeroF d 60 4 && zeroF d 84 4 && zeroF d 120 8 && zeroF d 179 13 && decide (fieldN d 32 6 < 48)
       && decide (fieldN d 38 4 < 10) && decide (fieldN d 42 6 < 48) && decide (fieldN d 48 4 < 10) && rmOk (fieldN d 108 3)
       && fieldN d 112 8 != 0 && (fieldN d 176 3 == 3 || fieldN d 176 3 == 4) && zeroF d 128 2)

/-- The device box lies on the torus. -/
def State.boxOk (s : State) (d : Vec) : Bool :=
  decide (fieldN d 64 4 < s.dx) && decide (fieldN d 74 4 < s.dx) && decide (fieldN d 68 3 < s.dy) && decide (fieldN d 78 3 < s.dy)
    && decide (fieldN d 71 3 < s.dz) && decide (fieldN d 81 3 < s.dz)

/-- Devices of the box (R304). -/
def State.boxDevices (s : State) (d : Vec) : List Nat :=
  (List.range (fieldN d 74 4 + 1)).flatMap (fun i => (List.range (fieldN d 78 3 + 1)).flatMap (fun j =>
    (List.range (fieldN d 81 3 + 1)).map (fun k =>
      (fieldN d 64 4 + i) % s.dx + (fieldN d 68 3 + j) % s.dy * 16 + (fieldN d 71 3 + k) % s.dz * 128)))

/-- The other devices of the box. -/
def State.otherDevices (s : State) (d : Vec) : List Nat := (s.boxDevices d).filter (fun v => v != s.device)

/-- The working clusters of the cluster box on this package (R5, R304). -/
def State.boxClusters (s : State) (d : Vec) : List Nat :=
  ((List.range (fieldN d 42 6 + 1)).flatMap (fun i => (List.range (fieldN d 48 4 + 1)).map (fun j =>
    clusterXY ((fieldN d 32 6 + i) % 48) ((fieldN d 38 4 + j) % 10)))).filter (fun c => !s.fusedOff c)

/-- The members of a reduction in a cluster. -/
def membersOf (d : Vec) (cluster : Nat) : List Nat := ((List.range 8).filter (fun q => bitN d (52 + q))).map (coreAt cluster)

/-- The members of a reduction on this device, by cluster (R304). -/
def State.redMembers (s : State) (d : Vec) : List (Nat × List Nat) :=
  if (s.boxDevices d).contains s.device then
    ((s.boxClusters d).map (fun c => (c, membersOf d c))).filter (fun e => !e.2.isEmpty)
  else []

/-- The report of REDDEF (R303, R304). -/
def State.redReport (s : State) (x : Ctx) (d : Vec) (code members : Nat) : State :=
  s.defReport (.router (refCluster (fieldN d 0 32))) x.tenant code members (BitVec.ofNat 32 (fieldN d 192 32)) (fieldN d 224 6)
    (fieldN d 230 9)

/-! ## Trees (R304, R308) -/

/-- The reduction unit of a router for a reduction. -/
def State.unitAt (s : State) (cluster ref : Nat) : Option RedUnit := tabFind (s.cluster cluster).reds ref

/-- The unit of a router changed. -/
def State.modUnit (s : State) (cluster ref : Nat) (f : RedUnit → RedUnit) : State :=
  s.modCluster cluster (fun k => { k with reds := k.reds.map (fun e => if e.1 = ref then (ref, f e.2) else e) })

/-- Every unit of a reduction on this device changed. -/
def State.modUnits (s : State) (ref : Nat) (f : RedUnit → RedUnit) : State :=
  s.clusters.foldl (fun t k => if (tabFind k.2.reds ref).isSome then t.modUnit k.1 ref f else t) s

/-- The units of a reduction on this device are gone. -/
def State.dropUnits (s : State) (ref : Nat) : State :=
  s.clusters.foldl (fun t k => if (tabFind k.2.reds ref).isSome then
    t.modCluster k.1 (fun k => { k with reds := tabDel k.reds ref }) else t) s

/-- A router that no branch has reached yet. -/
def RedTree.bare : RedTree := { parent := none, kids := [], need := 0 }

/-- A unit of a new reduction. -/
def newUnit (d : Vec) (x : Ctx) (det : Bool) : RedUnit :=
  { desc := d, ctx := x, det := det, members := [], tree := .bare, alt := .bare, cut := none, cutoff := false, use := 0, sent := [], redo := [],
    puts := [], lost := [], parts := [] }

/-- One of the two trees of a unit changed. -/
def RedUnit.onTree (u : RedUnit) (alt : Bool) (f : RedTree → RedTree) : RedUnit :=
  if alt then { u with alt := f u.alt } else { u with tree := f u.tree }

/-- A branch of n members reaches a router: its next one, or what lies beyond its end, is the parent, and the one before it a child. -/
def RedTree.grow (t : RedTree) (below up : Option Nat) (out : Option Agent) (n : Nat) : RedTree :=
  { parent := (up.map Agent.router).or out, kids := (t.kids ++ below.toList).eraseDups, need := t.need + n }

/-- A unit that a branch of its reduction reaches; the router's first branch makes it. -/
def Cluster.growUnit (k : Cluster) (new : RedUnit) (f : RedUnit → RedUnit) : Cluster :=
  { k with reds := tabSet k.reds (fieldN new.desc 0 32) (f (tabGet new k.reds (fieldN new.desc 0 32))) }

/-- A branch of n members joins a tree; `out` is the parent of its last router. -/
def State.graft (s : State) (new : RedUnit) (alt : Bool) (out : Option Agent) (n : Nat) : Option Nat → List Nat → State
  | _, [] => s
  | below, r :: t =>
    (s.modCluster r (fun k => k.growUnit new (fun u => u.onTree alt (fun b => b.grow below t.head? out n)))).graft new alt out n (some r) t

/-- The router where a branch of this device ends: the root, or the gateway by which its partials leave (R295, R304). -/
def State.branchEnd (s : State) (alt : Bool) (ref cluster : Nat) : Option Nat :=
  if refDev ref = s.device then some (refCluster ref)
  else (s.leavingLink alt (refDev ref)).map (gatewayOf (cluster / 120))

/-- The branch of a router. -/
def State.branch (s : State) (alt : Bool) (tenant ref cluster : Nat) : Option (List Nat) :=
  (s.branchEnd alt ref cluster).bind (fun b => s.routerChain alt tenant b 64 cluster)

/-- Where the partials of another device enter this one, of the root (R295). -/
def State.entryGate (s : State) (alt : Bool) (ref dev : Nat) : Nat := gatewayOf (refDie ref) (s.entryLink alt dev)

/-- n members behind a router join both trees; where no alternative route lives, the alternative tree takes the first one's branch. -/
def State.joinTrees (s : State) (new : RedUnit) (a b n : Nat) : Option State :=
  let ref := fieldN new.desc 0 32
  let out : Option Agent := if refDev ref = s.device then none else some (.device (refDev ref) 0)
  match s.branch false new.ctx.tenant ref a with
  | none => none
  | some l => some ((s.graft new false out n none l).graft new true out n none ((s.branch true new.ctx.tenant ref b).getD l))

/-- The members of a cluster join the trees (R304). -/
def State.joinCluster (s : State) (new : RedUnit) (e : Nat × List Nat) : Option State :=
  (s.joinTrees new e.1 e.1 e.2.length).map (fun t => t.modUnit e.1 (fieldN new.desc 0 32) (fun u => { u with members := e.2 }))

/-- The reduction units of this device are configured; none where some member finds no route (R304, R425 code 0x07). -/
def State.configTree (s : State) (new : RedUnit) : Option State :=
  (s.redMembers new.desc).foldl (fun t e => t.bind (fun t => t.joinCluster new e)) (some s)

/-- A packet of a reduction for other devices. -/
def State.tellDevices (s : State) (from_ tenant : Nat) (devs : List Nat) (m : Msg) : State :=
  devs.foldl (fun t v => t.send { src := .router from_, dst := .device v 0, cls := .collective, tenant := tenant, msg := m, held := false }) s

/-- A reduction leaves its root and every router of its trees. -/
def State.dropRed (s : State) (ref : Nat) (r : Reduction) : State :=
  ((s.modDie (refDie ref) (fun k => { k with reds := tabDel k.reds (refKey ref) })).dropUnits ref).tellDevices (refCluster ref) r.ctx.tenant
    (s.otherDevices r.desc) (.redTree (setFieldN r.desc 111 1 1) r.ctx false)

/-- REDDEF at its release (R304, R425): the report follows once every router of the tree is configured, on the other devices too. -/
def State.reddef (s : State) (x : Ctx) (d0 : Vec) : State :=
  let d := if bitN d0 111 then d0 else s.resolveRm x d0 108
  let ref := fieldN d 0 32
  let n := ((s.redMembers d).map (fun e => e.2.length)).sum
  let det := (s.core x.core).detmode
  if reddefOk d = false then s.redReport x d 1 0
  else if s.refOk x ref = false then s.redReport x d 2 0
  else match s.redAt ref with
    | some r => if bitN d 111 then (s.dropRed ref r).redReport x d 0 0 else s.redReport x d 3 0
    | none =>
      if bitN d 111 then s.redReport x d 3 0
      else if s.boxOk d = false ∨ 2 ^ 30 < n then s.redReport x d 5 0
      else if (s.otherDevices d).all (fun v => (s.branch false x.tenant ref (s.entryGate false ref v)).isSome) = false then s.redReport x d 7 0
      else match s.configTree (newUnit d x det) with
        | none => s.redReport x d 7 0
        | some s1 =>
          let r : Reduction := { desc := d, ctx := x, phase := .opened, force := false, members := n, waitDev := s.otherDevices d, sums := [],
                                 written := [], flags := 0, use := 0 }
          let s2 := (s1.modDie (refDie ref) (fun k => { k with reds := tabSet k.reds (refKey ref) r })).tellDevices (refCluster ref) x.tenant
            (s.otherDevices d) (.redTree d x det)
          if r.waitDev.isEmpty then s2.redReport x d 0 n else s2

/-- A device of the box answers with its members, or that some of them find no route: the last answer brings the report (R304, R425). -/
def State.redReady (s : State) (ref dev n : Nat) (ok : Bool) : State :=
  match s.redAt ref with
  | none => s
  | some r =>
    if r.waitDev.contains dev = false then s
    else match (if ok then s.joinTrees (newUnit r.desc r.ctx false) (s.entryGate false ref dev) (s.entryGate true ref dev) n else none) with
      | none => (s.dropRed ref r).redReport r.ctx r.desc 7 0
      | some s1 =>
        let left := r.waitDev.filter (fun v => v != dev)
        if 2 ^ 30 < r.members + n then (s.dropRed ref r).redReport r.ctx r.desc 5 0
        else
          let s2 := s1.modRed ref (fun r => { r with members := r.members + n, waitDev := left })
          if left.isEmpty then s2.redReport r.ctx r.desc 0 (r.members + n) else s2

/-- This device's part of a reduction of another device is configured or ended (R304). -/
def State.redTree (s : State) (d : Vec) (x : Ctx) (det : Bool) : State :=
  let ref := fieldN d 0 32
  let answer (t : State) (n : Nat) (ok : Bool) : State :=
    t.send { src := .router 0, dst := .device (refDev ref) 0, cls := .collective, tenant := x.tenant, msg := .redReady ref n ok, held := false }
  if bitN d 111 then s.dropUnits ref
  else match s.configTree (newUnit d x det) with
    | none => answer s 0 false
    | some s1 => answer s1 ((s.redMembers d).map (fun e => e.2.length)).sum true

/-! ## The end of a use (R307, R423) -/

/-- The reduction runs in determinism mode (R308, R322): as its job does now, when it runs on this device. -/
def State.unitDet (s : State) (ref : Nat) (u : RedUnit) : Bool :=
  if refDev ref = s.device then (s.core u.ctx.core).detmode else u.det

/-- A use has ended at a unit: its contributions get their status words, and the next use begins. -/
def State.endUnit (s : State) (cluster ref use outcome flags : Nat) (u : RedUnit) : State :=
  ((u.puts.filter (fun p => p.use == use)).foldl (fun t p => t.redStatus (.router (refCluster ref)) p outcome flags use) s).modUnit cluster ref
    (fun u => { u with puts := u.puts.filter (fun p => p.use != use), parts := u.parts.filter (fun p => p.use != use), use := use + 1, redo := [],
                       lost := if outcome = 0 then u.lost else tabSet u.lost use outcome })

/-- A use has ended at every unit of this device. -/
def State.endUnits (s : State) (ref use outcome flags : Nat) : State :=
  s.clusters.foldl (fun t k => match tabFind k.2.reds ref with
    | none => t
    | some u => t.endUnit k.1 ref use outcome flags u) s

/-- A use of a reduction ends: every member that contributed gets its status word, and the use number advances (R307, R423). -/
def State.endUse (s : State) (ref outcome : Nat) : State :=
  match s.redAt ref with
  | none => s
  | some r =>
    let flags := if outcome = 0 then r.flags.toNat else 0
    ((s.endUnits ref r.use outcome flags).tellDevices (refCluster ref) r.ctx.tenant (s.otherDevices r.desc) (.redEnd ref r.use outcome flags)).modRed
      ref (fun r => { r with phase := .opened, force := false, sums := [], written := [], flags := 0, use := r.use + 1 })

/-- A use fails by a lasting checksum fault at a router of this device (R423). -/
def State.failUse (s : State) (router ref use : Nat) : State :=
  if refDev ref = s.device then (if (s.redAt ref).any (fun r => r.use == use) then s.endUse ref 1 else s)
  else s.tellDevices router 0 [refDev ref] (.redFail ref use)

/-! ## The result (R306, R307) -/

/-- One complete chunk is rounded and written to the back copy, which a PUBL of the buffer holds (R141, R306). -/
def State.writeChunk (s : State) (ref : Nat) (e : Nat × List LongAcc) : State :=
  match s.redAt ref with
  | none => s
  | some r =>
    let core := r.ctx.core
    let asid := (s.core core).asid
    let k := fieldN r.desc 112 8
    let (es, fl) := roundAll e.2 (rndOfCode (fieldN r.desc 108 3))
    let va := va48 r.desc 128 + BitVec.ofNat 64 (256 * e.1)
    let absent := if r.force then [] else s.resultAbsent (refCluster ref) core asid k va (4 * es.length)
    if r.written.contains e.1 ∨ r.phase ≠ .opened ∨ s.resultHeld (refCluster ref) core asid k va (4 * es.length) then s
    else if !absent.isEmpty then s.parkResult (refCluster ref) core asid (some (.reduction ref)) absent
    else (s.writeResult (refCluster ref) core asid va (es.flatMap (fun e => leBytes 4 e.toNat))).modRed ref (fun r =>
      { r with written := r.written ++ [e.1], flags := r.flags ||| (fl &&& 0x1F) })

/-- After its last chunk a use is published, once its generation word can be written (R306, R307, R396). -/
def State.publUse (s : State) (ref : Nat) : State :=
  match s.redAt ref with
  | none => s
  | some r =>
    let asid := (s.core r.ctx.core).asid
    let k := fieldN r.desc 112 8
    let absent := if r.force then [] else s.genWait (refCluster ref) r.ctx.core asid k
    if r.phase ≠ .opened ∨ r.written.length < redChunks r.desc ∨ s.publBusy asid k ∨ (s.cluster (refCluster ref)).stop then s
    else if !absent.isEmpty then s.parkResult (refCluster ref) r.ctx.core asid (some (.reduction ref)) absent
    else match s.publResult (.reduction ref) r.ctx asid k (fieldN r.desc 176 3) with
      | none => s.endUse ref 0
      | some s2 => s2.modRed ref (fun r => { r with phase := .publishing })

/-- A reduction goes on as far as it can. -/
def State.pushRed (s : State) (ref : Nat) : State :=
  match s.redAt ref with
  | none => s
  | some r => (r.sums.foldl (fun t e => t.writeChunk ref e) s).publUse ref

/-! ## Chunks (R305, R306, R421, R422) -/

/-- A chunk of a member's contribution is read at its router (R305, R306). -/
def State.readRedPut (s : State) (c : Chunk) : State :=
  s.readPut (.redChunk c) c (va48 c.desc 32 + BitVec.ofNat 64 (256 * c.index)) (min 64 (redLen
    (((s.unitAt (clusterOf c.ctx.core) c.ref).map (·.desc)).getD 0) - 64 * c.index))

/-- A member begins its contribution to its next use: the use number is that of its release (R305). One for a use that has failed ends with
that use's status (R423). -/
def State.beginPut (s : State) (u : RedUnit) (c0 : Chunk) : State :=
  let cl := clusterOf c0.ctx.core
  let use := tabGet 0 u.sent c0.member
  let c : Chunk := { c0 with use := use, index := tabGet 0 u.redo c0.member }
  let s1 := s.modUnit cl c.ref (fun u => { u with sent := tabSet u.sent c.member (use + 1), redo := tabDel u.redo c.member })
  if use < u.use then s1.redStatus (.router cl) c (tabGet 1 u.lost use) 0 use
  else (s1.modUnit cl c.ref (fun u => { u with puts := u.puts ++ [c] })).readRedPut c

/-- REDPUT at its release (R305). Where no unit knows the issuing core as a member, the contribution waits at its router (log 39). -/
def State.redput (s : State) (h : Held) (d : Vec) : State :=
  let c := s.newChunk h d h.ctx.core
  let s1 := s.raiseCopy h.ctx
  match (s.unitAt (clusterOf h.ctx.core) c.ref).filter (fun u => u.members.contains c.member) with
  | some u => s1.beginPut u c
  | none => s1.putRead (.redChunk c) []

/-- The chunk takes the alternative tree: it is the one from which the root has chosen to (R308). -/
def RedUnit.altFrom (u : RedUnit) (c : Chunk) : Bool := u.cut.any (fun k => decide (k.1 < c.use) || (k.1 == c.use && decide (k.2 ≤ c.index)))

/-- A chunk is added to the part of its unit that it belongs to (R306). -/
def RedUnit.add (u : RedUnit) (c : Chunk) : RedPart :=
  let vs := c.forms.map LongAcc.ofForm
  match u.parts.find? (fun p => p.use == c.use && p.index == c.index) with
  | none => { use := c.use, index := c.index, acc := vs, sum := c.sum, count := c.count }
  | some p => { p with acc := (p.acc.zip vs).map (fun e => e.1.add e.2), sum := (p.sum + c.sum) % checkP, count := p.count + c.count }

/-- The unit with one part changed for another. -/
def RedUnit.putPart (u : RedUnit) (p : RedPart) : RedUnit :=
  { u with parts := u.parts.filter (fun q => !(q.use == p.use && q.index == p.index)) ++ [p] }

/-- A chunk leaves a router for its parent. -/
def State.sendUp (s : State) (r : Nat) (parent : Agent) (c : Chunk) : State :=
  s.send { src := .router r, dst := parent, cls := .collective, tenant := c.ctx.tenant, msg := .redChunk c, held := false }

/-- A part of which every child and local member has delivered goes to the parent in long-partial form; at the root, once every device has
answered, its sums are verified, rounded and written (R170, R306). -/
def State.partDoneAt (s : State) (r : Nat) (u : RedUnit) (c : Chunk) (p : RedPart) : State :=
  let tree := if c.alt then u.alt else u.tree
  let s1 := s.modUnit r c.ref (fun u => { u with parts := u.parts.filter (fun q => !(q.use == p.use && q.index == p.index)) })
  match tree.parent with
  | some a =>
    if p.count < tree.need then s.modUnit r c.ref (fun u => u.putPart p)
    else s1.sendUp r a { c with member := 0, elems := [], forms := p.acc.map LongAcc.form, sum := p.sum, count := p.count, again := false }
  | none =>
    if p.count < tree.need ∨ (s.redAt c.ref).any (fun d => !d.waitDev.isEmpty) then s.modUnit r c.ref (fun u => u.putPart p)
    else if checksum p.acc = p.sum then (s1.modRed c.ref (fun d => { d with sums := d.sums ++ [(p.index, p.acc)] })).pushRed c.ref
    else s1.failUse r c.ref c.use

/-- The next chunk of a member follows the one that its router has taken. -/
def State.nextChunk (s : State) (u : RedUnit) (local_ : Bool) (c : Chunk) : State :=
  if local_ && decide (c.index + 1 < redChunks u.desc) then
    s.readRedPut { c with index := c.index + 1, forms := [], sum := 0, alt := false, again := false }
  else s

/-- A router takes a chunk (R306, R421, R422): a retired unit forwards it unchanged; another verifies it, which has it sent again the first
time and fails the use the second, and combines it while it has no more than 32 in progress. -/
def State.takeChunk (s : State) (k r : Nat) (src : Agent) (u : RedUnit) (c0 : Chunk) : State :=
  let local_ := match src with
    | .core _ => true
    | _ => false
  let c : Chunk := if local_ then { c0 with alt := u.altFrom c0 } else c0
  let tree := if c.alt then u.alt else u.tree
  let full := decide (32 ≤ u.parts.length) && !u.parts.any (fun p => p.use == c.use && p.index == c.index)
  match (if bitN (s.cluster r).health 20 then tree.parent else none) with
  | some a => ((s.dropPkt k).sendUp r a c).nextChunk u local_ c
  | none =>
    if checksum (c.forms.map LongAcc.ofForm) ≠ c.sum then
      (if !c.again then s.askAgain k (.redChunk { c0 with again := true })
       else ((s.dropPkt k).badChunk r (agentCluster src)).failUse r c.ref c.use)
    else if full then s
    else ((s.dropPkt k).partDoneAt r u c (u.add c)).nextChunk u local_ c

/-- REDUCTION_CHUNK: a chunk reaches a router of the tree (R305, R306, R423). A member's chunk of the next use waits, one of a use that
has failed is dropped, and all wait for a lost link in determinism mode (R308, R322). -/
def reductionChunk (k : Nat) (s : State) : State :=
  match s.recv k with
  | some { msg := .redChunk c, src := src, dst := .router r, .. } =>
    match s.unitAt r c.ref with
    | none => s
    | some u =>
      if (s.cluster r).stop then s
      else if c.forms.isEmpty then (if u.members.contains c.member then (s.dropPkt k).beginPut u c else s)
      else if c.use < u.use then s.dropPkt k
      else if u.use < c.use ∨ u.cutoff = true then s
      else s.takeChunk k r src u c
  | _ => s

/-- REDUCTION_CHUNK. -/
def execReductionChunk (pkt : Nat) : State → Host.Outcome State Fault Refusal := eventOf (reductionChunk pkt)

/-! ## A link of the tree is lost (R308, R322) -/

/-- One more than the highest chunk of a use that a member router of this device has sent (R308). -/
def State.chunkMark (s : State) (ref use : Nat) : Nat :=
  let net := s.net.filterMap (fun p => match p.src, p.msg with
    | .router _, .redChunk c => if c.ref = ref ∧ c.use = use then some (c.index + 1) else none
    | _, _ => none)
  let parts := s.clusters.flatMap (fun k => ((tabFind k.2.reds ref).toList.flatMap (·.parts)).filterMap (fun p =>
    if p.use = use then some (p.index + 1) else none))
  let done := (s.redAt ref).toList.flatMap (fun r => r.sums.map (fun e => e.1 + 1))
  (net ++ parts ++ done).foldl max 0

/-- The units of this device take the alternative tree from a chunk on. -/
def State.cutUnits (s : State) (ref use index : Nat) : State :=
  s.modUnits ref (fun u => if u.cut.isSome then u else { u with cut := some (use, index) })

/-- The root chooses the chunk from which the alternative tree is taken: the next one that no member router has sent, or with members on
other devices, the first of the next use (R308; log 39). -/
def State.cutTree (s : State) (ref : Nat) : State :=
  match s.redAt ref with
  | none => s
  | some r =>
    let others := s.otherDevices r.desc
    let c := if others.isEmpty then (r.use, s.chunkMark ref r.use) else (r.use + 1, 0)
    (s.cutUnits ref c.1 c.2).tellDevices (refCluster ref) r.ctx.tenant others (.redCut ref c.1 c.2)

/-- A unit has lost the link to its parent (R308, R322). -/
def State.cutLink (s : State) (cluster ref : Nat) (u : RedUnit) : State :=
  if s.unitDet ref u then s.modUnit cluster ref (fun u => { u with cutoff := true })
  else if u.cut.isSome then s
  else if refDev ref = s.device then s.cutTree ref
  else s.tellDevices cluster u.ctx.tenant [refDev ref] (.redLink ref)

/-- The parent of a unit lies over a link: of a device link, the one that its packets leave by, and not the link of the other direction. -/
def State.overLink (s : State) (cluster : Nat) (link : LinkId) (t : RedTree) : Bool :=
  match link, t.parent with
  | .torus c d, some (.router p) => c == cluster && farRouter c d == p
  | .device l, some (.device v _) => (s.deviceLink v).any (fun e => e.1 == l || (e.2 == l && s.linkGone (.device e.1))) && gatewayOf (cluster / 120) l == cluster
  | _, _ => false

/-- A link is retired or degraded: the reductions whose tree takes it (R308). -/
def State.redLost (s : State) (link : LinkId) : State :=
  s.clusters.foldl (fun t k => k.2.reds.foldl (fun t e => if s.overLink k.1 link e.2.tree then t.cutLink k.1 e.1 e.2 else t) t) s

/-- A link is in service and clear again: chunks that waited for it go on (R308). -/
def State.redBack (s : State) (link : LinkId) : State :=
  if s.linkLost link then s
  else s.clusters.foldl (fun t k => k.2.reds.foldl (fun t e =>
    if s.overLink k.1 link e.2.tree then t.modUnit k.1 e.1 (fun u => { u with cutoff := false }) else t) t) s

end Sys2Proof.Machine
end

