-- ==== Sys2Proof/Machine/CollRun.lean ====
section
/-! DEFINITION. What a parked engine request does again (R393, R397); the end of a PUBL (R141); Turn rings (R316, R317, R425); reports
(R303); and absent members (R427, R428). -/

namespace Sys2Proof.Machine

/-- What a parked source read or definition does when its page has come or is refused. -/
def State.rereadSource (s : State) (m : Msg) : State :=
  match m with
  | .hpput c => s.readHoopPut c
  | .redChunk c => s.readRedPut c
  | .define 0 d x => if (s.hoopHeld (fieldN d 0 32)).any (fun h => !h.ready && h.desc == d) then s.readLags x d else s
  | .define _ d x => s.pbdef x d
  | _ => s

/-- Every hoop and reduction that waits for a page or for another PUBL goes on. -/
def State.retryResults (s : State) : State :=
  s.dies.foldl (fun t d =>
    let s1 := d.2.hoops.foldl (fun t h => t.closeHoop (fieldN h.2.desc 0 32)) t
    d.2.reds.foldl (fun t r => t.pushRed (fieldN r.2.desc 0 32)) s1) s

/-- The cluster whose L2 TLB translates for a PUBL: its core's, or the home's of the result that it publishes. -/
def PublJob.cluster (j : PublJob) : Nat :=
  match j.who with
  | some (.hoop ref) => refCluster ref
  | some (.reduction ref) => refCluster ref
  | _ => clusterOf j.ctx.core

/-- What follows the even generation: a hoop's or a reduction's result is in force, or the arrival is sent (R141, R306, R313). -/
def State.publDone (s : State) (j : PublJob) : State :=
  match j.who with
  | some (.hoop ref) => if (s.hoopAt ref).any (fun h => h.phase == .publishing) then s.finishHoop ref else s
  | some (.reduction ref) => if (s.redAt ref).any (fun r => r.phase == .publishing) then s.endUse ref 0 else s
  | _ => s.arrive (.core j.ctx.core) j.ctx.tenant (BitVec.ofNat 32 (fieldN j.op 16 32)) (fieldN j.op 8 6) 1

/-- PUBL_HOLD_END: once every access translated before the swap has been performed, the even generation is written and the
arrival sent; a hoop's or a reduction's result is then in force (R141, R306, R313). It parks while the page of the generation word is not
there (R393), and waits while the L2 TLB has stopped (R396). -/
def publHoldEnd (asid k : Nat) (s : State) : State :=
  match s.dies.find? (fun d => d.2.publs.any (fun p => p.asid == asid && p.k == k)) with
  | none => s
  | some (die, d) =>
    match d.publs.find? (fun p => p.asid == asid && p.k == k), d.pub asid k with
    | some j, some p =>
      let out := s.net.any (fun q => match q.msg with
        | .access r => j.waits.contains r.id
        | _ => false)
      let absent := if j.purged then [] else s.genWait j.cluster j.ctx.core asid k
      if out = true ∨ (s.cluster j.cluster).stop = true then s
      else if !absent.isEmpty then s.parkResult j.cluster j.ctx.core asid none absent
      else
        let s1 := s.modDie die (fun d => { d with publs := d.publs.filter (fun p => !(p.asid == asid && p.k == k)) })
        let s2 := if j.purged then s1 else s1.genStore j.ctx.core asid p.genaddr (p.gen + 1).toNat
        ((s2.setPub asid k (fun p => { p with gen := p.gen + 1 }) p).publDone j).retryResults
    | _, _ => s

/-- PUBL_HOLD_END. -/
def execPublHoldEnd (asid k : Nat) : State → Host.Outcome State Fault Refusal := eventOf (publHoldEnd asid k)

/-! ## Turn rings (R316, R317, R425) -/

/-- A grant goes to the predecessor of a ring entry (R316). -/
def State.sendGrant (s : State) (r : Ring) (slot : Nat) : State :=
  let here := fieldN r.desc 42 10 = s.device
  s.send { src := .core r.core, dst := if here then .core (fieldN r.desc 52 13) else .device (fieldN r.desc 42 10) (fieldN r.desc 52 13),
           cls := .collective, tenant := s.tenantOf r.core, msg := .grant (fieldN r.desc 65 2) slot, held := false }

/-- The fields of TURNDEF are legal (R316, R425 code 0x01). -/
def turndefOk (d : Vec) : Bool :=
  zeroF d 41 1 && zeroF d 68 4 && zeroF d 258 254 && (bitN d 67 ||
    (fieldN d 14 2 != 0 && fieldN d 2 6 != 0 && decide (fieldN d 8 6 ≤ fieldN d 2 6)
      && decide (64 * (fieldN d 144 10 + 1) + 64 * (fieldN d 154 10 + 1) ≤ 65536)))

/-- The slot tiles of a new ring entry are EMPTY W tiles of the block's sizes (R316, R425 code 0x08). -/
def State.slotsOk (s : State) (r : Ring) : Bool :=
  (List.range r.count).all (fun q => r.receivers.all (fun c =>
    let ok (tile n : Nat) : Bool :=
      let t := (s.core c).tile tile
      t.buf == 0 && t.state == .empty && t.expect == n
    ok (r.tilesOf q).1 r.sizes.1 && ok (r.tilesOf q).2 r.sizes.2))

/-- A leader of this device, or of another, can be reached by the routes that a tenant's ring packets take (R294, R415). -/
def State.leaderLives (s : State) (tenant start dev core : Nat) : Bool :=
  if dev = s.device then s.routeLives (s.sharedRegion tenant start (clusterOf core)) start (clusterOf core) else s.deviceLives true tenant start dev

/-- TURNDEF at its release (R316, R425). -/
def State.turndef (s : State) (x : Ctx) (d : Vec) : State :=
  let cl := clusterOf x.core
  let n := fieldN d 0 2
  let rep (t : State) (code : Nat) : State :=
    t.defReport (.router cl) x.tenant code 0 (BitVec.ofNat 32 (fieldN d 211 32)) (fieldN d 243 6) (fieldN d 249 9)
  let held := ((s.cluster cl).ringHeld.filter (fun e => e.1 == n)).map (·.2)
  let r : Ring := { desc := d, core := x.core, slots := [], blocks := [], fwd := [], grants := held, incoming := [],
                    late := [], failed := false }
  if turndefOk d = false then rep s 1
  else if s.inRegion x cl = false then rep s 2
  else match s.ring cl n with
    | some _ => if bitN d 67 then rep (s.modCluster cl (fun k => { k with rings := tabDel k.rings n })) 0 else rep s 3
    | none =>
      if bitN d 67 then rep s 3
      else if (s.leaderLives x.tenant cl (fieldN d 16 10) (fieldN d 26 13) && s.leaderLives x.tenant cl (fieldN d 42 10) (fieldN d 52 13)) = false then
        rep s 7
      else if s.slotsOk r = false then rep s 8
      else
        let r1 := { r with slots := (List.range r.count).map (fun q => (q, RingSlot.granted)) }
        let s1 := s.modCluster cl (fun k => { k with rings := tabSet k.rings n r1, ringHeld := k.ringHeld.filter (fun e => e.1 != n) })
        rep ((List.range r.count).foldl (fun t q => t.sendGrant r1 q) s1) 0

/-- TURN_GRANT_ARRIVAL: a grant reaches its entry, or is held until the entry is defined (R316). -/
def turnGrantArrival (k : Nat) (s : State) : State :=
  match s.recv k with
  | some { msg := .grant n slot, dst := .core core, .. } =>
    let cl := clusterOf core
    match s.ring cl n with
    | none => (s.dropPkt k).modCluster cl (fun c => { c with ringHeld := c.ringHeld ++ [(n, slot)] })
    | some r =>
      if r.failed then s.dropPkt k else (s.dropPkt k).modRing cl n (fun r => { r with grants := r.grants ++ [slot] })
  | _ => s

/-- TURN_GRANT_ARRIVAL. -/
def execTurnGrantArrival (pkt : Nat) : State → Host.Outcome State Fault Refusal := eventOf (turnGrantArrival pkt)

/-- Bytes of another device's block reach a slot: at every receiver whose tile was EMPTY as the first of them came they land, at another they
wait (R317). -/
def State.landBlock (s : State) (cluster n slot dev : Nat) (tag : Nat × Nat) (isK : Bool) (ofs : Nat) (bytes : List Byte)
    (total src job : Nat) : State :=
  match s.ring cluster n with
  | none => s
  | some r =>
    let tile := if isK then (r.tilesOf slot).1 else (r.tilesOf slot).2
    let waits (c : Nat) : Bool := r.late.any (fun e => e.1 == slot && e.2.1 == c && e.2.2.1 == tile)
      || (ofs == 0 && ((s.core c).tile tile).state != .empty)
    let late := (r.receivers.filter waits).map (fun c => (slot, c, tile, ofs, bytes))
    let left := ((tabFind r.incoming slot).map (fun e => e.2.2.2)).getD total - bytes.length
    ((r.receivers.filter (fun c => !waits c)).foldl (fun t c => t.fillTile c tile ofs bytes)
      (s.modRing cluster n (fun r =>
        { r with incoming := tabSet r.incoming slot (dev, src, job, left), late := r.late ++ late }))).landIn (cluster, n) slot tag

/-- Bytes that wait at a receiver can land: its tile is EMPTY, or holds what comes before them (R317). -/
def State.canLand (s : State) (slot : Nat) (e : Nat × Nat × Nat × Nat × List Byte) : Bool :=
  let t := (s.core e.2.1).tile e.2.2.1
  e.1 == slot && (if e.2.2.2.1 = 0 then t.state == .empty else t.state == .filling && t.arrived == e.2.2.2.1)

/-- The landing of a slot's block: the landing word and its arrival, and to another device the answer that it has landed (R317, R318). -/
def State.landed (s : State) (cluster n slot : Nat) (r : Ring) : State :=
  let b := tabGet (0, 0) r.blocks slot
  let s1 := (s.modRing cluster n (fun r => { r with slots := tabSet r.slots slot .landed, incoming := tabDel r.incoming slot })).report
    (.router cluster) (s.tenantOf r.core) (BitVec.ofNat 32 (fieldN r.desc 164 32)) (fieldN r.desc 196 6) (fieldN r.desc 202 9)
    (BitVec.ofNat 64 (b.1 + b.2 * 2 ^ 6 + slot * 2 ^ 12))
  match tabFind r.incoming slot with
  | none => s1
  | some e => s1.send { src := .core r.core, dst := .device e.1 0, cls := .collective, tenant := s.tenantOf r.core,
                        msg := .blockDone e.2.1 e.2.2.1, held := false }

/-- BLOCK_LANDING: every receiver's tiles of a LANDING slot are READY, so the slot is LANDED and the landing word is sent; bytes of another
device's block that wait for a tile land first (R317). -/
def blockLanding (cluster n slot : Nat) (s : State) : State :=
  match s.ring cluster n with
  | none => s
  | some r =>
    match r.late.find? (s.canLand slot) with
    | some e => (s.modRing cluster n (fun r => { r with late := r.late.erase e })).fillTile e.2.1 e.2.2.1 e.2.2.2.1 e.2.2.2.2
    | none =>
      if tabFind r.slots slot = some .landing ∧ (r.slotTiles slot).all (fun e => ((s.core e.1).tile e.2).state == .ready) = true then
        s.landed cluster n slot r
      else s

/-- BLOCK_LANDING. -/
def execBlockLanding (cluster ring slot : Nat) : State → Host.Outcome State Fault Refusal :=
  eventOf (blockLanding cluster ring slot)

/-- The RELEASE job of a slot has its slot granted again. -/
def releaseOf (n slot : Nat) (j : Job) : Bool :=
  j.op == .turngo && j.state == .issued && bitN j.desc 34 && fieldN j.desc 32 2 == n && fieldN j.desc 35 2 == slot

/-- SLOT_REGRANT: the tiles of a RELEASING slot are EMPTY and its block has gone on, so it is GRANTED again and a grant goes to
the predecessor (R317, R318). -/
def slotRegrant (cluster n slot : Nat) (s : State) : State :=
  match s.ring cluster n with
  | none => s
  | some r =>
    if tabFind r.slots slot = some .releasing ∧ tabGet false r.fwd slot = false ∧
        (r.slotTiles slot).all (fun e => ((s.core e.1).tile e.2).state == .empty) = true then
      ((s.modRing cluster n (fun r => { r with slots := tabSet r.slots slot .granted, blocks := tabDel r.blocks slot })).modJobs
        (.copy cluster) (fun l => l.map (fun j => if releaseOf n slot j then { j with ready := true } else j))).sendGrant r slot
    else s

/-- SLOT_REGRANT. -/
def execSlotRegrant (cluster ring slot : Nat) : State → Host.Outcome State Fault Refusal :=
  eventOf (slotRegrant cluster ring slot)

/-! ## Reports (R303) -/

/-- The report word (R303). -/
def reportWord (code members : Nat) : Word :=
  BitVec.ofNat 64 (if code = 0 then 1 + members * 2 ^ 16 else 2 + code * 2 ^ 8)

/-- DEFINITION_REPORT: the report of a definition goes to its frame word, with its arrival (R303). -/
def definitionReport (k : Nat) (s : State) : State :=
  match s.recv k with
  | some { msg := .defReport code members h slot fw, src := src, tenant := t, .. } =>
    (s.dropPkt k).report src t h slot fw (reportWord code members)
  | _ => s

/-- DEFINITION_REPORT. -/
def execDefinitionReport (pkt : Nat) : State → Host.Outcome State Fault Refusal := eventOf (definitionReport pkt)

/-! ## Absent members (R427, R428) -/

/-- ABSENCE_NOTICE: the collective starts the hold for a member. -/
def absenceNotice (who : Collective) (m : Nat) (s : State) : State :=
  { s with absent := s.absent.filter (fun e => !(e.1 == who && e.2.1 == m)) ++ [(who, m, s.cycle)] }

/-- ABSENCE_NOTICE. -/
def execAbsenceNotice (who : Collective) (member : Nat) : State → Host.Outcome State Fault Refusal :=
  eventOf (absenceNotice who member)

/-- PRESENCE_NOTICE: the hold for a member ends. -/
def presenceNotice (who : Collective) (m : Nat) (s : State) : State :=
  { s with absent := s.absent.filter (fun e => !(e.1 == who && e.2.1 == m)) }

/-- PRESENCE_NOTICE. -/
def execPresenceNotice (who : Collective) (member : Nat) : State → Host.Outcome State Fault Refusal :=
  eventOf (presenceNotice who member)

/-- Die of the root, home or ring entry. -/
def collDie : Collective → Nat
  | .reduction ref => refDie ref
  | .hoop ref => refDie ref
  | .ring cl _ => cl / 120

/-- The PEER record of a waiting firing's frame (R428). -/
def State.peerRecord (s : State) (x : Ctx) : State := s.logErr (ctxErr 0x12 0x01 0 x 0)

/-- A TURNGO of a ring that its peer has left (R428): it ends with fcode 0x07. -/
def turnOf (n : Nat) (j : Job) : Bool := j.op == .turngo && j.state != .reserved && fieldN j.desc 32 2 == n

/-- A core is lost to a collective: retired, or of a graph that is contained (R360, R427). -/
def State.memberLost (s : State) (core : Nat) : Bool :=
  let id := (s.core core).gwork
  let w := s.work (id / 2 ^ 14 % 4) (id % 256)
  s.coreRetired core || (w.level == 2 && w.seq == id / 256 % 64 && w.status == 2 && (w.state == .cancelling || w.state == .done))

/-- The contributions of this device's members to a use of a reduction. -/
def State.redPuts (s : State) (ref use : Nat) : List Chunk :=
  s.clusters.flatMap (fun k => ((tabFind k.2.reds ref).toList.flatMap (·.puts)).filter (fun p => p.use == use))

/-- A use of a reduction is COLLECTING: some member has contributed to it, and its result is not complete (R307). -/
def State.redCollects (s : State) (ref : Nat) : Bool :=
  (s.redAt ref).any (fun r => r.phase == .opened && (!(s.redPuts ref r.use).isEmpty || decide (0 < s.chunkMark ref r.use)))

/-- The member for which a collective holds is lost (R427): of a reduction a core, of a hoop the sender of its last contribution. -/
def State.holdLost (s : State) (who : Collective) (m : Nat) : Bool :=
  match who with
  | .reduction _ => s.memberLost m
  | .hoop ref => ((s.hoopAt ref).bind (fun h => tabFind h.senders m)).any (fun e => e.1 == s.device && s.memberLost e.2)
  | .ring _ _ => false

/-- The hold for a member has expired: its time has passed, or the member is lost (R427, R428). -/
def State.holdOver (s : State) (who : Collective) (e : Collective × Nat × Nat) : Bool :=
  e.1 == who && (decide (e.2.2 + max 1 (s.die (collDie who)).resctl.hold * 65536 ≤ s.cycle) || s.holdLost who e.2.1)

/-- A collective waits for a member that is lost: its hold has expired (R427). -/
def State.peerLost (s : State) (who : Collective) : Bool :=
  match who with
  | .reduction ref => s.redCollects ref && (s.redAt ref).any (fun r => (s.redMembers r.desc).any (fun e => e.2.any s.memberLost))
  | .hoop ref => (s.hoopAt ref).any (fun h => !h.waits.isEmpty
      && h.senders.any (fun e => e.2.1 == s.device && s.memberLost e.2.2))
  | .ring cl n => (s.ring cl n).any (fun r => !r.failed &&
      ((fieldN r.desc 16 10 == s.device && s.memberLost (fieldN r.desc 26 13))
        || (fieldN r.desc 42 10 == s.device && s.memberLost (fieldN r.desc 52 13)) || r.receivers.any s.memberLost))

/-- What the end of a hold does (R428): a use that is COLLECTING fails, a hoop's waits end, a ring entry goes to FAILED. -/
def State.endHold (s : State) (who : Collective) : State :=
  match who with
  | .reduction ref =>
    (((s.redAt ref).map (fun r => s.redPuts ref r.use)).getD []).foldl (fun t p => t.peerRecord p.ctx) (s.endUse ref 2)
  | .hoop ref =>
    (match s.hoopAt ref with
     | none => s
     | some h => (h.waits.foldl (fun t w => (t.hpWord ref w h.rho
         (if decide (1 ≤ (h.rho + 65536 - fieldN w.1 32 16) % 65536) && decide ((h.rho + 65536 - fieldN w.1 32 16) % 65536 ≤ 32767)
          then 0 else 6)).peerRecord w.2.1) s).modHoop ref (fun h => { h with waits := [] }))
  | .ring cl n =>
    let js := (s.jobsOf (.copy cl)).filter (turnOf n)
    js.foldl (fun t j => t.peerRecord j.ctx)
      ((s.modRing cl n (fun r => { r with failed := true })).modJobs (.copy cl) (fun l => l.map (fun j =>
        if turnOf n j then
          { j with state := .issued, srcDone := true, parked := false, fault := some { fcode := 7, cls := 0, code := 0, addr := none } }
        else j)))

/-- The collective is a reduction none of whose uses waits for a member: its hold goes on to the next use that does (log 66). -/
def State.holdIdle (s : State) (who : Collective) : Bool :=
  match who with
  | .reduction ref => (s.redAt ref).isSome && !s.redCollects ref
  | _ => false

/-- HOLD_EXPIRY (R428): the holds that have expired end, with their effect on the collective. A lost member's hold has expired at once
(R427). -/
def holdExpiry (who : Collective) (s : State) : State :=
  if (s.absent.any (s.holdOver who) = false ∧ s.peerLost who = false) ∨ s.holdIdle who = true then s
  else { s with absent := s.absent.filter (fun e => !s.holdOver who e) }.endHold who

/-- HOLD_EXPIRY. -/
def execHoldExpiry (who : Collective) : State → Host.Outcome State Fault Refusal := eventOf (holdExpiry who)

end Sys2Proof.Machine
end

