-- ==== Sys2Proof/Machine/Collectives.lean ====
section
/-! DEFINITION. The collective commands at issue: HPDEF, HPPUT, HPWAIT, TURNDEF, REDDEF, REDPUT, PBDEF and PUBL
(R302, R321). Each is held, and what it does is done at its release. -/

namespace Sys2Proof.Machine

/-- A collective command: its descriptor is held and T[td] := 0 (R302). Its fields are checked where it acts (R425, R426). -/
def collective (td ta : Temp) (a : Vec → Act) : State → Host.Outcome State Fault Refusal :=
  issue true fun f s => .done ((s.setFiring (f.setW td 0)).hold f (a (f.t ta)))

/-- HPDEF. -/
def execHpdef (td ta : Temp) : State → Host.Outcome State Fault Refusal := collective td ta .hpdef
/-- HPPUT. -/
def execHpput (td ta : Temp) : State → Host.Outcome State Fault Refusal := collective td ta .hpput
/-- HPWAIT. -/
def execHpwait (td ta : Temp) : State → Host.Outcome State Fault Refusal := collective td ta .hpwait
/-- TURNDEF. -/
def execTurndef (td ta : Temp) : State → Host.Outcome State Fault Refusal := collective td ta .turndef
/-- REDDEF. -/
def execReddef (td ta : Temp) : State → Host.Outcome State Fault Refusal := collective td ta .reddef
/-- REDPUT. -/
def execRedput (td ta : Temp) : State → Host.Outcome State Fault Refusal := collective td ta .redput
/-- PBDEF. -/
def execPbdef (td ta : Temp) : State → Host.Outcome State Fault Refusal := collective td ta .pbdef

/-- The zero fields of the operand of PUBL (R321). -/
def publOk (op : Word) : Bool := fieldN op 14 2 == 0 && fieldN op 48 16 == 0

/-- PUBL (R321). -/
def execPubl (scope : Scope) (ta : Temp) : State → Host.Outcome State Fault Refusal := issue true fun f s =>
  if publOk (f.w ta) then .done (s.hold f (.publ scope (f.w ta))) else .trap 0x05 0x0A none

end Sys2Proof.Machine
end

