-- ==== Sys2Proof/Machine/Inflate.lean ====
section
/-! DEFINITION. The decoders of the ingest unit (R288, R386): STORED, DEFLATE (RFC 1951), zlib (RFC 1950) and gzip (RFC 1952). The
manual names those documents and does not restate them (log 21). -/

namespace Sys2Proof.Machine

/-- What a decoder makes of a stored message: its output, or the output up to an event, with the event's code, its offset and the
bytes consumed (R386, R388). -/
inductive Decoded where
  | whole (out : List Byte)
  | broken (out : List Byte) (code ofs consumed : Nat)
  deriving DecidableEq, Repr

/-- The largest output of one message (R288). -/
def outMax : Nat := 67108864

/-! ## Bits of a DEFLATE stream -/

/-- A bit reader: the bits left, and how many have been read. -/
structure Bits where
  left : List Bool
  pos  : Nat
  deriving DecidableEq, Repr

/-- The bits of bytes, each byte's least significant first. -/
def bitsOf (bs : List Byte) : List Bool := bs.flatMap (fun b => (List.range 8).map b.getLsbD)

/-- n bits as a number, the first the least significant. -/
def Bits.num (b : Bits) : Nat → Option (Nat × Bits)
  | 0 => some (0, b)
  | n + 1 =>
    match b.left with
    | [] => none
    | x :: t => (Bits.num { left := t, pos := b.pos + 1 } n).map (fun e => (b2n x + 2 * e.1, e.2))

/-- The reader at the next byte boundary. -/
def Bits.align (b : Bits) : Bits :=
  let n := (8 - b.pos % 8) % 8
  { left := b.left.drop n, pos := b.pos + n }

/-- n bytes from a byte boundary. -/
def Bits.bytes (b : Bits) : Nat → Option (List Byte × Bits)
  | 0 => some ([], b)
  | n + 1 =>
    match b.num 8 with
    | none => none
    | some (v, c) => (c.bytes n).map (fun e => (BitVec.ofNat 8 v :: e.1, e.2))

/-! ## Huffman codes of RFC 1951 -/

/-- A code: its length, its value with the first bit the most significant, and its symbol. -/
abbrev Huff := List (Nat × Nat × Nat)

/-- The codes of one length from a value on. -/
def codesOf (len : Nat) (lens : List Nat) (first : Nat) : Huff :=
  (((lens.zipIdx.filter (fun e => e.1 == len)).map (·.2)).zipIdx).map (fun e => (len, first + e.2, e.1))

/-- The codes of n lengths from a length on; none when there are more codes than a length has room for. -/
def canonFrom (lens : List Nat) : Nat → Nat → Nat → Option Huff
  | 0, _, _ => some []
  | n + 1, len, first =>
    let c := codesOf len lens first
    if 2 ^ len < first + c.length then none
    else (canonFrom lens n (len + 1) (2 * (first + c.length))).map (c ++ ·)

/-- The canonical code of a list of lengths, up to 15. -/
def canon (lens : List Nat) : Option Huff := canonFrom lens 15 1 0

/-- A symbol of a code: bits are read until they are a code word, n of them at most. -/
def Huff.sym (h : Huff) : Nat → Nat → Nat → Bits → Option (Nat × Bits)
  | 0, _, _, _ => none
  | n + 1, len, v, b =>
    match b.left with
    | [] => none
    | x :: t =>
      let c : Bits := { left := t, pos := b.pos + 1 }
      let w := 2 * v + b2n x
      match List.find? (fun e => e.1 == len + 1 && e.2.1 == w) h with
      | some e => some (e.2.2, c)
      | none => Huff.sym h n (len + 1) w c

/-- The base length and extra bits of a length symbol, 257 to 285. -/
def lenSym (s : Nat) : Option (Nat × Nat) :=
  if s < 257 ∨ 285 < s then none
  else if s = 285 then some (258, 0)
  else if s < 265 then some (s - 254, 0)
  else
    let e := (s - 261) / 4
    some (2 ^ e * (4 + (s - 261) % 4) + 3, e)

/-- The base distance and extra bits of a distance symbol, 0 to 29. -/
def distSym (s : Nat) : Option (Nat × Nat) :=
  if 29 < s then none
  else if s < 4 then some (s + 1, 0)
  else
    let e := s / 2 - 1
    some (2 ^ e * (2 + s % 2) + 1, e)

/-- n bytes copied from a distance back in an output that is held newest byte first; none when the distance goes beyond it. -/
def copyBack (d : Nat) : Nat → List Byte → Option (List Byte)
  | 0, out => some out
  | n + 1, out =>
    match out[d - 1]? with
    | none => none
    | some b => copyBack d n (b :: out)

/-- How a block ends: the reader behind it and the output, newest byte first; or malformed, with the output up to there and the
reader's place. -/
inductive Block where
  | next (b : Bits) (out : List Byte)
  | bad (pos : Nat) (out : List Byte)
  deriving DecidableEq, Repr

/-- Literals and matches up to the end of a block. -/
def inflateCodes (lit dist : Huff) : Nat → Bits → List Byte → Block
  | 0, b, out => .bad b.pos out
  | n + 1, b, out =>
    match Huff.sym lit 15 0 0 b with
    | none => .bad b.pos out
    | some (s, b1) =>
      if s < 256 then inflateCodes lit dist n b1 (BitVec.ofNat 8 s :: out)
      else if s = 256 then .next b1 out
      else match lenSym s with
        | none => .bad b.pos out
        | some (base, extra) =>
          match b1.num extra with
          | none => .bad b.pos out
          | some (v, b2) =>
            match Huff.sym dist 15 0 0 b2 with
            | none => .bad b.pos out
            | some (ds, b3) =>
              match distSym ds with
              | none => .bad b.pos out
              | some (dbase, dextra) =>
                match b3.num dextra with
                | none => .bad b.pos out
                | some (dv, b4) =>
                  match copyBack (dbase + dv) (base + v) out with
                  | none => .bad b.pos out
                  | some o => inflateCodes lit dist n b4 o

/-- The lengths of the fixed codes. -/
def fixedLens : List Nat :=
  List.replicate 144 8 ++ List.replicate 112 9 ++ List.replicate 24 7 ++ List.replicate 8 8

/-- n code lengths written with the code-length code. -/
def readLens (h : Huff) (total : Nat) : Nat → Bits → List Nat → Option (List Nat × Bits)
  | 0, _, _ => none
  | n + 1, b, acc =>
    if acc.length = total then some (acc, b)
    else if total < acc.length then none
    else match Huff.sym h 7 0 0 b with
      | none => none
      | some (s, b1) =>
        if s < 16 then readLens h total n b1 (acc ++ [s])
        else
          let (bits, base) := if s = 16 then (2, 3) else if s = 17 then (3, 3) else (7, 11)
          match b1.num bits, (if s = 16 then acc.getLast? else some 0) with
          | some (v, b2), some x => readLens h total n b2 (acc ++ List.replicate (base + v) x)
          | _, _ => none

/-- The order of the code-length code's lengths. -/
def lensOrder : List Nat := [16, 17, 18, 0, 8, 7, 9, 6, 10, 5, 11, 4, 12, 3, 13, 2, 14, 1, 15]

/-- n numbers of three bits. -/
def Bits.triples (b : Bits) : Nat → Option (List Nat × Bits)
  | 0 => some ([], b)
  | n + 1 =>
    match b.num 3 with
    | none => none
    | some (v, c) => (c.triples n).map (fun e => (v :: e.1, e.2))

/-- The two codes of a dynamic block. -/
def dynamicCodes (b : Bits) : Option (Huff × Huff × Bits) :=
  match b.num 14 with
  | none => none
  | some (v, b1) =>
    let hlit := v % 32 + 257
    let hdist := v / 32 % 32 + 1
    let hclen := v / 1024 + 4
    match b1.triples hclen with
    | none => none
    | some (cl, b2) =>
      let clens := (List.range 19).map (fun s => ((lensOrder.zip cl).find? (fun e => e.1 == s)).elim 0 (·.2))
      match canon clens with
      | none => none
      | some h =>
        match readLens h (hlit + hdist) (hlit + hdist + 1) b2 [] with
        | none => none
        | some (lens, b3) =>
          match canon (lens.take hlit), canon (lens.drop hlit) with
          | some a, some d => if 286 < hlit then none else some (a, d, b3)
          | _, _ => none

/-- A stored block from its length on. -/
def storedBlock (b : Bits) (out : List Byte) : Block :=
  match b.align.num 32 with
  | none => .bad b.pos out
  | some (v, b1) =>
    if v % 65536 + v / 65536 ≠ 65535 then .bad b.align.pos out
    else match b1.bytes (v % 65536) with
      | none => .bad b1.pos ((b1.bytes (b1.left.length / 8)).elim out (fun e => e.1.reverse ++ out))
      | some (bs, b2) => .next b2 (bs.reverse ++ out)

/-- A DEFLATE stream, n blocks at most: the reader behind it and its output, newest byte first. -/
def inflate : Nat → Bits → List Byte → Block
  | 0, b, out => .bad b.pos out
  | n + 1, b, out =>
    match b.num 3 with
    | none => .bad b.pos out
    | some (v, b1) =>
      let blk := match v / 2 with
        | 0 => storedBlock b1 out
        | 1 => match canon fixedLens, canon (List.replicate 30 5) with
          | some l, some d => inflateCodes l d (b1.left.length + 1) b1 out
          | _, _ => .bad b.pos out
        | 2 => match dynamicCodes b1 with
          | some (l, d, b2) => inflateCodes l d (b2.left.length + 1) b2 out
          | none => .bad b.pos out
        | _ => .bad b.pos out
      match blk with
      | .bad p o => .bad p o
      | .next b2 o => if v % 2 = 1 then .next b2.align o else inflate n b2 o

/-- A DEFLATE stream from a byte offset of a message. -/
def inflateAt (msg : List Byte) (ofs : Nat) : Block :=
  inflate (8 * msg.length + 1) { left := bitsOf (msg.drop ofs), pos := 8 * ofs } []

/-! ## Checksums -/

/-- CRC-32 of gzip. -/
def crc32 (bs : List Byte) : Nat :=
  (bs.foldl (fun c b => (List.range 8).foldl (fun c _ => if c % 2 = 1 then (c / 2) ^^^ 0xEDB88320 else c / 2) (c ^^^ b.toNat))
    0xFFFFFFFF) ^^^ 0xFFFFFFFF

/-- Adler-32 of zlib. -/
def adler32 (bs : List Byte) : Nat :=
  let p := bs.foldl (fun (e : Nat × Nat) b => ((e.1 + b.toNat) % 65521, (e.2 + (e.1 + b.toNat)) % 65521)) (1, 0)
  p.2 * 65536 + p.1

/-! ## The codecs (R287, R288, R386) -/

/-- The output that a decoder makes. -/
def Decoded.out : Decoded → List Byte
  | .whole o => o
  | .broken o _ _ _ => o

/-- The longest prefix of a message, of n bits of length and from a length on, whose output is no longer than the limit. -/
def fitting (f : List Byte → Decoded) (msg : List Byte) : Nat → Nat → Nat
  | 0, k => k
  | n + 1, k =>
    if k + 2 ^ n < msg.length ∧ (f (msg.take (k + 2 ^ n))).out.length ≤ outMax then fitting f msg n (k + 2 ^ n) else fitting f msg n k

/-- A decoder with an output above the limit as an event of its own (R386 code 0x16), at the first byte of the message with which the
output passes the limit. -/
def capped (f : List Byte → Decoded) (msg : List Byte) : Decoded :=
  let d := f msg
  if d.out.length ≤ outMax then d
  else
    let k := fitting f msg 27 0
    .broken (d.out.take outMax) 0x16 k (k + 1)

/-- Trailing bytes after the last frame (R386 code 0x16). -/
def trailed (msg out : List Byte) (pos : Nat) : Decoded :=
  if pos < msg.length then .broken out 0x16 pos (pos + 1) else .whole out

/-- A malformed block at a bit position. -/
def badBlock (out : List Byte) (bit : Nat) : Decoded := .broken out.reverse 0x10 (bit / 8) ((bit + 7) / 8)

/-- DEFLATE. -/
def decodeDeflate (msg : List Byte) : Decoded :=
  match inflateAt msg 0 with
  | .bad p out => badBlock out p
  | .next b out => trailed msg out.reverse (b.pos / 8)

/-- A big-endian number of four bytes. -/
def be32 (bs : List Byte) : Nat := leNat bs.reverse

/-- zlib: header, DEFLATE stream and Adler-32. -/
def decodeZlib (msg : List Byte) : Decoded :=
  match msg with
  | c :: f :: _ =>
    if c.toNat % 16 ≠ 8 ∨ 7 < c.toNat / 16 ∨ (c.toNat * 256 + f.toNat) % 31 ≠ 0 ∨ f.getLsbD 5 = true then .broken [] 0x11 0 2
    else match inflateAt msg 2 with
      | .bad p out => badBlock out p
      | .next b out =>
        let a := b.pos / 8
        let sum := (msg.drop a).take 4
        if sum.length < 4 ∨ be32 sum ≠ adler32 out.reverse then .broken out.reverse 0x11 a (min msg.length (a + 4))
        else trailed msg out.reverse (a + 4)
  | _ => .broken [] 0x11 0 msg.length

/-- Bytes up to and with the first zero byte; none when there is no zero byte. -/
def zeroEnd : List Byte → Option Nat
  | [] => none
  | b :: t => if b = 0 then some 1 else (zeroEnd t).map (· + 1)

/-- Length of a gzip member's header, when it is valid. -/
def gzipHeader (m : List Byte) : Option Nat :=
  let f : Byte := m.getD 3 0
  if m.length < 10 ∨ m.take 3 ≠ [0x1F, 0x8B, 8] ∨ 32 ≤ f.toNat then none
  else
    let a := if f.getLsbD 2 then (if m.length < 12 then none else some (12 + leNat ((m.drop 10).take 2))) else some 10
    let skip (on : Bool) (p : Option Nat) : Option Nat :=
      if on then p.bind (fun o => (zeroEnd (m.drop o)).map (o + ·)) else p
    let b := skip (f.getLsbD 4) (skip (f.getLsbD 3) a)
    let c := if f.getLsbD 1 then b.map (· + 2) else b
    c.bind (fun o => if o ≤ m.length then some o else none)

/-- The members of a gzip stream from an offset on, n at most, behind an output. -/
def gunzip (msg : List Byte) : Nat → Nat → List Byte → Decoded
  | 0, ofs, out => .broken out 0x12 ofs ofs
  | n + 1, ofs, out =>
    match gzipHeader (msg.drop ofs) with
    | none => .broken out 0x12 ofs (min msg.length (ofs + 10))
    | some h =>
      match inflateAt msg (ofs + h) with
      | .bad p o => .broken (out ++ o.reverse) 0x10 (p / 8) ((p + 7) / 8)
      | .next b o =>
        let a := b.pos / 8
        let out1 := out ++ o.reverse
        let crc := (msg.drop a).take 4
        let siz := (msg.drop (a + 4)).take 4
        if crc.length < 4 ∨ leNat crc ≠ crc32 o.reverse then .broken out1 0x12 a (min msg.length (a + 4))
        else if siz.length < 4 ∨ leNat siz ≠ o.length % 2 ^ 32 then .broken out1 0x12 (a + 4) (min msg.length (a + 8))
        else if msg.length ≤ a + 8 then .whole out1
        else if (msg.drop (a + 8)).take 2 = [0x1F, 0x8B] then gunzip msg n (a + 8) out1
        else .broken out1 0x16 (a + 8) (a + 9)

end Sys2Proof.Machine
end

