-- ==== Sys2Proof/Machine/Zstd.lean ====
section
/-! DEFINITION. The Zstandard decoder of the ingest unit (R288, R386). The manual names RFC 8878 and does not restate it; the names
of its parts are that document's (log 21). -/

namespace Sys2Proof.Machine

/-! ## FSE tables -/

/-- An FSE decoding table: its accuracy log, and for each state the symbol, the bits to read and the base of the next state. -/
structure Fse where
  al    : Nat
  cells : List (Nat × Nat × Nat)
  deriving DecidableEq, Repr

/-- A repeat of zero probabilities: two-bit counts, up to the first that is not 3. -/
def zeroRuns : Nat → Bits → Nat → Option (Nat × Bits)
  | 0, _, _ => none
  | n + 1, b, acc =>
    match b.num 2 with
    | none => none
    | some (v, c) => if v = 3 then zeroRuns n c (acc + 3) else some (acc + v, c)

/-- Probabilities of a table description while some of the total remains; −1 stands for less than one. -/
def fseProbs : Nat → Nat → Bits → List Int → Option (List Int × Bits)
  | 0, _, _, _ => none
  | n + 1, remaining, b, acc =>
    if remaining = 0 then some (acc, b)
    else
      let k := (remaining + 1).log2
      let t := 2 ^ (k + 1) - 1 - (remaining + 1)
      match b.num k with
      | none => none
      | some (low, c) =>
        let val : Option (Nat × Bits) := if low < t then some (low, c)
          else (c.num 1).map (fun e => (if e.1 = 1 then low + 2 ^ k - t else low, e.2))
        match val with
        | none => none
        | some (v, d) =>
          if v = 1 then
            match zeroRuns (d.left.length + 1) d 0 with
            | none => none
            | some (z, e) => fseProbs n remaining e (acc ++ List.replicate (z + 1) 0)
          else
            let used := if v = 0 then 1 else v - 1
            if remaining < used then none else fseProbs n (remaining - used) d (acc ++ [(v : Int) - 1])

/-- The symbol of every state of a table: those of probability −1 from the top down, the others spread by the step. -/
def fseSpread (al : Nat) (norm : List Int) : List Nat :=
  let size := 2 ^ al
  let lows := (norm.zipIdx.filter (fun e => e.1 == -1)).map (·.2)
  let high := size - lows.length
  let step := size / 2 + size / 8 + 3
  let spots := ((List.range size).map (fun i => i * step % size)).filter (fun p => decide (p < high))
  let syms := norm.zipIdx.flatMap (fun e => List.replicate e.1.toNat e.2)
  let put : Tab Nat := spots.zip syms ++ lows.zipIdx.map (fun e => (size - 1 - e.2, e.1))
  (List.range size).map (tabGet 0 put)

/-- The cells of a table: each state of a symbol takes the symbol's next number. -/
def fseCells (al : Nat) : List Nat → Tab Nat → List (Nat × Nat × Nat)
  | [], _ => []
  | s :: t, next =>
    let n := tabGet 1 next s
    let bits := al - n.log2
    (s, bits, n * 2 ^ bits - 2 ^ al) :: fseCells al t (tabSet next s (n + 1))

/-- The decoding table of some probabilities. -/
def fseTable (al : Nat) (norm : List Int) : Fse :=
  { al := al, cells := fseCells al (fseSpread al norm) (norm.zipIdx.foldl (fun t e => tabSet t e.2 (max 1 e.1.toNat)) []) }

/-- A table description: a table of at most some accuracy and symbol, and the bytes it takes. -/
def fseRead (maxAl maxSym : Nat) (bs : List Byte) : Option (Fse × Nat) :=
  match Bits.num { left := bitsOf bs, pos := 0 } 4 with
  | none => none
  | some (a, b) =>
    if maxAl < a + 5 then none
    else match fseProbs (maxSym + 2) (2 ^ (a + 5)) b [] with
      | none => none
      | some (norm, c) => if maxSym + 1 < norm.length then none else some (fseTable (a + 5) norm, (c.pos + 7) / 8)

/-- A table of one symbol, which takes no bits. -/
def fseRle (s : Nat) : Fse := { al := 0, cells := [(s, 0, 0)] }

/-- A state's symbol, bits and base. -/
def Fse.cell (t : Fse) (st : Nat) : Nat × Nat × Nat := t.cells.getD st (0, 0, 0)

/-! ## Streams that are read backwards -/

/-- The bits of a stream in the order in which they are read: from the last byte's highest one bit, which is the end mark, down. -/
def backBits (bs : List Byte) : Option (List Bool) :=
  match bs.reverse with
  | [] => none
  | l :: _ =>
    if l = 0 then none
    else some (((bs.reverse.flatMap (fun b => (List.range 8).map (fun i => b.getLsbD (7 - i)))).dropWhile (fun x => !x)).drop 1)

/-- n bits of it, the first the most significant; bits beyond its beginning are zeros, and the flag says that some were. -/
def takeBits : Nat → List Bool → Nat × List Bool × Bool
  | 0, l => (0, l, false)
  | n + 1, [] => let r := takeBits n []; (r.1, [], true)
  | n + 1, b :: t => let r := takeBits n t; (b2n b * 2 ^ n + r.1, r.2)

/-! ## Huffman codes of literals -/

/-- The codes of weights: those of low weight, the longest ones, first. -/
def weightCodes (max : Nat) (ws : List Nat) : Huff :=
  ((List.range max).foldl (fun (e : Nat × Huff) k =>
    (ws.zipIdx.filter (fun x => x.1 == k + 1)).foldl (fun e x => (e.1 + 2 ^ k, e.2 ++ [(max - k, e.1 / 2 ^ k, x.2)])) e) (0, [])).2

/-- The code of weights of which the last is left out. -/
def huffOf (ws : List Nat) : Option Huff :=
  let sum := ws.foldl (fun n w => n + (if w = 0 then 0 else 2 ^ (w - 1))) 0
  let max := sum.log2 + 1
  let left := 2 ^ max - sum
  if sum = 0 ∨ 11 < max ∨ 2 ^ left.log2 ≠ left ∨ 255 < ws.length then none else some (weightCodes max (ws ++ [left.log2 + 1]))

/-- Weights from two interleaved FSE states, n at most; the stream ends them. -/
def fseWeights (t : Fse) : Nat → Nat → Nat → List Bool → List Nat → Option (List Nat)
  | 0, _, _, _, _ => none
  | n + 1, a, b, l, acc =>
    let c := t.cell a
    let (v, l1, past) := takeBits c.2.1 l
    if past then some (acc ++ [c.1, (t.cell b).1]) else fseWeights t n b (c.2.2 + v) l1 (acc ++ [c.1])

/-- A Huffman tree description: the code and the bytes it takes. -/
def huffRead (bs : List Byte) : Option (Huff × Nat) :=
  match bs with
  | [] => none
  | h :: t =>
    if 128 ≤ h.toNat then
      let n := h.toNat - 127
      let ws := (t.take ((n + 1) / 2)).flatMap (fun b => [b.toNat / 16, b.toNat % 16])
      if t.length < (n + 1) / 2 then none else (huffOf (ws.take n)).map (fun c => (c, 1 + (n + 1) / 2))
    else
      let body := t.take h.toNat
      if t.length < h.toNat then none
      else match fseRead 6 255 body with
        | none => none
        | some (f, k) =>
          match backBits (body.drop k) with
          | none => none
          | some l =>
            let (a, l1, o1) := takeBits f.al l
            let (b, l2, o2) := takeBits f.al l1
            if o1 || o2 then none
            else match fseWeights f 255 a b l2 [] with
              | none => none
              | some ws => (huffOf ws).map (fun c => (c, 1 + h.toNat))

/-- Literals of a stream until its bits are used up, n at most. -/
def huffAll (h : Huff) : Nat → Bits → List Byte → Option (List Byte)
  | 0, b, acc => if b.left.isEmpty then some acc else none
  | n + 1, b, acc =>
    if b.left.isEmpty then some acc
    else match Huff.sym h 11 0 0 b with
      | none => none
      | some (s, c) => huffAll h n c (acc ++ [BitVec.ofNat 8 s])

/-- A stream of n literals. -/
def huffStream (h : Huff) (n : Nat) (bs : List Byte) : Option (List Byte) :=
  match backBits bs with
  | none => none
  | some l => (huffAll h n { left := l, pos := 0 } []).bind (fun r => if r.length = n then some r else none)

/-- The four streams of n literals behind their jump table. -/
def huffFour (h : Huff) (n : Nat) (bs : List Byte) : Option (List Byte) :=
  let z (j : Nat) : Nat := leNat ((bs.drop (2 * j)).take 2)
  let body := bs.drop 6
  let q := (n + 3) / 4
  if bs.length < 6 ∨ body.length < z 0 + z 1 + z 2 ∨ n < 3 * q then none
  else match huffStream h q (body.take (z 0)), huffStream h q ((body.drop (z 0)).take (z 1)),
      huffStream h q ((body.drop (z 0 + z 1)).take (z 2)), huffStream h (n - 3 * q) (body.drop (z 0 + z 1 + z 2)) with
    | some a, some b, some c, some d => some (a ++ b ++ c ++ d)
    | _, _, _, _ => none

/-! ## Blocks -/

/-- What a frame carries from block to block: tables, repeat offsets, what has been produced (newest byte first, above a
dictionary), how much of it is output, and the window. -/
structure ZFrame where
  huff   : Option Huff
  ll     : Option Fse
  off    : Option Fse
  ml     : Option Fse
  rep    : Nat × Nat × Nat
  hist   : List Byte
  made   : Nat
  window : Nat

/-- The literals section of a block: the literals, the code in force after it, and the bytes it takes. -/
def zLiterals (z : ZFrame) (bs : List Byte) : Option (List Byte × Option Huff × Nat) :=
  let b0 := (bs.getD 0 0).toNat
  let typ := b0 % 4
  let sf := b0 / 4 % 4
  if bs.isEmpty then none
  else if typ < 2 then
    let (hl, n) := if sf % 2 = 0 then (1, b0 / 8) else if sf = 1 then (2, leNat (bs.take 2) / 16) else (3, leNat (bs.take 3) / 16)
    let body := bs.drop hl
    let k := if typ = 0 then n else 1
    if bs.length < hl ∨ body.length < k ∨ 131072 < n then none
    else some (if typ = 0 then body.take n else List.replicate n (body.getD 0 0), z.huff, hl + k)
  else
    let (hl, w) := if sf < 2 then (3, 10) else if sf = 2 then (4, 14) else (5, 18)
    let v := leNat (bs.take hl) / 16
    let n := v % 2 ^ w
    let k := v / 2 ^ w
    let body := (bs.drop hl).take k
    if bs.length < hl + k ∨ 131072 < n then none
    else
      let code : Option (Huff × Nat) := if typ = 2 then huffRead body else z.huff.map (fun h => (h, 0))
      match code with
      | none => none
      | some (h, used) =>
        (if sf = 0 then huffStream h n (body.drop used) else huffFour h n (body.drop used)).map (fun l => (l, some h, hl + k))

/-- Default probabilities of literal lengths, match lengths and offsets. -/
def zDefLl : List Int :=
  [4, 3, 2, 2, 2, 2, 2, 2, 2, 2, 2, 2, 2, 1, 1, 1, 2, 2, 2, 2, 2, 2, 2, 2, 2, 3, 2, 1, 1, 1, 1, 1, -1, -1, -1, -1]
/-- Of match lengths. -/
def zDefMl : List Int :=
  [1, 4, 3, 2, 2, 2, 2, 2, 2] ++ List.replicate 37 1 ++ List.replicate 7 (-1)
/-- Of offsets. -/
def zDefOff : List Int := List.replicate 6 1 ++ [2, 2, 2] ++ List.replicate 15 1 ++ List.replicate 5 (-1)

/-- One table of the sequences section by its mode: default, one symbol, described, or the one before. -/
def zTable (mode maxAl maxSym defAl : Nat) (deflt : List Int) (prev : Option Fse) (bs : List Byte) : Option (Fse × Nat) :=
  match mode with
  | 0 => some (fseTable defAl deflt, 0)
  | 1 => match bs with
    | b :: _ => if maxSym < b.toNat then none else some (fseRle b.toNat, 1)
    | [] => none
  | 2 => fseRead maxAl maxSym bs
  | _ => prev.map (fun t => (t, 0))

/-- Base and extra bits of a literal length code. -/
def zLlCode (c : Nat) : Nat × Nat :=
  if c < 16 then (c, 0)
  else ([(16, 1), (18, 1), (20, 1), (22, 1), (24, 2), (28, 2), (32, 3), (40, 3), (48, 4), (64, 6), (128, 7), (256, 8), (512, 9),
    (1024, 10), (2048, 11), (4096, 12), (8192, 13), (16384, 14), (32768, 15), (65536, 16)]).getD (c - 16) (0, 0)

/-- Base and extra bits of a match length code. -/
def zMlCode (c : Nat) : Nat × Nat :=
  if c < 32 then (c + 3, 0)
  else ([(35, 1), (37, 1), (39, 1), (41, 1), (43, 2), (47, 2), (51, 3), (59, 3), (67, 4), (83, 4), (99, 5), (131, 7), (259, 8),
    (515, 9), (1027, 10), (2051, 11), (4099, 12), (8195, 13), (16387, 14), (32771, 15), (65539, 16)]).getD (c - 32) (0, 0)

/-- The offset that an offset value means, and the repeat offsets after it; none for an offset of 0. -/
def zOffset (rep : Nat × Nat × Nat) (v ll : Nat) : Option (Nat × Nat × Nat × Nat) :=
  let (a, b, c) := rep
  if 3 < v then some (v - 3, v - 3, a, b)
  else match v + (if ll = 0 then 1 else 0) with
    | 0 => none
    | 1 => some (a, a, b, c)
    | 2 => some (b, b, a, c)
    | 3 => some (c, c, a, b)
    | _ => if a ≤ 1 then none else some (a - 1, a - 1, a, b)

/-- A sequence executed: its literals, then its match, which may reach into a dictionary while the output fits the window. -/
def ZFrame.exec (z : ZFrame) (lits : List Byte) (ll ml v : Nat) : Option (ZFrame × List Byte) :=
  if lits.length < ll then none
  else match zOffset z.rep v ll with
    | none => none
    | some (o, rep) =>
      let hist := (lits.take ll).reverse ++ z.hist
      let made := z.made + ll
      if o = 0 ∨ hist.length < o ∨ (z.window < made ∧ z.window < o) then none
      else (copyBack o ml hist).map (fun h => ({ z with hist := h, made := made + ml, rep := rep }, lits.drop ll))

/-- n sequences from the three states; the stream must be used up by the last. -/
def zSeqs (tl tf tm : Fse) : Nat → Nat × Nat × Nat → List Bool → ZFrame → List Byte → Option (ZFrame × List Byte)
  | 0, _, l, z, lits => if l.isEmpty then some (z, lits) else none
  | n + 1, (sl, sf, sm), l, z, lits =>
    let cl := tl.cell sl
    let cf := tf.cell sf
    let cm := tm.cell sm
    let (xf, l1, o1) := takeBits cf.1 l
    let (xm, l2, o2) := takeBits (zMlCode cm.1).2 l1
    let (xl, l3, o3) := takeBits (zLlCode cl.1).2 l2
    if o1 || o2 || o3 then none
    else match z.exec lits ((zLlCode cl.1).1 + xl) ((zMlCode cm.1).1 + xm) (2 ^ cf.1 + xf) with
      | none => none
      | some (z1, rest) =>
        if n = 0 then zSeqs tl tf tm n (0, 0, 0) l3 z1 rest
        else
          let (yl, l4, o4) := takeBits cl.2.1 l3
          let (ym, l5, o5) := takeBits cm.2.1 l4
          let (yf, l6, o6) := takeBits cf.2.1 l5
          if o4 || o5 || o6 then none
          else zSeqs tl tf tm n (cl.2.2 + yl, cf.2.2 + yf, cm.2.2 + ym) l6 z1 rest

/-- The number of sequences and the bytes that it takes. -/
def zCount (bs : List Byte) : Option (Nat × Nat) :=
  match bs with
  | a :: t =>
    if a.toNat < 128 then some (a.toNat, 1)
    else match t with
      | b :: u =>
        if a.toNat < 255 then some ((a.toNat - 128) * 256 + b.toNat, 2)
        else match u with
          | c :: _ => some (b.toNat + c.toNat * 256 + 0x7F00, 3)
          | [] => none
      | [] => none
  | [] => none

/-- The rest of a block's literals behind its last sequence. -/
def ZFrame.tail (z : ZFrame) (lits : List Byte) : ZFrame := { z with hist := lits.reverse ++ z.hist, made := z.made + lits.length }

/-- A compressed block. -/
def ZFrame.compressed (z : ZFrame) (bs : List Byte) : Option ZFrame :=
  match zLiterals z bs with
  | none => none
  | some (lits, huff, a) =>
    let z := { z with huff := huff }
    let s0 := bs.drop a
    match zCount s0 with
    | none => none
    | some (n, k) =>
      if n = 0 then (if s0.length = k then some (z.tail lits) else none)
      else match s0.drop k with
        | [] => none
        | m :: s1 =>
          if m.toNat % 4 ≠ 0 then none
          else match zTable (m.toNat / 64) 9 35 6 zDefLl z.ll s1 with
            | none => none
            | some (tl, k1) =>
              match zTable (m.toNat / 16 % 4) 8 31 5 zDefOff z.off (s1.drop k1) with
              | none => none
              | some (tf, k2) =>
                match zTable (m.toNat / 4 % 4) 9 52 6 zDefMl z.ml (s1.drop (k1 + k2)) with
                | none => none
                | some (tm, k3) =>
                  match backBits (s1.drop (k1 + k2 + k3)) with
                  | none => none
                  | some l =>
                    let (sl, l1, o1) := takeBits tl.al l
                    let (sf, l2, o2) := takeBits tf.al l1
                    let (sm, l3, o3) := takeBits tm.al l2
                    if o1 || o2 || o3 then none
                    else (zSeqs tl tf tm n (sl, sf, sm) l3 { z with ll := some tl, off := some tf, ml := some tm } lits).map
                      (fun e => e.1.tail e.2)

/-- How a frame or its blocks end: behind them, with the state; or an event: the state, its code and its offset in the message. -/
inductive ZEnd where
  | next (z : ZFrame) (ofs : Nat)
  | bad (z : ZFrame) (code ofs : Nat)

/-- The largest block of a frame. -/
def ZFrame.blockMax (z : ZFrame) : Nat := min z.window 131072

/-- The blocks of a frame from an offset on, n at most. -/
def zBlocks (msg : List Byte) : Nat → Nat → ZFrame → ZEnd
  | 0, ofs, z => .bad z 0x13 ofs
  | n + 1, ofs, z =>
    let h := leNat ((msg.drop ofs).take 3)
    let size := h / 8
    let k := if h / 2 % 4 = 1 then 1 else size
    let body := (msg.drop (ofs + 3)).take k
    if msg.length < ofs + 3 + k ∨ z.blockMax < size then .bad z 0x13 ofs
    else
      let r : Option ZFrame := match h / 2 % 4 with
        | 0 => some (z.tail body)
        | 1 => some (z.tail (List.replicate size (body.getD 0 0)))
        | 2 => z.compressed body
        | _ => none
      match r with
      | none => .bad z 0x13 ofs
      | some z1 =>
        if z.made + z.blockMax < z1.made then .bad z 0x13 ofs
        else if h % 2 = 1 then .next z1 (ofs + 3 + k) else zBlocks msg n (ofs + 3 + k) z1

/-! ## The content checksum -/

/-- The primes of XXH64. -/
def xxP1 : Word := 0x9E3779B185EBCA87
/-- The second. -/
def xxP2 : Word := 0xC2B2AE3D27D4EB4F
/-- The third. -/
def xxP3 : Word := 0x165667B19E3779F9
/-- The fourth. -/
def xxP4 : Word := 0x85EBCA77C2B2AE63
/-- The fifth. -/
def xxP5 : Word := 0x27D4EB2F165667C5

/-- One round of a lane. -/
def xxRound (acc lane : Word) : Word := (acc + lane * xxP2).rotateLeft 31 * xxP1

/-- The four lanes after the 32-byte stripes, n at most, and what is left of the bytes. -/
def xxStripes : Nat → List Byte → Word × Word × Word × Word → (Word × Word × Word × Word) × List Byte
  | 0, bs, v => (v, bs)
  | n + 1, bs, v =>
    if bs.length < 32 then (v, bs)
    else
      let w (j : Nat) : Word := BitVec.ofNat 64 (leNat ((bs.drop (8 * j)).take 8))
      xxStripes n (bs.drop 32) (xxRound v.1 (w 0), xxRound v.2.1 (w 1), xxRound v.2.2.1 (w 2), xxRound v.2.2.2 (w 3))

/-- The bytes behind the stripes, n steps at most. -/
def xxRest : Nat → List Byte → Word → Word
  | 0, _, h => h
  | n + 1, bs, h =>
    let w (k : Nat) : Word := BitVec.ofNat 64 (leNat (bs.take k))
    if 8 ≤ bs.length then xxRest n (bs.drop 8) ((h ^^^ xxRound 0 (w 8)).rotateLeft 27 * xxP1 + xxP4)
    else if 4 ≤ bs.length then xxRest n (bs.drop 4) ((h ^^^ (w 4 * xxP1)).rotateLeft 23 * xxP2 + xxP3)
    else if bs.isEmpty then h
    else xxRest n (bs.drop 1) ((h ^^^ (w 1 * xxP5)).rotateLeft 11 * xxP1)

/-- XXH64 with seed 0. -/
def xxh64 (bs : List Byte) : Word :=
  let (v, rest) := xxStripes bs.length bs (xxP1 + xxP2, xxP2, 0, -xxP1)
  let merge (h x : Word) : Word := (h ^^^ xxRound 0 x) * xxP1 + xxP4
  let h0 := if bs.length < 32 then xxP5
    else merge (merge (merge (merge (v.1.rotateLeft 1 + v.2.1.rotateLeft 7 + v.2.2.1.rotateLeft 12 + v.2.2.2.rotateLeft 18)
      v.1) v.2.1) v.2.2.1) v.2.2.2
  let h1 := xxRest bs.length rest (h0 + BitVec.ofNat 64 bs.length)
  let h2 := (h1 ^^^ (h1 >>> 33)) * xxP2
  let h3 := (h2 ^^^ (h2 >>> 29)) * xxP3
  h3 ^^^ (h3 >>> 32)

/-! ## Frames -/

/-- A dictionary: its id, 0 for one of raw content; what a frame starts with; none when its tables are malformed. -/
def zDict (dict : List Byte) (window : Nat) : Option (Nat × ZFrame) :=
  let raw : ZFrame := { huff := none, ll := none, off := none, ml := none, rep := (1, 4, 8), hist := dict.reverse, made := 0,
                        window := window }
  if leNat (dict.take 4) ≠ 0xEC30A437 ∨ dict.length < 8 then some (0, raw)
  else
    let id := leNat ((dict.drop 4).take 4)
    let d := dict.drop 8
    match huffRead d with
    | none => none
    | some (h, a) =>
      match fseRead 8 31 (d.drop a) with
      | none => none
      | some (off, b) =>
        match fseRead 9 52 (d.drop (a + b)) with
        | none => none
        | some (ml, c) =>
          match fseRead 9 35 (d.drop (a + b + c)) with
          | none => none
          | some (ll, e) =>
            let t := d.drop (a + b + c + e)
            let r (j : Nat) : Nat := leNat ((t.drop (4 * j)).take 4)
            if t.length < 12 then none
            else some (id, { raw with huff := some h, ll := some ll, off := some off, ml := some ml, rep := (r 0, r 1, r 2),
                                      hist := (t.drop 12).reverse })

/-- A frame header behind its magic: window, dictionary id, content size if given, checksum flag, and its length in bytes. -/
def zHeader (bs : List Byte) : Option (Nat × Nat × Option Nat × Bool × Nat) :=
  match bs with
  | [] => none
  | fh :: t =>
    let f := fh.toNat
    let single := fh.getLsbD 5
    let wl := if single then 0 else 1
    let dl := [0, 1, 2, 4].getD (f % 4) 0
    let cl := [if single then 1 else 0, 2, 4, 8].getD (f / 64) 0
    if fh.getLsbD 3 = true ∨ t.length < wl + dl + cl then none
    else
      let w := (t.getD 0 0).toNat
      let base := 2 ^ (10 + w / 8)
      let size := leNat ((t.drop (wl + dl)).take cl) + (if cl = 2 then 256 else 0)
      some (if single then size else base + base / 8 * (w % 8), leNat ((t.drop wl).take dl),
        if cl = 0 then none else some size, fh.getLsbD 2, 1 + wl + dl + cl)

/-- The largest window that the decoder takes (R288). -/
def zWindowMax : Nat := 8388608

/-- A frame from the offset of its magic: header, dictionary, blocks, size and checksum (R288, R386). An output of more than 64 MiB
is met by the cap of every codec. -/
def zFrame (dict msg : List Byte) (slot : Bool) (ofs : Nat) : ZEnd :=
  let none0 : ZFrame := { huff := none, ll := none, off := none, ml := none, rep := (1, 4, 8), hist := [], made := 0, window := 0 }
  match zHeader (msg.drop (ofs + 4)) with
  | none => .bad none0 0x13 ofs
  | some (window, id, size, check, len) =>
    if zWindowMax < window then .bad none0 0x13 (ofs + 4)
    else match (if slot then zDict dict window else some (0, { none0 with window := window })) with
      | none => .bad none0 0x13 ofs
      | some (have_, z) =>
        if id ≠ 0 ∧ have_ ≠ id then .bad none0 0x15 (ofs + 4)
        else match zBlocks msg (msg.length + 1) (ofs + 4 + len) z with
          | .bad z1 code at_ => .bad z1 code at_
          | .next z1 o =>
            if size.any (fun n => n != z1.made) then .bad z1 0x13 o
            else if check = false then .next z1 o
            else if msg.length < o + 4 then .bad z1 0x13 o
            else if leNat ((msg.drop o).take 4) ≠ (xxh64 (z1.hist.take z1.made).reverse).toNat % 2 ^ 32 then .bad z1 0x14 o
            else .next z1 (o + 4)

/-- The output of a frame. -/
def ZFrame.out (z : ZFrame) : List Byte := (z.hist.take z.made).reverse

/-- The frames of a message from an offset on, n at most, behind an output: skippable frames are skipped, and bytes behind the last
frame that begin none are trailing (R288, R386). -/
def zFrames (dict msg : List Byte) (slot : Bool) : Nat → Nat → List Byte → Decoded
  | 0, ofs, out => .broken out 0x13 ofs ofs
  | n + 1, ofs, out =>
    let magic := leNat ((msg.drop ofs).take 4)
    if msg.length ≤ ofs ∧ 0 < ofs then .whole out
    else if msg.length < ofs + 4 ∨ (magic ≠ 0xFD2FB528 ∧ magic / 16 ≠ 0x184D2A5) then
      .broken out (if ofs = 0 then 0x13 else 0x16) ofs (min msg.length (ofs + 4))
    else if magic ≠ 0xFD2FB528 then
      let k := leNat ((msg.drop (ofs + 4)).take 4)
      if msg.length < ofs + 8 + k then .broken out 0x13 ofs msg.length else zFrames dict msg slot n (ofs + 8 + k) out
    else match zFrame dict msg slot ofs with
      | .bad z code o => .broken (out ++ z.out) code o (min msg.length (if code = 0x14 then o + 4 else o))
      | .next z o => zFrames dict msg slot n o (out ++ z.out)

/-- Zstandard with the dictionary of a slot, if one is named (R287, R288). -/
def decodeZstd (dict : List Byte) (slot : Bool) (msg : List Byte) : Decoded := zFrames dict msg slot (msg.length + 1) 0 []

/-- A stored message through its codec: 0 STORED, 1 DEFLATE, 2 zlib, 3 gzip, 4 Zstandard with the dictionary of its slot, 0 for none
(R287, R288). -/
def decompress (codec slot : Nat) (dict msg : List Byte) : Decoded :=
  capped (fun m => match codec with
    | 0 => .whole m
    | 1 => decodeDeflate m
    | 2 => decodeZlib m
    | 3 => gunzip m (m.length + 1) 0 []
    | _ => decodeZstd dict (slot != 0) m) msg

end Sys2Proof.Machine
end

