-- ==== Sys2Proof/Machine/Ingest.lean ====
section
/-! DEFINITION. The ingest unit: character sets (R289), the tokeniser (R290), messages and their tokens (R287, R291), and the
quarantine path (R386 to R389). -/

namespace Sys2Proof.Machine

/-! ## Character sets (R289) -/

/-- What a stage makes of its input: its output, and the event that stopped it, with code and offset in its input. -/
structure Staged (α : Type) where
  out : List α
  bad : Option (Nat × Nat)
  deriving DecidableEq, Repr

/-- U+FFFD. -/
def replacement : Nat := 0xFFFD

/-- Continuation bytes that follow a UTF-8 lead byte, the bits that it gives, and the range of the first of them; none for a
byte that leads nothing. -/
def utf8Lead (b : Nat) : Option (Nat × Nat × Nat × Nat) :=
  if b < 0x80 then some (0, b, 0, 0)
  else if b < 0xC2 then none
  else if b < 0xE0 then some (1, b % 32, 0x80, 0xBF)
  else if b < 0xF0 then some (2, b % 16, if b = 0xE0 then 0xA0 else 0x80, if b = 0xED then 0x9F else 0xBF)
  else if b < 0xF5 then some (3, b % 8, if b = 0xF0 then 0x90 else 0x80, if b = 0xF4 then 0x8F else 0xBF)
  else none

/-- How a sequence at the start of some bytes reads: a code point and its bytes, an invalid sequence of some bytes with the code
of R386, or cut off by the end. -/
inductive Seq where
  | point (cp n : Nat)
  | invalid (code n : Nat)
  | short
  deriving DecidableEq, Repr

/-- n continuation bytes, the next one in a range. -/
def utf8Tail : Nat → Nat → Nat → Nat → Nat → List Byte → Seq
  | 0, cp, len, _, _, _ => .point cp len
  | _ + 1, _, _, _, _, [] => .short
  | n + 1, cp, len, lo, hi, b :: t =>
    if lo ≤ b.toNat ∧ b.toNat ≤ hi then utf8Tail n (cp * 64 + b.toNat % 64) (len + 1) 0x80 0xBF t else .invalid 0x20 len

/-- A UTF-8 sequence (R289). -/
def utf8Seq (bs : List Byte) : Seq :=
  match bs with
  | [] => .short
  | b :: t =>
    match utf8Lead b.toNat with
    | none => .invalid 0x20 1
    | some (n, v, lo, hi) => utf8Tail n v 1 lo hi t

/-- A 16-bit unit. -/
def unit16 (big : Bool) (a b : Byte) : Nat := if big then a.toNat * 256 + b.toNat else b.toNat * 256 + a.toNat

/-- A UTF-16 sequence: an unpaired surrogate is invalid (R289). -/
def utf16Seq (big : Bool) (bs : List Byte) : Seq :=
  match bs with
  | a :: b :: t =>
    let u := unit16 big a b
    if u < 0xD800 ∨ 0xDFFF < u then .point u 2
    else if 0xDC00 ≤ u then .invalid 0x20 2
    else match t with
      | c :: d :: _ =>
        let v := unit16 big c d
        if 0xDC00 ≤ v ∧ v ≤ 0xDFFF then .point (0x10000 + (u - 0xD800) * 1024 + (v - 0xDC00)) 4 else .invalid 0x20 2
      | _ => .short
  | _ => .short

/-- A table entry: a code point, or unmapped. -/
def tableEntry (t : List (BitVec 32)) (b : Byte) : Option Nat :=
  let e := t.getD b.toNat 0xFFFFFFFF
  if e = 0xFFFFFFFF then none else some (fieldN e 0 21)

/-- A byte of a single-byte table (R289). -/
def singleSeq (t : List (BitVec 32)) (bs : List Byte) : Seq :=
  match bs with
  | [] => .short
  | b :: _ => match tableEntry t b with
    | some cp => .point cp 1
    | none => .invalid 0x21 1

/-- A sequence of a multi-byte table: a lead byte maps to a code point, or to a second-level table for the next byte (R289). -/
def multiSeq (lead : List (BitVec 32)) (second : Nat → List (BitVec 32)) (bs : List Byte) : Seq :=
  match bs with
  | [] => .short
  | b :: t =>
    let e := lead.getD b.toNat 0xFFFFFFFF
    if e = 0xFFFFFFFF then .invalid 0x21 1
    else if e.getLsbD 31 = false then .point (fieldN e 0 21) 1
    else match t with
      | [] => .short
      | c :: _ => match tableEntry (second (fieldN e 0 7)) c with
        | some cp => .point cp 2
        | none => .invalid 0x21 2

/-- Bytes read as sequences, n at most, from an offset on. A sequence that the end cuts off is invalid when the input is whole, and
left alone when an event of the decompressor cut it. -/
def convert (seq : List Byte → Seq) (repl whole : Bool) : Nat → Nat → List Byte → Staged Nat
  | 0, _, _ => { out := [], bad := none }
  | n + 1, ofs, bs =>
    if bs.isEmpty then { out := [], bad := none }
    else
      let go (cp k : Nat) : Staged Nat :=
        let r := convert seq repl whole n (ofs + k) (bs.drop k)
        { r with out := cp :: r.out }
      match seq bs with
      | .point cp k => go cp k
      | .invalid code k => if repl then go replacement k else { out := [], bad := some (code, ofs) }
      | .short =>
        if whole = false then { out := [], bad := none }
        else if repl then go replacement bs.length else { out := [], bad := some (0x20, ofs) }

/-- The byte order mark of an encoding, as many bytes of it as a message starts with: all or none. -/
def bomLen (cset : Nat) (bs : List Byte) : Nat :=
  let m : List Byte := if cset = 0 then [0xEF, 0xBB, 0xBF] else if cset = 1 then [0xFF, 0xFE] else if cset = 2 then [0xFE, 0xFF] else []
  if bs.take m.length = m then m.length else 0

/-- The table of a character set, when it needs one: single-byte table n, or multi-byte table n as table 32 + n (log 9). -/
def csetTable (cset : Nat) : Option Nat :=
  if cset < 0x20 then none else if cset < 0x40 then some (cset - 0x20) else some (32 + (cset - 0x40))

/-- How a character set reads a sequence. -/
def Die.seqOf (d : Die) (cset : Nat) : List Byte → Seq :=
  match csetTable cset with
  | none => if cset = 0 then utf8Seq else utf16Seq (cset == 2)
  | some n =>
    let t := tabGet [] d.charTabs n
    if n < 32 then singleSeq t else multiSeq t (fun i => tabGet [] d.charTabs (256 + 128 * (n - 32) + i))

/-- The code points of a message's decoded bytes (R289). -/
def Die.toPoints (d : Die) (cset : Nat) (repl whole : Bool) (bs : List Byte) : Staged Nat :=
  let k := bomLen cset bs
  convert (d.seqOf cset) repl whole (bs.length + 1) k (bs.drop k)

/-- The UTF-8 bytes of a code point. -/
def utf8Of (c : Nat) : List Byte :=
  let b (n : Nat) : Byte := BitVec.ofNat 8 n
  if c < 0x80 then [b c]
  else if c < 0x800 then [b (0xC0 + c / 64), b (0x80 + c % 64)]
  else if c < 0x10000 then [b (0xE0 + c / 4096), b (0x80 + c / 64 % 64), b (0x80 + c % 64)]
  else [b (0xF0 + c / 262144 % 8), b (0x80 + c / 4096 % 64), b (0x80 + c / 64 % 64), b (0x80 + c % 64)]

/-! ## The tokeniser (R290) -/

/-- The class of a code point. -/
def Vocab.cls (v : Vocab) (c : Nat) : Nat := if c < 65536 then tabGet 0 v.classes c else 15

/-- The text is split between two code points. -/
def Vocab.splits (v : Vocab) (c d : Nat) : Bool := tabGet 0 v.matrix (v.cls c) / 2 ^ v.cls d % 2 == 1

/-- The pieces of a text, as code points. -/
def Vocab.pieces (v : Vocab) : List Nat → List (List Nat)
  | [] => []
  | c :: t =>
    match t, v.pieces t with
    | d :: _, p :: ps => if v.splits c d then [c] :: p :: ps else (c :: p) :: ps
    | _, _ => [[c]]

/-- The longest entry of the vocabulary that some bytes start with: its length and id. -/
def Vocab.longest (v : Vocab) (bs : List Byte) : Option (Nat × Nat) :=
  v.entries.foldl (fun m e =>
    if e.1.isEmpty ∨ bs.take e.1.length ≠ e.1 then m
    else match m with
      | none => some (e.1.length, e.2)
      | some p => if p.1 < e.1.length then some (e.1.length, e.2) else m) none

/-- A vocabulary has byte fallback. -/
def Vocab.fallback (v : Vocab) : Bool := v.fbbase != 0xFFFFFFFF

/-- The ids of a piece with their offsets, n at most; of a piece that an event cut, those that no byte still missing could change:
entries are 1 to 64 bytes. -/
def Vocab.pieceIds (v : Vocab) (whole : Bool) : Nat → Nat → List Byte → Staged (Nat × Nat)
  | 0, _, _ => { out := [], bad := none }
  | n + 1, ofs, bs =>
    match bs with
    | [] => { out := [], bad := none }
    | b :: _ =>
      let go (id k : Nat) : Staged (Nat × Nat) :=
        let r := v.pieceIds whole n (ofs + k) (bs.drop k)
        { r with out := (id, ofs) :: r.out }
      if whole = false ∧ bs.length < 64 then { out := [], bad := none }
      else match v.longest bs with
        | some (k, id) => go id k
        | none => if v.fallback then go (v.fbbase.toNat + b.toNat) 1 else { out := [], bad := some (0x30, ofs) }

/-- The ids of the pieces of a text from an offset on; the last piece is cut when the text is. -/
def Vocab.ids (v : Vocab) (whole : Bool) : Nat → List (List Nat) → Staged (Nat × Nat)
  | _, [] => { out := [], bad := none }
  | ofs, p :: ps =>
    let bs := p.flatMap utf8Of
    let r := v.pieceIds (whole || !ps.isEmpty) (bs.length + 1) ofs bs
    if r.bad.isSome then r
    else
      let q := v.ids whole (ofs + bs.length) ps
      { q with out := r.out ++ q.out }

/-! ## A message through the unit -/

/-- A token of a message (R291). -/
def ingTokenOf (e : Nat × Nat) : Token :=
  { kind := .data, side := 0, colour := 0, vec := false, data := BitVec.ofNat 512 (e.1 % 2 ^ 32 + e.2 % 2 ^ 32 * 2 ^ 32) }

/-- The END marker of a message, with POISON after a quarantine (R291, R387). -/
def ingEnd (m : IngMsg) (bad : Bool) : Token :=
  { kind := .endm, side := if bad then 0x20 else 0, colour := 0, vec := false, data := BitVec.ofNat 512 (fieldN m.desc 128 32) }

/-- The ids of a stored message's bytes, or of those before an event; and the event: code, stage, offset, bytes consumed. A later
stage's event lies earlier in the text than an earlier stage's, and comes first. -/
def Die.runMsg (d : Die) (desc : Vec) (msg : List Byte) : List (Nat × Nat) × Option (Nat × Nat × Nat × Nat) :=
  let dict := fieldN desc 99 5
  let cset := fieldN desc 104 7
  let len := msg.length
  if fieldN desc 96 3 = 4 ∧ dict ≠ 0 ∧ (tabFind d.dicts dict).isNone then ([], some (0x15, 1, 0, 0))
  else if (csetTable cset).any (fun n => (tabFind d.charTabs n).isNone) then ([], some (0x22, 2, 0, 0))
  else match tabFind d.vocabs (fieldN desc 112 2) with
    | none => ([], some (0x31, 3, 0, 0))
    | some v =>
      let (bytes, ev, used) := match decompress (fieldN desc 96 3) dict (tabGet [] d.dicts dict) msg with
        | .whole out => (out, none, len)
        | .broken out code ofs c => (out, some (code, 1, ofs, c), c)
      let pts := d.toPoints cset (bitN desc 111) ev.isNone bytes
      let ids := v.ids (ev.isNone && pts.bad.isNone) 0 (v.pieces pts.out)
      (ids.out, match ids.bad, pts.bad with
        | some b, _ => some (b.1, 3, b.2, used)
        | none, some b => some (b.1, 2, b.2, used)
        | none, none => ev)

/-- The message is the first of its channel. -/
def Die.first (d : Die) (m : IngMsg) : Bool :=
  ((d.msgs.takeWhile (fun x => x.ticket != m.ticket)).all (fun x => x.chan != m.chan))

/-- A message of a die. -/
def State.ingMsg (s : State) (die ticket : Nat) : Option IngMsg := (s.die die).msgs.find? (fun m => m.ticket == ticket)

/-- A message changed. -/
def State.modMsg (s : State) (die ticket : Nat) (f : IngMsg → IngMsg) : State :=
  s.modDie die (fun d => { d with msgs := d.msgs.map (fun m => if m.ticket = ticket then f m else m) })

/-- The address at which an engine's access stops. -/
def XErr.at_ : XErr → Word
  | .park va _ => va
  | .host _ _ => 0
  | .bad _ _ va => va

/-- The stored message is read and run through the stages (R287 to R290); one that cannot be read is an event of the fetch
(R386 code 0x02), at the first byte that cannot be read. -/
def State.decodeMsg (s : State) (die : Nat) (m : IngMsg) : State :=
  let core := m.ctx.core
  let va := va48 m.desc 0
  let n := fieldN m.desc 64 32
  let r : List (Nat × Nat) × Option (Nat × Nat × Nat × Nat) := match s.readEngine core (s.core core).asid false va n with
    | .error x => ([], some (0x02, 0, (x.at_ - va).toNat, (x.at_ - va).toNat))
    | .ok bs => (s.die die).runMsg m.desc (bs.map (·.1))
  (s.touchRange core (s.core core).asid va n).modMsg die m.ticket (fun m =>
    { m with out := some (r.1.map ingTokenOf ++ (if r.2.isNone then [ingEnd m false] else [])), bad := r.2, closed := r.2.isNone,
             progress := s.cycle })

/-- One token of a message leaves under credit (R42, R291). -/
def State.sendIng (s : State) (die : Nat) (m : IngMsg) (t : Token) (rest : List Token) : State :=
  if tabGet 0 (s.die die).ingCredits m.chan < (t.cost : Int) then s
  else
    ((s.modDie die (fun d => { d with ingCredits := tabSet d.ingCredits m.chan (tabGet 0 d.ingCredits m.chan - (t.cost : Int)) })).modMsg
      die m.ticket (fun m => { m with out := some rest, progress := s.cycle })).send
        { src := .ingest die, dst := .core m.core, cls := .token, tenant := m.ctx.tenant, msg := .chan (m.chan / 4 % 2 ^ 20) (m.chan % 4) t,
          held := false }

/-- A token of the message's channel is still on its way. -/
def State.ingOut (s : State) (die : Nat) (m : IngMsg) : Bool :=
  s.net.any (fun p => p.src == .ingest die && (match p.msg with
    | .chan v q _ => ingestKey p.tenant v q == m.chan
    | _ => false))

/-- The message is complete: its arrival, its core's count and its frame's, and it is gone; the watchdogs of those that waited behind it
on its channel start anew (R287, R291, R292, R386). -/
def State.finishMsg (s : State) (die : Nat) (m : IngMsg) : State :=
  (((s.modDie die (fun d =>
    { d with msgs := (d.msgs.filter (fun x => x.ticket != m.ticket)).map (fun x =>
        if x.chan = m.chan then { x with progress := s.cycle } else x) })).arrive (.ingest die) m.ctx.tenant
    (BitVec.ofNat 32 (fieldN m.desc 192 32)) (fieldN m.desc 224 6) 1).modCore m.ctx.core (fun c =>
      { c with inflight := c.inflight - 1 })).copyDone m.ctx

/-- INGEST_TOKEN: the next step of a message: it is read and decoded, or its next token or marker is sent, or, once the marker has
entered the channel, it is complete (R288 to R291). -/
def ingestToken (die ticket : Nat) (s : State) : State :=
  match s.ingMsg die ticket with
  | none => s
  | some m =>
    if (s.die die).first m = false then s
    else match m.out with
      | none => s.decodeMsg die m
      | some (t :: rest) => s.sendIng die m t rest
      | some [] => if m.closed = false ∨ s.ingOut die m = true then s else s.finishMsg die m

/-- INGEST_TOKEN. -/
def execIngestToken (die msg : Nat) : State → Host.Outcome State Fault Refusal := eventOf (ingestToken die msg)

/-! ## Quarantine (R386 to R389) -/

/-- The quarantine record (R388). -/
def quarRecord (m : IngMsg) (code stage ofs used : Nat) : List Byte :=
  leBytes 4 (fieldN m.desc 128 32) ++ leBytes 2 m.ticket ++ leBytes 2 (stage + code * 16) ++ leBytes 8 ofs ++ leBytes 8 used
    ++ leBytes 8 (m.ctx.tenant % 4096 + m.ctx.core % 8192 * 4096)

/-- The record enters the die's ring, or is dropped with an error record when the ring is full (R389). A record whose line is an armed
sync line is not written, and the refusal is recorded (R380; log 74). -/
def State.quarPut (s : State) (die : Nat) (m : IngMsg) (code stage ofs used : Nat) : State :=
  let q := (s.die die).qring
  if q.full then
    (s.modDie die (fun d => { d with qring := { d.qring with ovf := true } })).logRec die
      (unitErr 0x13 code 6 m.ctx.core 6 0 m.ctx.tenant).toRec
  else
    let t := (q.tail + 1) % 1024
    let pa := q.base * 65536 + 32 * q.tail
    (if s.syncHit pa 32 then s.logRec die { unitErr 0x04 0x03 5 m.ctx.core 6 0 m.ctx.tenant with addr := some (pa, true) }.toRec
     else s.writeBytes 0 pa (quarRecord m code stage ofs used) 0).modDie die (fun d =>
      { d with qring := { d.qring with tail := t, full := t == q.head } })

/-- The counts of INGQ (R292): of every core of the job, and the overflow for every core of the die. -/
def State.quarCount (s : State) (die : Nat) (m : IngMsg) (full : Bool) : State :=
  let own := s.core m.ctx.core
  { s with cores := s.cores.map (fun e =>
      let job := e.2.asid == own.asid && e.2.jwork == own.jwork
      let c1 := if job then { e.2 with qcount := if full then e.2.qcount else e.2.qcount + 1, qlast := fieldN m.desc 128 32 } else e.2
      (e.1, if full && dieOf e.1 == die then { c1 with qover := true } else c1)) }

/-- A message is quarantined: it stops, its record is written, and a POISON END marker is still to be sent, unless its channel was
never found (R387). -/
def State.quarantineMsg (s : State) (die : Nat) (m : IngMsg) (code stage ofs used : Nat) : State :=
  ((s.quarCount die m (s.die die).qring.full).quarPut die m code stage ofs used).modMsg die m.ticket (fun m =>
    { m with out := some (if code = 0x01 then [] else [ingEnd m true]), bad := none, closed := true, progress := s.cycle })

/-- QUARANTINE: the event of a message has been met. One of the tokeniser or the character set comes after the tokens before it; one
of the fetch or the decompressor, which run ahead, at any time (R386, R387). -/
def quarantine (die ticket : Nat) (s : State) : State :=
  match s.ingMsg die ticket with
  | none => s
  | some m =>
    match m.bad with
    | none => s
    | some (code, stage, ofs, used) =>
      if (s.die die).first m = false ∨ (2 ≤ stage ∧ m.out ≠ some []) then s else s.quarantineMsg die m code stage ofs used

/-- QUARANTINE. -/
def execQuarantine (die msg : Nat) : State → Host.Outcome State Fault Refusal := eventOf (quarantine die msg)

/-- Cycles without progress after which the watchdog quarantines a message (R386). -/
def ingWatch : Nat := 2 ^ 20

/-- INGEST_WATCHDOG: a message that has neither consumed a byte nor emitted a token for 2^20 cycles while the unit holds a credit
(R386 code 0x40). -/
def ingestWatchdog (die ticket : Nat) (s : State) : State :=
  match s.ingMsg die ticket with
  | none => s
  | some m =>
    if (s.die die).first m = false ∨ tabGet 0 (s.die die).ingCredits m.chan < 1 ∨ s.cycle < m.progress + ingWatch
        ∨ m.out = some [] then s
    else s.quarantineMsg die m 0x40 4 0 (if m.out.isNone then 0 else fieldN m.desc 64 32)

/-- INGEST_WATCHDOG. -/
def execIngestWatchdog (die msg : Nat) : State → Host.Outcome State Fault Refusal := eventOf (ingestWatchdog die msg)

/-! ## Submission (R287) -/

/-- The core and channel key that a message's destination names through the placement table of its core, when it is a port of the
die that an ingest unit feeds (R287). -/
def State.ingDest (s : State) (core dest : Nat) : Option (Nat × Nat) :=
  let v := dest / 8 % 2 ^ 20
  let p := dest / 2 % 4
  match placeOf (s.placeTab core) v with
  | none => none
  | some c =>
    if isFar c ∨ dieOf c ≠ dieOf core ∨ dest % 2 = 1 then none
    else match (s.core c).chanOf v p with
      | none => none
      | some i => if ((s.core c).chan i).pcore = ingestPort then some (c, ingestKey (s.tenantOf c) v p) else none

/-- INGS at its release: the message is submitted; one whose destination does not resolve is quarantined (R287, R386 code 0x01). -/
def State.submitMsg (s : State) (x : Ctx) (ticket : Nat) (d : Vec) : State :=
  let die := dieOf x.core
  let dst := s.ingDest x.core (fieldN d 160 32)
  let m : IngMsg := { ticket := ticket, desc := d, ctx := x, core := (dst.map (·.1)).getD 0, chan := (dst.map (·.2)).getD (2 ^ 40 + ticket),
                      out := if dst.isSome then none else some [], bad := if dst.isSome then none else some (0x01, 0, 0, 0),
                      closed := false, progress := s.cycle }
  ((s.modDie die (fun k => { k with msgs := k.msgs ++ [m] })).modCore x.core (fun c => { c with inflight := c.inflight + 1 })).raiseCopy x

end Sys2Proof.Machine
end

