-- ==== Sys2Proof/Machine/Fetch.lean ====
section
/-! DEFINITION. The fetch of an instruction (R95, R373), the clock, and the placing of a word where the next step
fetches (log 8). -/

namespace Sys2Proof.Machine

/-- Word addresses of an instruction store (R95). -/
def codeWords : Nat := 16384

/-- The word address lies in a sealed block of 1,024 words (R95, R373). -/
def CoreSt.sealedAt (c : CoreSt) (pc : Nat) : Bool := decide (pc < codeWords) && bitN c.sealed (pc / 1024)

/-- The instruction word at a word address of a core, if it may be fetched: little-endian (R176, R373). -/
def State.fetch (s : State) (core pc : Nat) : Option IWord :=
  if (s.core core).sealedAt pc then some (BitVec.ofNat 32 (leNat (memBytes s.mem (codeAddr core pc) 4))) else none

/-- A step begins: core clock cycles pass (R206), and the launch entries that sent their completion token in a step before return to
FREE (R448). -/
def State.tick (s : State) (dt : Nat) : State :=
  { s with cycle := s.cycle + dt, dies := s.dies.map (fun d => (d.1, d.2.freeDone)) }

/-- The core that the next instruction belongs to. -/
def State.turn (s : State) (core : Nat) : State := { s with cur := core }

/-- Bytes of an instruction word, and of a table row's bits, as the hardware stores them: little-endian (R19, R176). -/
def wordBytes (w : Nat) : List Byte := leBytes 4 w

/-- The firing that runs a placed word: frame 0 of the core, word address 8,192, no temporaries written (log 8). -/
def placedFiring (core : Nat) : Firing :=
  { ctx := { core := core, frame := 0, gen := 0, slot := 0, vnode := 0, launch := 0, parent := 0, iter := 0, prio := 0,
             tenant := 0, reserved := false },
    pc := 8192, temps := Vector.replicate 8 0, flags := 0, issued := 0, held := 0, pops := [], allocs := [], jobs := [],
    launches := [], purged := false }

/-- The frame of a placed firing: LOCAL, a node frame of class 4 with 64 slots (log 8). -/
def placedFrame : Frame := { Frame.zero with state := .local, fclass := 4, static := true, nslot := 64 }

/-- The core of a placed firing: its frame and frame pool, the block of the word sealed (log 8). -/
def placedCore (c : CoreSt) (core : Nat) : CoreSt :=
  { c with firing := some (placedFiring core), frames := tabSet c.frames 0 placedFrame, fpool := max 16 c.fpool,
           sealed := c.sealed ||| 0x0100 }

/-- A word placed for the next step on the steward core of die 0 (log 8). -/
def State.placeWord (s : State) (w : Nat) : State :=
  { s with mem := memPuts s.mem (codeAddr 0x7FF 8192) (wordBytes w),
           cores := tabSet s.cores 0x7FF (placedCore (s.core 0x7FF) 0x7FF), cur := 0x7FF, agenda := [] }

end Sys2Proof.Machine
end

