-- ==== Sys2Proof/Machine/Priv.lean ====
section
/-! DEFINITION. The PRIV instructions at issue (R227 to R233): steward-only but for CANCEL. Each is held, and what it does
is done at its release or where its command arrives. -/

namespace Sys2Proof.Machine

/-- RPLAY (R228). -/
def execRplay : State → Host.Outcome State Fault Refusal := stewardIssue "RPLAY" true (onlyHold fun _ _ => .rplay)

/-- TLBINV (R229). -/
def execTlbinv (ta : Temp) : State → Host.Outcome State Fault Refusal :=
  stewardIssue "TLBINV" true (onlyHold fun f _ => .tlbinv (f.w ta))

/-- A command with a 64-byte descriptor: T[td] := 0 (R227). -/
def privCommand (mnemonic : String) (td ta : Temp) (a : Vec → Act) : State → Host.Outcome State Fault Refusal :=
  stewardIssue mnemonic true fun f s => .done ((s.setFiring (f.setW td 0)).hold f (a (f.t ta)))

/-- CODESEAL (R230). -/
def execCodeseal (td ta : Temp) : State → Host.Outcome State Fault Refusal := privCommand "CODESEAL" td ta .codeseal
/-- PLACE (R231). -/
def execPlace (td ta : Temp) : State → Host.Outcome State Fault Refusal := privCommand "PLACE" td ta .place
/-- CFGLD (R232). -/
def execCfgld (td ta : Temp) : State → Host.Outcome State Fault Refusal := privCommand "CFGLD" td ta .cfgld

/-- CANCEL (R233): allowed in tenant mode too. -/
def execCancel (ta : Temp) : State → Host.Outcome State Fault Refusal :=
  issue true (onlyHold fun f _ => .cancel (fieldN (f.w ta) 0 16))

end Sys2Proof.Machine
end

