-- ==== Sys2Proof/Machine/Release.lean ====
section
/-! DEFINITION. The commit queue at release: what the head waits for (R47, R49, R51, R130, R131, R133 to R135, R138, R223), what each
action does when it is released (R197 to R233, R302, R320, R321, R376), the replay (R397), and TLBINV (R229). -/

namespace Sys2Proof.Machine

/-! ## Waits of releases and acquires (R130, R131) -/

/-- A release at a scope may leave. -/
def Unack.releaseOk (u : Unack) : Scope → Bool
  | .core => true
  | .clus => u.clus == 0
  | .die => u.die == 0
  | .pkg => u.pkg == 0 && u.load == 0
  | .sys => u.sys == 0 && u.load == 0

/-- An acquire at a scope is over. -/
def Unack.acquireOk (u : Unack) : Scope → Bool
  | .pkg => u.load == 0
  | .sys => u.load == 0
  | _ => true

/-- The scope that a release send names (R134). -/
def SendScope.scope : SendScope → Scope
  | .clus => .clus
  | .die => .die
  | .pkg => .pkg
  | .sys => .sys

/-- A job that is released at SYS scope: CPY, CPYM, CPYX, GATH, and a TURNGO that sends a block of memory (R138, R302). -/
def Job.sysRelease (j : Job) : Bool :=
  match j.op with
  | .cpy => true
  | .cpym => true
  | .cpyx => true
  | .gath => true
  | .turngo => !bitN j.desc 34
  | _ => false

/-- The scope at which an action is a release; none for one that is no release. -/
def State.actScope (s : State) (h : Held) : Option Scope :=
  match h.act with
  | .access (.atomic _ _ _ sc) _ _ _ _ _ _ => some sc
  | .send rel _ _ _ _ _ _ _ => rel.map SendScope.scope
  | .publ sc _ => some sc
  | .job id => match s.jobNamed h.ctx.core id with
    | some j => if j.sysRelease then some .sys else none
    | none => none
  | .ings _ _ => some .sys
  | .hpput _ => some .sys
  | .redput _ => some .sys
  | _ => none

/-- A FENCE mark's condition holds (R133). -/
def Unack.fenceOk (u : Unack) (k : FenceKind) (sc : Scope) : Bool :=
  match k with
  | .acq => u.acquireOk sc
  | .rel => u.releaseOk sc
  | .full => u.releaseOk sc && u.acquireOk sc

/-- A store of the core may land in its own local SRAM: its page shows that it does, or is not there to show where it lands. -/
def State.mayLandOwn (s : State) (core : Nat) (r : Req) : Bool :=
  (s.landing core r.asid r.va).all (fun pa => isSram pa && winCore pa == core)

/-- A released store of the core that may land in its own local SRAM has not been performed yet: there it counts in no field (R129). CTLD
reads its image after it (R258). -/
def State.ownStoreOut (s : State) (core : Nat) : Bool := (s.inflightStores core).any (s.mayLandOwn core)

/-- The core's stores into its own local SRAM are written, as a release at CLUS, DIE, PKG or SYS asks (R129, R130, R138; log 70). -/
def State.ownWritten (s : State) (core : Nat) (sc : Scope) : Bool := sc == .core || !s.ownStoreOut core

/-- The head of the queue meets what R130, R131 and R133 ask. -/
def State.orderedOut (s : State) (h : Held) : Bool :=
  let u := (s.core h.ctx.core).unack
  match h.act with
  | .fence .acq sc => u.fenceOk .acq sc
  | .fence k sc => u.fenceOk k sc && s.ownWritten h.ctx.core sc
  | _ => match s.actScope h with
    | some sc => u.releaseOk sc && s.ownWritten h.ctx.core sc
    | none => true

/-! ## Slot updates and CONT (R36, R49, R68, R217) -/

/-- A slot update of the firing's own frame: it waits for room in the ready queue and for a transfer of the frame; a frame that has
gone takes none (R33, R49). -/
def State.slotUpdate (s : State) (x : Ctx) (n : Nat) (f : Word → Word) : Option State :=
  if s.sameFrame x = false then some s
  else if (s.core x.core).readyRoom = false ∨ (s.inTransfer x.core x.frame x.gen).isSome = true then none
  else if s.frameSpilled x.core x.frame ∧ isPoison (s.fside x.core x.frame n) = true then some (s.loseFrame x.core x.frame n)
  else
    let s1 := (s.modFrame x.core x.frame (fun g => g.touch s.cycle)).updateSlot x.core x.frame n (f (s.fword x.core x.frame n))
    some (if ((s.core x.core).frame x.frame).static then s1.evalCore x.core else s1)

/-- SLOTSET: the count is set and the slot armed. -/
def setArmed (v : BitVec 24) (w : Word) : Word := withArmed (withCount w v) true
/-- SLOTARM: the count is raised and the slot armed. -/
def addArmed (v : BitVec 24) (w : Word) : Word := withArmed (withCount w (slotCount w + v)) true
/-- SLOTDIS: the slot is not valid. -/
def disSlot (w : Word) : Word := withValid w false

/-- The reservation of a STREAM or MATCH firing (R38, R39). -/
def State.resvOf (s : State) (x : Ctx) : Option Resv :=
  if x.reserved && s.sameFrame x then tabFind (s.core x.core).resvs (x.frame * 64 + x.slot) else none

/-- The reservation changed. -/
def State.setResv (s : State) (x : Ctx) (r : Resv) : State :=
  s.modCore x.core (fun c => { c with resvs := tabSet c.resvs (x.frame * 64 + x.slot) r })

/-- What is left of a reservation at the firing's END or CONT: its tokens are consumed and its unused credits returned (R38, R201,
R203). -/
def State.closeResv (s : State) (x : Ctx) : State :=
  match s.resvOf x with
  | none => s
  | some r =>
    ((r.inToks.foldl (fun t e => t.consume x.core x.vnode e.1 e.2) s).modCore x.core (fun c =>
      c.returnResv x.vnode (x.frame * 64 + x.slot))).evalCore x.core

/-- END at release: the reservation closes, and a handler frame is freed (R40, R201). -/
def State.releaseEnd (s : State) (x : Ctx) : State :=
  let s1 := s.closeResv x
  if s1.sameFrame x && ((s1.core x.core).frame x.frame).hframe then s1.freeFrame x.core x.frame else s1

/-- CONT at release (R68): it waits for room in the ready queue when its continuation is due at once. -/
def State.releaseCont (s : State) (x : Ctx) (lim : Limits) (slot : Nat) : Option State :=
  let s1 := s.closeResv x
  if s1.sameFrame x = false then some s1
  else
    let s2 := s1.modFrame x.core x.frame (fun f => { f.touch s.cycle with contwait := true, contslot := slot, limits := lim })
    if ((s2.core x.core).frame x.frame).contHolds && !(s2.core x.core).readyRoom then none else some (s2.tryCont x.core x.frame)

/-! ## Channels and sends (R42, R218 to R223, R376) -/

/-- CHPOP at release: the head token is consumed (R42, R222). -/
def State.releasePop (s : State) (x : Ctx) (port : Nat) : State :=
  let s1 := match s.resvOf x with
    | none => s
    | some r => s.setResv x { r with inToks := r.inToks.map (fun (e : Nat × Nat) => if e.1 = port then (e.1, e.2 - 1) else e) }
  (s1.consume x.core x.vnode port 1).evalCore x.core

/-- Units drawn on an output port: first from the firing's reservation, then from the free credits; none while they do not suffice
(R223). -/
def State.draw (s : State) (x : Ctx) (port cost : Nat) : Option State :=
  let res := (s.resvOf x).elim 0 (fun r => tabGet 0 r.credits port)
  let r := min res cost
  if (s.core x.core).credit x.vnode port < ((cost - r : Nat) : Int) then none
  else
    let s1 := match s.resvOf x with
      | none => s
      | some v => if r = 0 then s else s.setResv x { v with credits := tabSet v.credits port (res - r) }
    some (s1.modCore x.core (fun c => c.addCredit (portKey x.vnode port) (-((cost - r : Nat) : Int))))

/-- A static destination that the sending core's table does not resolve is refused (R376 code 0x0E). -/
def State.noPlace (s : State) (h : Held) : State := s.refuseAct h.ctx h.pc 0x05 0x0E none

/-- A token on an output port: refused without a placement entry, waiting without credit (R222, R223, R376). -/
def State.releasePush (s : State) (h : Held) (port : Nat) (t : Token) : Option State :=
  let x := h.ctx
  let d := (s.core x.core).nodeDesc x.vnode
  if (s.resolve x.core (ndRoute d port).1).isNone then some (s.noPlace h)
  else (s.draw x port t.cost).map (fun s1 => s1.emit x.core d port t)

/-- A token of a firing. -/
def ctxToken (x : Ctx) (k : TokKind) (side : Byte) (vec : Bool) (data : Vec) : Token :=
  { kind := k, side := side, colour := colourOf x.frame x.gen, vec := vec, data := data }

/-- SEND, SENDV and SIG at release (R219, R220): to a frame handle; as an arrival at a node frame; or into a channel, drawing on the
port whose route the destination is. A steward's start tokens draw on none. DESIGN CHOICE: a SIG to a node's own route draws on none either
(log 64). -/
def State.releaseSend (s : State) (h : Held) (dest : Handle) (slot k amount payload : Nat) (data : Vec) (side : Byte) : Option State :=
  let x := h.ctx
  let v := fieldN dest 3 20
  let p := fieldN dest 1 2
  let me := mkHandle x.core x.frame x.gen
  if dest.getLsbD 0 then
    some (s.sendTok x.core (.core (handleCore dest)) (.frame (.handle dest) slot k amount payload data side me false))
  else match s.resolve x.core v with
    | none => some (s.noPlace h)
    | some dst =>
      if payload = 0 then some (s.sendTok x.core dst (.frame (.node v) slot k amount 0 data side me false))
      else
        let t := ctxToken x .data side (payload == 64) data
        match (if isSteward x.core then none else routePort ((s.core x.core).nodeDesc x.vnode) dest) with
        | none => some (s.sendTok x.core dst (.chan v p t))
        | some port => (s.draw x port t.cost).map (fun s1 => s1.sendTok x.core dst (.chan v p t))

/-! ## Generators and launches (R224 to R226) -/

/-- LGEN at release: the command goes to the core of its GEN node (R224, R376 code 0x0C). -/
def State.releaseLgen (s : State) (h : Held) (d : Vec) : State :=
  let x := h.ctx
  if isSteward x.core then s.sendTok x.core (.core (fieldN d 0 13)) (.lgen d x h.pc)
  else match s.resolve x.core (fieldN d 16 20) with
    | none => s.refuseAct x h.pc 0x05 0x0C none
    | some dst => s.sendTok x.core dst (.lgen d x h.pc)

/-- LGSTOP at release: a generator that is not idle ends its nest (R52, R225). -/
def State.releaseLgstop (s : State) (core g : Nat) : State :=
  s.modGen core g (fun g => if g.state = .idle then g else { g with stop := true })

/-- A launch raises its graph's counter at its release (R56, R226). -/
def State.raiseGraph (s : State) (id : Nat) : State :=
  let die := id / 2 ^ 14 % 4
  let w := s.work die (id % 256)
  if w.level = 2 ∧ w.state = .opened ∧ w.seq = id / 256 % 64 then s.setWork die (id % 256) { w with counter := w.counter + 1 } else s

/-- LAUNCH at release: its entry is OPEN and the command goes to the core of the vnode; without a placement entry the entry ends
with status 1 (R226, R376 code 0x0E, R448). On its own core it reads the frame image after the stores released before it, for which
it waits (R226, R440; log 70). -/
def State.releaseLaunch (s : State) (h : Held) (id : Nat) (d : Vec) : Option State :=
  let x := h.ctx
  let die := id / 2 ^ 14 % 4
  let i := id % 256
  let w := s.work die i
  match s.resolve x.core (fieldN d 0 20) with
  | none => some (((s.noPlace h).workToken die w 1).setWork die i { w with state := .done, counter := 0, status := 1, reserved := false })
  | some dst =>
    if dst = .core x.core ∧ bitN d 179 = false ∧ s.ownStoreOut x.core = true then none
    else some (((s.setWork die i { w with state := .opened, counter := launchCount d, reserved := false }).raiseGraph
      (s.core x.core).gwork).sendTok x.core dst (.launch id d x 0))

/-! ## The engines and collectives at release -/

/-- The rounding mode of a context's node, RNE on a steward core (R152). -/
def State.nodeMode (s : State) (x : Ctx) : Rnd :=
  if isSteward x.core then .rne else match rndOfCode (ndRmode ((s.core x.core).nodeDesc x.vnode)) with
    | .dyn => .rne
    | m => m

/-- Counts that a job or copy raises leave room (R29). -/
def State.jobRoom (s : State) (x : Ctx) : Bool :=
  let f := (s.core x.core).frame x.frame
  decide (f.ncpy < 4095) && decide (f.ntile < 4095)

/-- PUBL at release (R141, R321, R376 code 0x0F): it waits for another PUBL of its buffer and for an L2 TLB that has stopped (R396), and
parks while the page of its generation word is not there. -/
def State.releasePubl (s : State) (h : Held) (sc : Scope) (op : Word) : Option State :=
  let x := h.ctx
  let k := fieldN op 0 8
  let asid := (s.core x.core).asid
  match (if k = 0 then none else (s.die (dieOf x.core)).pub asid k) with
  | none => some ((s.refuseAct x h.pc 0x05 0x0F none).arrive (.core x.core) x.tenant (BitVec.ofNat 32 (fieldN op 16 32)) (fieldN op 8 6) 1)
  | some p =>
    if s.publBusy asid k || (s.cluster (clusterOf x.core)).stop then none
    else match s.genAbsent (clusterOf x.core) x.core asid p.genaddr with
      | none => some (s.swapPubl { asid := asid, k := k, scope := sc, op := op, ctx := x, who := none, waits := [], purged := false } p)
      | some (va, l) =>
        let q : XReq := .wait asid va x.core none
        let back (t : State) : State := t.modCore x.core (fun c => { c with queue := h :: c.queue })
        if (s.cluster (clusterOf x.core)).parked.contains q then none
        else some (back (s.park (clusterOf x.core) q l))

/-- MXFMT at release: DYN is resolved to the node's mode (R152, R263). -/
def State.releaseFmt (s : State) (x : Ctx) (d : Vec) : State := s.modPress x.core (fun p => { p with fmt := fmtOf d (s.nodeMode x) })

/-! ## Steward commands (R201, R228 to R232) -/

/-- ROINV: the cluster's read-only cache, or from a steward core those of its die (R103, R201). -/
def State.releaseRoinv (s : State) (core : Nat) : State :=
  if isSteward core then
    (List.range 120).foldl (fun t c => t.modCluster (dieOf core * 120 + c) Cluster.invalidate) s
  else s.modCluster (clusterOf core) Cluster.invalidate

/-- A command travels from a steward core to a core, behind its posted stores there (R143, R230 to R232). -/
def State.sendCmd (s : State) (core dst : Nat) (m : Msg) : State :=
  s.send { src := .core core, dst := .core dst, cls := .request, tenant := s.tenantOf core, msg := m, held := false }

/-- One parked request is translated again (R391, R397): one whose page is still not present parks and enters the fault buffer once more,
and the last of 256 stops the L2 TLB again (R393, R396). -/
def State.replayOne (s : State) (cluster : Nat) (x : XReq) : State :=
  match x with
  | .core r =>
    (match s.walk (dieOf r.ctx.core) r.asid r.va with
     | .absent l => s.park cluster x l
     | _ => if s.hostWaits r then s.modCluster cluster (fun k => { k with walking := k.walking ++ [x] }) else s.walkReq r)
  | .copy q id asid va wr =>
    (match s.walk (cluster / 120) asid va with
     | .absent l => s.park cluster (.copy q id asid va wr) l
     | _ => s.modJob q id (fun j => { j with parked := false, progress := s.cycle }))
  | .source asid va m core =>
    (match s.walk (cluster / 120) asid va with
     | .absent l => s.park cluster (.source asid va m core) l
     | _ => s.rereadSource m)
  | .wait asid va core who =>
    (match s.walk (cluster / 120) asid va with
     | .absent l => s.park cluster (.wait asid va core who) l
     | _ => s)

/-- RPLAY on one cluster (R397). -/
def State.replayCluster (s : State) (cluster : Nat) : State :=
  let old := (s.cluster cluster).parked
  old.foldl (fun t x => t.replayOne cluster x)
    (s.modCluster cluster (fun k => { k with parked := [], fltbuf := [], drop := false, stop := false }))

/-- RPLAY: every cluster of the steward's die; then the results that wait for a page go on (R228, R313, R397). -/
def State.releaseRplay (s : State) (core : Nat) : State :=
  ((List.range 120).foldl (fun t c => t.replayCluster (dieOf core * 120 + c)) s).retryResults

/-! ## TLBINV (R113, R229) -/

/-- A held translation matches the operand. -/
def tlbMatch (op : Word) (e : TlbEnt) : Bool :=
  e.asid == fieldN op 4 12 && (bitN op 0 || (e.big == bitN op 1 &&
    e.vpage == (if bitN op 1 then fieldN op 24 24 else fieldN op 16 32)))

/-- A request was translated by a page that the operand names. -/
def reqMatch (op : Word) (r : Req) : Bool :=
  !inSelf r.va && r.asid == fieldN op 4 12 && (bitN op 0 ||
    r.va.toNat % 2 ^ 48 / (if bitN op 1 then 2 ^ 24 else 2 ^ 16) == (if bitN op 1 then fieldN op 24 24 else fieldN op 16 32))

/-- An access of a die's cores by a translation that is being removed is still on its way. -/
def State.tlbInUse (s : State) (die : Nat) (op : Word) : Bool :=
  s.net.any (fun p => match p.msg with
    | .access r => dieOf r.ctx.core == die && reqMatch op r
    | _ => false)

/-- The matching translations of a die are removed, and the walk cache entries of the address space. -/
def State.tlbDrop (s : State) (die : Nat) (op : Word) : State :=
  let cores := s.cores.map (fun e =>
    if dieOf e.1 = die then (e.1, { e.2 with tlb := e.2.tlb.filter (fun t => !tlbMatch op t) }) else e)
  let clusters := s.clusters.map (fun e =>
    if e.1 / 120 = die then (e.1, { e.2 with tlb := e.2.tlb.filter (fun t => !tlbMatch op t) }) else e)
  { s with cores := cores, clusters := clusters }.modDie die (fun d =>
    { d with walkc := d.walkc.filter (fun w => w.1 != fieldN op 4 12) })

/-- TLBINV_ACKNOWLEDGEMENT: a die has removed the translations, and no access of its cores uses them any more (R229). -/
def tlbinvAcknowledgement (core die : Nat) (s : State) : State :=
  let c := s.core core
  if c.tlbWait.contains die = false ∨ s.tlbInUse die c.tlbOp = true then s
  else (s.tlbDrop die c.tlbOp).modCore core (fun c => { c with tlbWait := c.tlbWait.filter (fun d => d != die) })

/-- TLBINV_ACKNOWLEDGEMENT. -/
def execTlbinvAcknowledgement (core die : Nat) : State → Host.Outcome State Fault Refusal := eventOf (tlbinvAcknowledgement core die)

/-! ## The head of the queue -/

/-- A memory request at release; a PKG or SYS atomic holds the queue until it completes (R135). -/
def State.releaseAccess (s : State) (h : Held) (kind : AccKind) (va : Word) (size : Nat) (data : Vec) (side : Byte) (k slot : Nat) :
    Option State :=
  let r := s.newReq h kind va size data side k slot
  (s.releaseReq r).map (fun s1 =>
    match kind with
    | .atomic _ _ _ .pkg => s1.modCore h.ctx.core (fun c => { c with atomWait := some r.id })
    | .atomic _ _ _ .sys => s1.modCore h.ctx.core (fun c => { c with atomWait := some r.id })
    | _ => s1)

/-- A contribution waits while its cluster's L2 TLB accepts no request (R396). -/
def State.putWaits (s : State) (x : Ctx) : Bool := (s.cluster (clusterOf x.core)).stop || !s.jobRoom x

/-- A definition that reads memory waits likewise: HPDEF with a lag table, PBDEF (R309, R320, R396). -/
def State.defWaits (s : State) (x : Ctx) (a : Act) : Bool :=
  (s.cluster (clusterOf x.core)).stop && (match a with
    | .hpdef d => !bitN d 112 && fieldN d 192 48 != 0
    | .pbdef _ => true
    | _ => false)

/-- An action that has left the queue takes effect; none when it has to stay at the head. -/
def State.releaseAct (s : State) (h : Held) : Option State :=
  let x := h.ctx
  match h.act with
  | .access kind va size data side k slot => s.releaseAccess h kind va size data side k slot
  | .send _ dest slot k amount payload data side => s.releaseSend h dest slot k amount payload data side
  | .slotSet n v => s.slotUpdate x n (setArmed v)
  | .slotArm n v => s.slotUpdate x n (addArmed v)
  | .slotDis n => s.slotUpdate x n disSlot
  | .chPop port => some (s.releasePop x port)
  | .chPush port vec data side => s.releasePush h port (ctxToken x .data side vec data)
  | .chEnd port side => s.releasePush h port (ctxToken x .endm side false 0)
  | .chRcfg port depth side => s.releasePush h port (ctxToken x .reconfig side false (BitVec.ofNat 512 depth))
  | .ffree f => some (if ((s.core x.core).frame (handleFrame f)).gen = handleGen f then s.freeFrame x.core (handleFrame f) else s)
  | .lgen d => some (s.releaseLgen h d)
  | .lgstop g => some (s.releaseLgstop x.core g)
  | .launch id d => s.releaseLaunch h id d
  | .roinv => some (s.releaseRoinv x.core)
  | .rplay => some (s.releaseRplay x.core)
  | .tlbinv op => some (s.modCore x.core (fun c => { c with tlbWait := [0, 1, 2, 3], tlbOp := op }))
  | .codeseal d => some (s.sendCmd x.core (fieldN d 0 13) (.sealCmd d s.reqNo))
  | .place d => some (s.sendCmd x.core (fieldN d 0 13) (.place d))
  | .cfgld d => some ((s.sendCmd x.core (fieldN d 0 13) (.cfgld d)).modCore (fieldN d 0 13) (fun c =>
      if fieldN d 64 32 = 0 then c else { c with cfg := .loading }))
  | .cancel id => some (s.cancel x h.pc id)
  | .ctld n op => if s.tableUsed x.core n || (bitN op 0 && s.ownStoreOut x.core) then none else some (s.loadTable h n op)
  | .tdef n g => some (s.defTile h n g)
  | .trel n => some (s.relTile h n)
  | .mxfmt d => some (s.releaseFmt x d)
  | .mxepi d => if s.tagNamed x.core (fieldN d 0 6) then none else some (s.setEpi x.core d)
  | .mxclr d => if s.tagNamed x.core (fieldN d 0 6) then none else some (s.clearTag x.core d)
  | .job id => if s.jobRoom x then some (s.queueJob x id) else none
  | .jcan id => some (s.cancelJob x.core id)
  | .ings t d => if s.jobRoom x then some (s.submitMsg x t d) else none
  | .hpdef d => if s.defWaits x h.act then none else some (s.hpdef x d)
  | .hpput d => if s.putWaits x then none else some (s.hpput h d)
  | .hpwait d => some (s.hpwait x d)
  | .turndef d => some (s.turndef x d)
  | .reddef d => some (s.reddef x d)
  | .redput d => if s.putWaits x then none else some (s.redput h d)
  | .pbdef d => if s.defWaits x h.act then none else some (s.pbdef x d)
  | .publ sc op => s.releasePubl h sc op
  | .fence _ _ => some s
  | .endMark => some (s.releaseEnd x)
  | .cont lim slot => s.releaseCont x lim slot

/-- COMMIT_QUEUE_RELEASE: the action at the head of a core's commit queue is released, if its firing has ended or the core is a
steward's, and nothing holds it (R47, R49, R51, R130 to R135, R229). -/
def commitQueueRelease (core : Nat) (s : State) : State :=
  let c := s.core core
  match c.queue with
  | [] => s
  | h :: t =>
    if (h.ended || isSteward core) = false ∨ c.tlbWait ≠ [] ∨ c.atomWait.isSome = true ∨ s.orderedOut h = false then s
    else ((s.setCore core { c with queue := t }).releaseAct h).getD s

/-- COMMIT_QUEUE_RELEASE. -/
def execCommitQueueRelease (core : Nat) : State → Host.Outcome State Fault Refusal := eventOf (commitQueueRelease core)

end Sys2Proof.Machine
end

