-- ==== Sys2Proof/Machine/Load.lean ====
section
/-! DEFINITION. The steward's commands where they arrive: PLACE (R231), CODESEAL with its scanner (R143, R179, R230, R372), and CFGLD
with its checks, an unload and the states of a core (R194, R232, R324, R382 to R385). -/

namespace Sys2Proof.Machine

/-! ## PLACE (R62, R231) -/

/-- PLACE_ARRIVAL: the entries are written in index order (R231). -/
def placeArrival (k : Nat) (s : State) : State :=
  match s.recv k with
  | some { msg := .place d, dst := .core core, .. } =>
    (s.dropPkt k).modCore core (fun c => { c with place := placeAll d c.place })
  | _ => s

/-- PLACE_ARRIVAL. -/
def execPlaceArrival (pkt : Nat) : State → Host.Outcome State Fault Refusal := eventOf (placeArrival pkt)

/-! ## The code scanner (R179, R372) -/

/-- Opcodes that only a steward core may hold (R179). -/
def stewardOnly : Instr → Bool
  | .halt => true
  | .jmpi _ => true
  | .rplay => true
  | .tlbinv _ => true
  | .codeseal _ _ => true
  | .place _ _ => true
  | .cfgld _ _ => true
  | _ => false

/-- The CSR that an instruction names. -/
def csrOf : Instr → Option Nat
  | .csrr _ c => some c.toNat
  | .csrw _ c => some c.toNat
  | .csrs _ _ c => some c.toNat
  | _ => none

/-- The offset of a branch. -/
def brOf : Instr → Option Int
  | .br _ _ _ off => some (sextOff off)
  | _ => none

/-- Why the scanner rejects a word at an address of a core, if it does (R179, R372). -/
def scanWord (steward : Bool) (a : Nat) (w : IWord) : Option Nat :=
  match decode w with
  | .error r => some r.code
  | .ok i =>
    if (brOf i).any (fun o => !steward && decide (o ≤ 0)) then some 6
    else if (brOf i).any (fun o => decide ((a : Int) + o < 0) || decide (16383 < (a : Int) + o)) then some 7
    else if !steward && stewardOnly i then some 8
    else if !steward && (csrOf i).any (fun n => !csrTenant n) then some 9
    else none

/-- The first rejected word of n words from an address, with its reason. -/
def State.scanCode (s : State) (core : Nat) : Nat → Nat → Option (Nat × Nat)
  | 0, _ => none
  | n + 1, a =>
    match scanWord (isSteward core) a (BitVec.ofNat 32 (leNat (memBytes s.mem (codeAddr core a) 4))) with
    | some r => some (a, r)
    | none => s.scanCode core n (a + 1)

/-- The zero fields of a CODESEAL are zero and its range is one (R230). -/
def sealOk (d : Vec) : Bool :=
  zeroF d 13 3 && zeroF d 24 40 && zeroF d 111 401 && decide (fieldN d 16 4 ≤ fieldN d 20 4)

/-- The seal blocks first to last, as a mask. -/
def sealMask (d : Vec) : BitVec 16 := BitVec.ofNat 16 (2 ^ (fieldN d 20 4 + 1) - 2 ^ fieldN d 16 4)

/-- The report word of a CODESEAL (R230). -/
def sealReport (r : Option (Nat × Nat)) : Word :=
  match r with
  | none => 1
  | some (a, c) => BitVec.ofNat 64 (2 + a * 4 + c * 2 ^ 16)

/-- A store to a core, among the requests of a number below n of a steward core, that has not been performed yet: it is on the route, or
still being translated (R143). -/
def State.codeStoresOut (s : State) (src : Agent) (core n : Nat) : Bool :=
  match src with
  | .core c =>
    let k := s.cluster (clusterOf c)
    (k.walking ++ k.parked).any (fun x => (xReq c x).any (fun r => decide (r.id < n))) ||
      s.net.any (fun p => p.src == src && p.dst == .core core &&
        match p.msg with
        | .access r => r.kind.isStore && decide (r.id < n)
        | _ => false)
  | _ => false

/-- CODESEAL_SCAN: every word of the range is examined, and the range sealed or not (R143, R179, R230, R372). -/
def codesealScan (k : Nat) (s : State) : State :=
  match s.recv k with
  | some { msg := .sealCmd d n, dst := .core core, src := src, tenant := t, .. } =>
    if s.codeStoresOut src core n then s
    else
      let r := if sealOk d then s.scanCode core ((fieldN d 20 4 - fieldN d 16 4 + 1) * 1024) (fieldN d 16 4 * 1024) else some (0, 0x0A)
      let s1 := (s.dropPkt k).modCore core (fun c =>
        if sealOk d then { c with sealed := if r.isNone then c.sealed ||| sealMask d else c.sealed &&& ~~~(sealMask d) } else c)
      s1.report (.core core) t (BitVec.ofNat 32 (fieldN d 64 32)) (fieldN d 96 6) (fieldN d 102 9) (sealReport r)
  | _ => s

/-- CODESEAL_SCAN. -/
def execCodesealScan (pkt : Nat) : State → Host.Outcome State Fault Refusal := eventOf (codesealScan pkt)

/-! ## Unloading (R383) -/

/-- A frame table entry freed: its generation rises when it was in use. -/
def Frame.unloaded (f : Frame) : Frame := { Frame.zero with gen := if f.state = .free then f.gen else (f.gen + 1) % 256 }

/-- A core without the parts that a CFGLD replaces: frames, channels, credits, tiles, descriptors and what hangs on them (R232). No tag
keeps a carried state, which comes back with its restore (R84, R406; log 72). -/
def CoreSt.cleared (c : CoreSt) : CoreSt :=
  { c with frames := c.frames.map (fun e => (e.1, e.2.unloaded)), chans := [], credits := [], ready := [], descs := [], fetching := [],
           resvs := [], sinkEnd := [], sinkCk := [], sinkDone := [], gens := [], ckpt := [], votes := [], tiles := [], dareaTab := [], dropped := false,
           fpool := 0, poolKiB := 64, spillk := 4, spillbase := 0, darea := 0, ctags := Vector.replicate 4 (.preset 0), qcount := 0,
           qover := false, qlast := 0,
           press := { c.press with tags := c.press.tags.map (fun e => (e.1, { e.2 with present := false })) } }

/-- CFGLD of zero words (R383). -/
def CoreSt.unload (c : CoreSt) : CoreSt := { c.cleared with place := [], cfg := .unloaded }

/-! ## Blocks of a section (R194, R382) -/

/-- A section under configuration: the state, and the first illegal word with its reason. -/
structure Cfg where
  s    : State
  /-- Descriptors loaded so far. -/
  nd   : Nat
  /-- Present output ports loaded so far (R79). -/
  outs : Nat
  /-- Node frames loaded so far (R324). -/
  nf   : Nat
  bad  : Option (Nat × Nat)

/-- A 32-bit word of a section. -/
def wordAt (b : List Byte) (o : Nat) : Nat := leNat ((b.drop o).take 4)

/-- The blocks of a section: type, core, byte offset and length of each payload; and the illegal header that ends them (R382 code
0x01). -/
def blocksOf (b : List Byte) : Nat → Nat → List (Nat × Nat × Nat × Nat) × Option (Nat × Nat)
  | 0, _ => ([], none)
  | n + 1, o =>
    if b.length ≤ o then ([], none)
    else
      let typ := wordAt b o % 256
      let len := wordAt b (o + 4)
      if b.length < o + 8 then ([], some (1, o / 4))
      else if typ = 0 ∨ 8 ≤ typ then ([], some (1, o / 4))
      else if b.length < o + 8 + len then ([], some (1, o / 4 + 1))
      else
        let r := blocksOf b n (o + 8 + (len + 7) / 8 * 8)
        ((typ, wordAt b o / 256 % 256, o + 8, len) :: r.1, r.2)

/-- Of some failed checks, as reason and word, the one of the lowest word, and there the lowest reason. -/
def firstBad (l : List (Bool × Nat × Nat)) : Option (Nat × Nat) :=
  (l.filter (·.1)).foldl (fun m e => match m with
    | none => some e.2
    | some p => if e.2.2 < p.2 ∨ (e.2.2 = p.2 ∧ e.2.1 < p.1) then some e.2 else m) none

/-- The spill area is aligned and lies in the populated HBM of the core's die (R118, R382 code 0x08). -/
def spillOk (core base k : Nat) : Bool :=
  let hi := base + 2 ^ k * 4608
  base % 4096 == 0 && decide (dieOf core * 0x2000000000 ≤ base)
    && decide (hi ≤ dieOf core * 0x2000000000 + (if Config.is512 then 0x2000000000 else 0x1800000000))

/-- Block type 1: the core's configuration (R194, R382 codes 0x02, 0x08 and 0x09). -/
def Cfg.config (g : Cfg) (core spill : Nat) (b : List Byte) (o : Nat) : Cfg :=
  let v := wordAt b o + wordAt b (o + 4) * 2 ^ 32
  let f (lo n : Nat) : Nat := v / 2 ^ lo % 2 ^ n
  let ct (j : Nat) : Nat := f (24 + 4 * j) 3
  let w := o / 4
  let bads := firstBad
    ([(decide (f 0 8 < 16) || decide (128 < f 0 8) || f 0 8 % 16 != 0, 2, w),
      (decide (1472 < f 8 11) || decide (384 < f 8 11 / 4 + (if f 8 11 % 4 = 0 then 0 else 1) + f 0 8), 2, w),
      (decide (f 19 4 < 4) || decide (10 < f 19 4), 2, w), (!spillOk core spill (f 19 4), 8, w)]
     ++ (List.range 4).flatMap (fun j => [(ct j == 5 || ct j == 6, 2, (8 * o + 24 + 4 * j) / 32),
          (decide (ct j < 5) && !(CodeTable.preset (ct j)).ordered, 9, (8 * o + 24 + 4 * j) / 32)]))
  if bads.isSome then { g with bad := bads }
  else
    let tab (j : Nat) : CodeTable := .preset (if ct j = 7 then 0 else ct j)
    { g with s := g.s.modCore core (fun c =>
        { c with poolKiB := f 0 8, fpool := f 8 11, spillk := f 19 4, spillbase := spill,
                 ctags := Vector.ofFn (fun (j : Fin 4) => tab j.val) }) }

/-- The vnodes of the core's node frames in block order: descriptor i is the i-th node's (R25, R28, log 16). -/
def frameNodes (b : List Byte) : Nat → Nat → Nat → List Nat
  | 0, _, _ => []
  | n + 1, o, hi =>
    if hi < o + 8 then []
    else (wordAt b o % 2 ^ 20) :: frameNodes b n (o + 8 + 256 * 2 ^ min 4 (wordAt b o / 2 ^ 20 % 8)) hi

/-- The checks of a node descriptor (R382 codes 0x03, 0x04 and 0x0A): its first illegal word, by its place in the descriptor. -/
def descBad (c : CoreSt) (d : Rec) (outs : Nat) : Option (Nat × Nat) :=
  let sealed (e : Nat) : Bool := c.sealedAt e
  firstBad
    ([(decide (6 ≤ ndKind d), 3, 0), (decide (5 ≤ ndRmode d), 3, 0), (decide (5 ≤ ndClass d), 3, 0), (fieldN d 13 3 != 0, 3, 0),
      (fieldN d 56 8 != 0, 3, 1), (fieldN d 112 16 != 0, 3, 3), (!sealed (ndEntry d), 4, 0),
      (ndMarker d != 0x3FFF && !sealed (ndMarker d), 4, 0), (decide (64 < outs), 10, 3)]
     ++ (List.range 4).map (fun p => (!ndOutEn d p && fieldN d (128 + 22 * p) 22 != 0, 4, (128 + 22 * p) / 32)))

/-- A descriptor is written to its place in the descriptor area in HBM, where the area's pages take it (R60, R63; log 25). -/
def State.writeArea (s : State) (core v : Nat) (d : Rec) : State :=
  let c := s.core core
  if s.rangeOk (dieOf core) c.asid { read := false, write := true } (c.areaVa v) 32 then
    s.writeVirt (dieOf core) c.asid (c.areaVa v) (leBytes 32 d.toNat)
  else s

/-- A node descriptor: it goes to the descriptor area and the cluster descriptor cache (R60, R232). -/
def Cfg.desc (g : Cfg) (core : Nat) (nodes : List Nat) (b : List Byte) (o : Nat) : Cfg :=
  let d : Rec := BitVec.ofNat 256 (leNat ((b.drop o).take 32))
  let outs := g.outs + (outPorts d).length
  match descBad (g.s.core core) d outs with
  | some (r, w) => { g with bad := some (r, o / 4 + w) }
  | none =>
    let s1 := match nodes[g.nd]? with
      | none => g.s
      | some v => (((g.s.modCore core (fun c => { c with dareaTab := tabSet c.dareaTab v d })).writeArea core v d).modCluster
          (clusterOf core) (fun k => { k with dcache := dcachePut k.dcache v d }))
    { g with s := s1, nd := g.nd + 1, outs := outs }

/-- Slot kinds that a node of a kind may hold: COUNT anywhere, STREAM on THREADLET and SINK, MATCH and HANDLER on their own (R24,
R28). -/
def slotFits (slot node : Nat) : Bool :=
  match slot with
  | 0 => true
  | 1 => node == 0 || node == 2
  | 2 => node == 4
  | _ => node == 5

/-- Bits of a slot word that are reserved, or unused by its kind (R34). -/
def slotSpare (w : Word) : Bool :=
  fieldN w 46 2 != 0 || (match slotKind w with
    | 0 => false
    | 3 => fieldN w 53 11 != 0
    | _ => fieldN w 56 8 != 0)

/-- The checks of an initial slot word at a byte offset (R382 code 0x05). -/
def slotBad (kind : Nat) (w : Word) (o : Nat) : Option (Nat × Nat) :=
  firstBad [(slotReload w == 3 || !slotFits (slotKind w) kind, 5, o / 4), (slotSpare w, 5, o / 4 + 1)]

/-- A node frame of the core: the next index, generation 0, its words as the image gives them (R28, R324). -/
def State.addNodeFrame (s : State) (core i p cls nslot vnode : Nat) (ws : List Word) : State :=
  ((s.modFrame core i (fun _ =>
    { Frame.zero with state := .local, fclass := cls, static := true, nslot := nslot, poolofs := p, vnode := vnode,
                      progress := s.cycle })).clearFrame core i).setFwords core i 0 0 ws

/-- Block type 3: node frames, n at most (R194, R324, R382 code 0x05); a core has 1,024 frame table entries (R6). DESIGN CHOICE: fewer than 8
bytes after the last frame are ignored, and a frame that runs past its block is rejected with code 0x01 (log 82). -/
def Cfg.frames (core : Nat) (b : List Byte) (hi : Nat) : Nat → Nat → Cfg → Cfg
  | 0, _, g => g
  | n + 1, o, g =>
    if hi < o + 8 then g
    else
      let w := wordAt b o
      let vnode := w % 2 ^ 20
      let cls := w / 2 ^ 20 % 8
      let nslot := w / 2 ^ 23 % 128
      let len := 256 * 2 ^ min 4 cls
      let c := g.s.core core
      let ws : List Word := (List.range (len / 8)).map (fun j => BitVec.ofNat 64 (leNat ((b.drop (o + 8 + 8 * j)).take 8)))
      let slots := (List.range nslot).findSome? (fun j => slotBad (ndKind (c.nodeDesc vnode)) (ws.getD j 0) (o + 8 + 8 * j))
      if 4 < cls ∨ 64 < nslot ∨ classWords cls < nslot ∨ 1024 ≤ g.nf then { g with bad := some (5, o / 4) }
      else if hi < o + 8 + len then { g with bad := some (1, o / 4) }
      else match c.freeRun (classUnits cls) with
        | none => { g with bad := some (5, o / 4) }
        | some p =>
          if slots.isSome then { g with bad := slots }
          else Cfg.frames core b hi n (o + 8 + len) { g with s := g.s.addNodeFrame core g.nf p cls nslot vnode ws, nf := g.nf + 1 }

/-- Block type 4: a channel, which takes its base behind the channels before it (R77, R78, R194, R382 code 0x06). -/
def Cfg.chan (g : Cfg) (core : Nat) (b : List Byte) (o : Nat) : Cfg :=
  let v := wordAt b o + wordAt b (o + 4) * 2 ^ 32
  let f (lo n : Nat) : Nat := v / 2 ^ lo % 2 ^ n
  let c := g.s.core core
  let d := c.nodeDesc (f 21 20)
  let port := f 19 2
  let depth := f 6 13 + 1
  let used := c.chans.foldl (fun n e => n + e.2.depth) 0
  let low := ndInRate d port * (if ndInVec d port then 5 else 1) + 1
  if c.chans.any (fun e => e.1 == f 0 6) ∨ depth < low ∨ c.poolUnits < used + depth then { g with bad := some (6, o / 4) }
  else
    let ch : Chan := { Chan.zero with base := used, depth := depth, en := true, port := port, vnode := f 21 20, pcore := f 41 13,
                                      pport := f 54 2 }
    { g with s := g.s.modCore core (fun c => { c with chans := tabSet c.chans (f 0 6) ch }) }

/-- The checks of an initial tile entry (R98, R194, R374 code 0x0A, R382 code 0x07): its first illegal word. -/
def tileBad (e : Vec) (w : Nat) : Option (Nat × Nat) :=
  let buf := fieldN e 0 2
  let g := setFieldN e 120 8 0
  firstBad
    [(buf == 3 || !zeroF e 2 2 || !zeroF e 6 2 || (buf != 2 && fieldN e 4 2 == 3), 7, w),
     (!zeroF e 44 20 || (buf == 2 && decide (15 < fieldN e 32 12)), 7, w + 1),
     (!zeroF e 88 24 || (buf == 2 && !zeroF e 64 24), 7, w + 2), (!zeroF e 112 8 || !zeroF e 126 2, 7, w + 3),
     (buf != 3 && !tdefOk (setFieldN (setFieldN g 32 12 (if buf = 2 then 0 else fieldN e 32 12)) 44 468 (fieldN e 64 24 * 2 ^ 20
        * (if buf = 2 then 0 else 1))), 7, w)]

/-- Block type 7: an initial tile (R102, R194). -/
def Cfg.tile (g : Cfg) (core : Nat) (b : List Byte) (o : Nat) : Cfg :=
  let e : Vec := BitVec.ofNat 512 (leNat ((b.drop o).take 16))
  match tileBad e (o / 4) with
  | some x => { g with bad := some x }
  | none =>
    let buf := fieldN e 0 2
    let expect := fieldN e 64 24
    { g with s := g.s.modTile core (fieldN e 120 6) (fun _ =>
        { buf := buf, state := if expect = 0 ∧ buf ≠ 2 then .ready else .empty, esize := fieldN e 4 2, base := fieldN e 8 12,
          rows := fieldN e 20 12, cols := fieldN e 32 12, expect := expect, arrived := 0, nref := 0 }) }

/-- Entries of a size in a payload, one after the other, until one is illegal. -/
def Cfg.each (f : Cfg → Nat → Cfg) (size : Nat) : Nat → Nat → Cfg → Cfg
  | 0, _, g => g
  | n + 1, o, g => if g.bad.isSome then g else Cfg.each f size n (o + size) (f g o)

/-- One block, when it is the core's: types 1, 2, 3, 4 and 7 (R232). DESIGN CHOICE: bytes after the last whole entry of a payload are ignored,
and a core configuration is read from its first 8 bytes whatever its length (log 82). -/
def Cfg.block (core spill : Nat) (nodes : List Nat) (b : List Byte) (g : Cfg) (k : Nat × Nat × Nat × Nat) : Cfg :=
  let (typ, q, o, len) := k
  if g.bad.isSome ∨ q ≠ coreInCluster core then g
  else match typ with
    | 1 => g.config core spill b o
    | 2 => Cfg.each (fun g o => g.desc core nodes b o) 32 (len / 32) o g
    | 3 => Cfg.frames core b (o + len) (len / 8) o g
    | 4 => Cfg.each (fun g o => g.chan core b o) 16 (len / 16) o g
    | 7 => Cfg.each (fun g o => g.tile core b o) 16 (len / 16) o g
    | _ => g

/-! ## Credits (R42, R79, R287) -/

/-- Every present output port of a core has its credits: the depth of the consumer's channel, as soon as both are configured. -/
def State.portCredits (s : State) (core : Nat) : Tab Int :=
  let c := s.core core
  (c.dareaTab.flatMap (fun e => (outPorts e.2).map (fun p => (e.1, p, ndRoute e.2 p)))).foldl (fun t e =>
    let depth := (s.cores.findSome? (fun k => (k.2.chans.find? (fun h =>
      h.2.en && h.2.pcore == core && h.2.pport == e.2.1 && h.2.vnode == e.2.2.1 && h.2.port == e.2.2.2)).map (fun h => h.2.depth))).getD 0
    tabSet t (portKey e.1 e.2.1) (depth : Int)) []

/-- A channel's depth goes to its producer's port, or to the ingest unit that feeds it. -/
def State.feedChannel (s : State) (core : Nat) (ch : Chan) : State :=
  if ch.pcore = startPort then s
  else if ch.pcore = ingestPort then
    s.modDie (dieOf core) (fun d => { d with ingCredits := tabSet d.ingCredits (ingestKey (s.tenantOf core) ch.vnode ch.port) (ch.depth : Int) })
  else s.modCore ch.pcore (fun c =>
    match (c.dareaTab.find? (fun e => ndOutEn e.2 ch.pport && ndRoute e.2 ch.pport == (ch.vnode, ch.port))).map (·.1) with
    | some v => { c with credits := tabSet c.credits (portKey v ch.pport) (ch.depth : Int) }
    | none => c)

/-- The credits that a loaded core brings: its own ports', and its channels' producers'. -/
def State.setCredits (s : State) (core : Nat) : State :=
  let s1 := s.modCore core (fun c => { c with credits := s.portCredits core })
  (s1.core core).chans.foldl (fun t e => t.feedChannel core e.2) s1

/-! ## CFGLD (R232, R382 to R385) -/

/-- A section applied to a core (R232, R382): the blocks before the first illegal word are applied. -/
def State.configure (s : State) (core : Nat) (d : Vec) (b : List Byte) : Cfg :=
  let spill := fieldN d 224 52
  let s1 := s.modCore core (fun c => { c.cleared with asid := fieldN d 160 12, darea := fieldN d 176 48, spillbase := spill })
  let (ks, hdr) := blocksOf b (b.length + 1) 0
  let mine := ks.filter (fun k => k.2.1 == coreInCluster core)
  let nodes := (mine.filter (fun k => k.1 == 3)).flatMap (fun k => frameNodes b (b.length + 1) k.2.2.1 (k.2.2.1 + k.2.2.2))
  let g := ks.foldl (Cfg.block core spill nodes b) { s := s1, nd := 0, outs := 0, nf := 0, bad := none }
  if g.bad.isSome then g
  else if hdr.isSome then { g with bad := hdr }
  else if mine.all (fun k => k.1 != 1) && !spillOk core spill (g.s.core core).spillk then { g with bad := some (8, 0) }
  else g

/-- The report word of a CFGLD (R232). -/
def cfgReport (r : Option (Nat × Nat)) : Word :=
  match r with
  | none => 1
  | some (reason, w) => BitVec.ofNat 64 (2 + w % 2 ^ 24 * 2 ^ 8 + reason * 2 ^ 32)

/-- The report of a CFGLD and its arrival. -/
def State.cfgDone (s : State) (core t : Nat) (d : Vec) (w : Word) : State :=
  s.report (.core core) t (BitVec.ofNat 32 (fieldN d 96 32)) (fieldN d 128 6) (fieldN d 134 9) w

/-- The arrival of an unload, which writes no report word: R439 lists the word of an earlier report in place after unloads (log 65). -/
def State.unloadDone (s : State) (core t : Nat) (d : Vec) : State :=
  s.arrive (.core core) t (BitVec.ofNat 32 (fieldN d 96 32)) (fieldN d 128 6) 1

/-- A section that cannot be read (R370, R391; log 16): the refusal is recorded, the core is BLOCKED, and the report names the word,
with a free reason code. -/
def State.cfgUnread (s : State) (steward core t : Nat) (d : Vec) (cls code : Nat) (va : Word) : State :=
  let e := { unitErr cls code 5 steward 9 0 (fieldN d 160 12) with addr := some (va.toNat % 2 ^ 48, false) }
  (((s.logErr e).modCore core (fun c => { c with cfg := .blocked })).drawn).cfgDone core t d
    (cfgReport (some (s.freeTag % 256, (va.toNat % 2 ^ 48 - fieldN d 16 48) / 4)))

/-- A loaded core takes the priority and the determinism mode of its job's submission, and the job's work table id, when the steward has
opened the job (R206, R337; log 37). -/
def State.jobFields (s : State) (core : Nat) : State :=
  match s.workEntries.find? (fun e => e.2.2.level == 4 && e.2.2.state == .opened && e.2.2.tenant == (s.core core).asid) with
  | none => s
  | some e => s.modCore core (fun c => { c with jprio := fieldN e.2.2.sub.2 224 8, detmode := bitN e.2.2.sub.2 232,
                                                jwork := s.workId e.1 e.2.1 })

/-- CFGLD_COMPLETION: the section has been applied, or a word of it was illegal; zero words unload the core (R232, R382, R383). The
record of a failed load is appended by the firmware (R385, R438). A section whose pages cannot be read yet is waited for (log 16). -/
def cfgldCompletion (k : Nat) (s : State) : State :=
  match s.recv k with
  | some { msg := .cfgld d, dst := .core core, src := .core from_, tenant := t, .. } =>
    let n := 4 * fieldN d 64 32
    if n = 0 then ((s.dropPkt k).modCore core CoreSt.unload).unloadDone core t d
    else match s.readEngine from_ (s.core from_).asid false (va48 d 16) n with
      | .error (.park _ _) => s
      | .error (.host _ _) => s
      | .error (.bad cls code va) => (s.dropPkt k).cfgUnread from_ core t d cls code va
      | .ok bs =>
        let g := ((s.dropPkt k).touchRange from_ (s.core from_).asid (va48 d 16) n).configure core d (bs.map (·.1))
        match g.bad with
        | some r => (g.s.modCore core (fun c => { c with cfg := .blocked })).cfgDone core t d (cfgReport (some r))
        | none => (((g.s.modCore core (fun c => { c with cfg := .loaded })).jobFields core).setCredits core).cfgDone core t d (cfgReport none)
  | _ => s

/-- CFGLD_COMPLETION. -/
def execCfgldCompletion (pkt : Nat) : State → Host.Outcome State Fault Refusal := eventOf (cfgldCompletion pkt)

end Sys2Proof.Machine
end

