-- ==== Sys2Proof/Machine/Monitor.lean ====
section
/-! DEFINITION. What the monitor units sample (R88, R90, R349). -/

namespace Sys2Proof.Machine

/-- Kind of the monitor unit of a number on its die: 0 Press slice, 1 copy unit, 2 cache slice, 3 router; two for each, in that order
(R88, R349; log 9). -/
def unitKind (n : Nat) : Nat := if n < 1920 then 0 else if n < 2160 then 1 else if n < 2400 then 2 else 3

/-- The core of a Press slice's unit, or the cluster of another's, on a die. -/
def unitPlace (die n : Nat) : Nat :=
  if n < 1920 then coreAt (die * 120 + n / 16) (n / 2 % 8) else die * 120 + (n - 1920) % 240 / 2

/-- A latency class of a core's unit (R90), whose samples are events' lengths in cycles. -/
def coreLatency (cls : Nat) : Bool := decide (cls < 8)

/-- The level that a level class of a core's unit samples: none for a reserved code; a sensor's reading comes from outside (R90). -/
def State.coreLevel (s : State) (core cls : Nat) (x : Nat) : Option Nat :=
  let c := s.core core
  match cls with
  | 0x10 => some c.ready.length
  | 0x11 => some c.occupied
  | 0x12 => some ((c.chans.filter (fun e => e.2.en)).foldl (fun n e => n + e.2.occ) 0)
  | 0x13 => some (c.frames.filter (fun e => e.2.state == .spilled)).length
  | 0x14 => some x
  | 0x15 => some x
  | _ => none

/-- The level that a level class of another unit samples; the flit buffers of a router are outside the model (R349; log 1). -/
def State.unitLevel (s : State) (die n cls : Nat) (x : Nat) : Option Nat :=
  let k := s.cluster (unitPlace die n)
  match unitKind n, cls with
  | 0, 0x21 => some ((s.cluster (clusterOf (unitPlace die n))).pressQ.filter (fun j =>
      j.ctx.core == unitPlace die n && j.state == .queued && !s.eligible j)).length
  | 1, 0x31 => some (k.copyQ.filter (fun j => j.state == .issued)).length
  | 2, 0x42 => some (k.lines.filter (fun l => l.dirty)).length
  | 3, 0x51 => some x
  | _, _ => none

/-- Class that a select word names at a unit. R89 gives the event six bits, and the codes of cache slices and routers need seven: there
bit 6, the enable bit, is the code's bit 6 (DESIGN CHOICE, log 84). -/
def unitClass (n : Nat) (sel : Word) : Nat := if unitKind n < 2 then fieldN sel 0 6 else fieldN sel 0 7

/-- The class is a latency class of the unit's kind (R349). -/
def unitLatency (n cls : Nat) : Bool :=
  match unitKind n with
  | 0 => cls == 0x20
  | 1 => cls == 0x30
  | 2 => cls == 0x40 || cls == 0x41
  | _ => cls == 0x50

/-- A cycle at which a level class of a period is sampled (R89). -/
def levelDue (sel : Word) (cycle : Nat) : Bool := cycle % 2 ^ (fieldN sel 8 4 + 4) == 0

/-- What a unit's figures take: the length of an event of a latency class, or at its due cycle the level of a level class; nothing while it
does not record, and nothing for a reserved code (R89, R90). -/
def sampleOf (sel : Word) (cycle : Nat) (latency : Bool) (level : Option Nat) (x : Nat) : Option Nat :=
  if bitN sel 6 = false then none else if latency then some x else if levelDue sel cycle then level else none

/-- Figures after a sample, if there is one. -/
def MonFig.take (m : MonFig) (x : Option Nat) : MonFig :=
  match x with
  | none => m
  | some x => m.add x

/-- MONITOR_SAMPLE: an event of a unit's class, with its length, or a sample of its level (R88, R90, R349). -/
def monitorSample (u : MonUnit) (x : Nat) (s : State) : State :=
  let core (c : Nat) (sel : Word) : Option Nat := sampleOf sel s.cycle (coreLatency (fieldN sel 0 6)) (s.coreLevel c (fieldN sel 0 6) x) x
  match u with
  | .core c 0 => s.modCore c (fun k => { k with mon0 := k.mon0.take (core c k.monsel0) })
  | .core c _ => s.modCore c (fun k => { k with mon1 := k.mon1.take (core c k.monsel1) })
  | .other d n =>
    let m := (s.die d).mon n
    let y := sampleOf m.1 s.cycle (unitLatency n (unitClass n m.1)) (s.unitLevel d n (unitClass n m.1) x) x
    s.modDie d (fun k => { k with mons := tabSet k.mons n (m.1, m.2.take y) })

/-- MONITOR_SAMPLE. -/
def execMonitorSample (unit : MonUnit) (value : Nat) : State → Host.Outcome State Fault Refusal :=
  eventOf (monitorSample unit value)

end Sys2Proof.Machine
end

