-- ==== Sys2Proof/Machine/Rdma.lean ====
section
/-! DEFINITION. Inbound host RDMA: queue pairs, remote keys, and the operations WRITE, READ and SEND (R333, R336, R380, R451). -/

namespace Sys2Proof.Machine

/-! ## Queue pairs and remote keys (R333, R336) -/

/-- The address space of a queue pair that the steward has created. -/
def State.qpAsid (s : State) (qpn : Nat) : Option Nat := (s.qps.find? (fun e => fieldN e.2 0 24 == qpn)).map (fun e => fieldN e.2 24 12)

/-- The address space that a registered remote key grants for n bytes at an address, to an operation of a queue pair (R336). -/
def State.keyAsid (s : State) (qpn rkey va n : Nat) : Option Nat :=
  if (s.qpAsid qpn).isNone then none
  else (s.rkeys.find? (fun e => bitN e.2 0 && fieldN e.2 32 32 == rkey && decide (fieldN e.2 64 64 ≤ va)
    && decide (va + n ≤ fieldN e.2 64 64 + fieldN e.2 128 48))).map (fun e => fieldN e.2 176 12)

/-! ## Places (R112, R336, R380, R451) -/

/-- The die whose walker translates for an inbound operation: the lowest that holds a root table of the address space (log 52). -/
def State.rdmaDie (s : State) (asid : Nat) : Nat :=
  ((List.range 4).find? (fun d => (tabFind (s.die d).roots asid).isSome)).getD 0

/-- The physical address and key of an inbound access within a page, if the job's page table grants it (R112, R336). A WRITE reaches local
SRAM too (R451). -/
def State.rdmaPlace (s : State) (asid : Nat) (wr : Bool) (va : Word) : Option (Nat × Nat) :=
  let die := s.rdmaDie asid
  match s.walk die asid va with
  | .leaf _ pte big =>
    let pa := s.leafPa die asid pte big false va
    if permOk pte { read := !wr, write := wr } = false ∨ (engineReach false (s.spaceOf pa) || (wr && isSram pa)) = false then none
    else match s.spaceOf pa with
      | .reserved => none
      | .hbm p => if (s.keyBad false asid (leafKey pte)).isSome then none else some (p, leafKey pte)
      | _ => some (pa, 0)
  | _ => none

/-- A range cut at 128-byte boundaries: start and length of each line. -/
def lineSpans (va : Word) (n : Nat) : List (Word × Nat) :=
  let a := min n (128 - va.toNat % 128)
  (va, a) :: (List.range ((n - a + 127) / 128)).map (fun j => (va + BitVec.ofNat 64 (a + 128 * j), min 128 (n - a - 128 * j)))

/-! ## The operations (R333, R336) -/

/-- The answer to an operation that cannot be performed (R336). -/
def rdmaNak : Out := .nak 0x02

/-- The lines of an inbound WRITE, in order, up to the first that is refused: by the page table, or as a line with an armed slot
word, token pool bytes or an armed sync line (R380). The words of local SRAM take side-band 0 (R451). -/
def State.rdmaLines (s : State) (asid : Nat) (data : List Byte) : List (Word × Nat) → State
  | [] => s.emitOut .done
  | (va, n) :: t =>
    match s.rdmaPlace asid true va with
    | none => s.emitOut rdmaNak
    | some (pa, key) =>
      if s.syncHit pa n then s.emitOut rdmaNak
      else
        let s1 := s.writeEngine key pa ((data.take n).map (fun b => (b, 0)))
        (s1.touchPage (stewardOf (s.rdmaDie asid)) asid true va).rdmaLines asid (data.drop n) t

/-- A port is up for RDMA: in minimal mode port 0 serves management traffic only (R434). -/
def State.rdmaUp (s : State) : Bool := !s.ports.isEmpty && !s.start.minimal

/-- RDMA_WRITE, while a port is up: the bytes are written at their homes through the job's page table (R336), once no PUBL holds the writes
to their pages (R141). -/
def rdmaWrite (qpn rkey va : Nat) (data : List Byte) (s : State) : State :=
  if s.rdmaUp = false then s
  else match s.keyAsid qpn rkey va data.length with
    | none => s.emitOut rdmaNak
    | some asid =>
      let spans := lineSpans (BitVec.ofNat 64 va) data.length
      if spans.any (fun e => s.publHolds (s.rdmaDie asid) asid e.1) then s else s.rdmaLines asid data spans

/-- RDMA_WRITE. -/
def execRdmaWrite (key : RdmaKey) (va : Nat) (data : List Byte) : State → Host.Outcome State Fault Refusal :=
  eventOf (rdmaWrite key.qpn key.rkey va data)

/-- The bytes of a range of an address space that an inbound READ may read (R336). -/
def State.rdmaBytes (s : State) (asid va len : Nat) : Option (List (Byte × Byte)) :=
  ((pageSpans (BitVec.ofNat 64 va) len).mapM (fun e => (s.rdmaPlace asid false e.1).map (fun p => s.readPhys p.2 p.1 e.2))).map
    List.flatten

/-- RDMA_READ, while a port is up: the bytes of a job range (R336). -/
def rdmaRead (qpn rkey va len : Nat) (s : State) : State :=
  if s.rdmaUp = false then s
  else match s.keyAsid qpn rkey va len with
    | none => s.emitOut rdmaNak
    | some asid => match s.rdmaBytes asid va len with
      | none => s.emitOut rdmaNak
      | some bs => (s.touchRange (stewardOf (s.rdmaDie asid)) asid (BitVec.ofNat 64 va) len).emitOut (.readData (bs.map (·.1)))

/-- RDMA_READ. -/
def execRdmaRead (key : RdmaKey) (va len : Nat) : State → Host.Outcome State Fault Refusal :=
  eventOf (rdmaRead key.qpn key.rkey va len)

/-- RDMA_SEND, while a port is up: the payload's second 8 bytes are delivered as a SEND to the destination, slot and frame word of its first
8 (R336); a static destination is placed by the table of the die's steward (log 52). -/
def rdmaSend (qpn : Nat) (p : BitVec 128) (s : State) : State :=
  let dest : Handle := BitVec.ofNat 32 (fieldN p 0 32)
  let data : Vec := BitVec.ofNat 512 (fieldN p 64 64)
  if s.rdmaUp = false then s
  else match s.qpAsid qpn with
    | none => s.emitOut rdmaNak
    | some asid =>
      let go (dst : Agent) (m : Msg) : State :=
        (s.send { src := .host, dst := dst, cls := .token, tenant := asid, msg := m, held := false }).emitOut .done
      if dest.getLsbD 0 then
        go (.core (handleCore dest)) (.frame (.handle dest) (fieldN p 32 6) (fieldN p 38 9) 1 8 data 0 0 false)
      else match s.resolve (stewardOf (s.rdmaDie asid)) (fieldN dest 3 20) with
        | none => s.emitOut rdmaNak
        | some dst => go dst (.chan (fieldN dest 3 20) (fieldN dest 1 2) { kind := .data, side := 0, colour := 0, vec := false, data := data })

/-- RDMA_SEND. -/
def execRdmaSend (qpn : Nat) (payload : BitVec 128) : State → Host.Outcome State Fault Refusal :=
  eventOf (rdmaSend qpn payload)

end Sys2Proof.Machine
end

