-- ==== Sys2Proof/Machine/Startup.lean ====
section
/-! DEFINITION. A start of the part, failed starts and minimal mode (R339, R340, R432 to R434), the management commands on the
boot store and the stewards (R196, R339, R342, R365, R413, R434), image checks (R436), attestation (R343, R344) and the power
controller (R346 to R348). -/

namespace Sys2Proof.Machine

/-! ## Starts (R340, R432 to R434) -/

/-- Starts after which a start runs in minimal mode, and where the counter stays (R433, R434). -/
def failMax : Nat := 3

/-- What a power-on leaves: the reset values with the boot store, the record of the last failed start, what has left the part,
the numbers of the free values and keys drawn, and the moves to come (R340, R432). -/
def State.powerOn (s : State) : State :=
  { State.reset with boot := s.boot, start := s.start, outbox := s.outbox, fresh := s.fresh, keyNo := s.keyNo,
                     agenda := s.agenda }

/-- The security processor's check of a firmware image of the boot store (R340): its LMS signature with SHA-256. -/
def Boot.firmwareOk (b : Boot) (n : Nat) (image : List Byte) : Bool := lmsVerify b.fwKey (tabGet [] b.signatures n) image

/-- At most two clusters of each die are fused off (R9, R341). -/
def Boot.fusedOk (b : Boot) : Bool :=
  (List.range 4).all (fun d => decide (((List.range 120).filter (fun i => (tabGet (0 : BitVec 120) b.fused d).getLsbD i)).length ≤ 2))

/-- A failed start adds one to the counter of consecutive failed starts (R432). -/
def State.countFail (s : State) : State :=
  let n := min failMax (s.boot.fails + 1)
  { s with boot := { s.boot with fails := n }, start := { s.start with fails := n } }

/-- START: stage 1 begins with the start-in-progress flag set; a flag that still stands is a start that stopped without a code; a
counter at 3 selects minimal mode (R340, R432, R434). -/
def start (s : State) : State :=
  let s1 := if s.boot.inProgress then
      { s with start := { s.start with stage := s.stage, die := 0, code := 0x09, detail := 0 } }.countFail
    else s
  let s2 := s1.powerOn
  { s2 with stage := 1, boot := { s2.boot with inProgress := true },
            start := { s2.start with fails := s2.boot.fails, minimal := decide (s2.boot.fails = failMax) } }

/-- START. -/
def execStart : State → Host.Outcome State Fault Refusal := eventOf start

/-- A start fails: its cause record, the counter, and the flag, since it stopped with a code (R432, R433). -/
def State.failStart (s : State) (die code detail : Nat) : State :=
  let s1 := { s with start := { s.start with stage := s.stage, die := die, code := code, detail := detail }, stage := 0,
                     boot := { s.boot with inProgress := false } }
  if s.start.minimal then s1 else s1.countFail

/-- Cause codes with which a stage may end by what its agent meets (R432); stages 1 and 2 end by their checks alone. -/
def stageCause (stage code : Nat) : Bool := (stage == 3 && code == 0x03) || (stage == 5 && code == 0x05)

/-- Device links that a start trains: those of dimensions above 1 that are not retired (R339, R364). -/
def Boot.trained (b : Boot) : List Nat :=
  (List.range 6).filter (fun l => decide (1 < (if l < 2 then b.dx else if l < 4 then b.dy else b.dz)) && !bitN b.dlinks l)

/-- Stage 4: torus dimensions, device id and trained links (R339). -/
def State.setLinks (s : State) : State :=
  { s with dx := s.boot.dx, dy := s.boot.dy, dz := s.boot.dz, device := s.boot.device, links := s.boot.trained,
           dlinks := s.dlinks ||| s.boot.dlinks }

/-- Stage 5: the harvest maps, the health map and the key ids 0 to 15, which are the steward's (R117, R341, R365). -/
def State.loadMaps (s : State) : State :=
  let s1 := (List.range 4).foldl (fun t d => t.modDie d (fun k => { k with harvest := tabGet 0 s.boot.fused d })) s
  let s2 := s.boot.health.foldl (fun t e => t.modCluster e.1 (fun k => { k with health := e.2 })) s1
  let s3 := s.boot.dieHealth.foldl (fun t e => t.modDie e.1 (fun k => { k with health := e.2 })) s2
  (List.range 16).foldl (fun t k => t.loadKey k 0 0) s3

/-- The firing that runs a steward's firmware from its entry (R342, log 8): frame 0, word address 0; its temporaries hold free
values (R45). -/
def firmwareFiring (core fresh : Nat) : Firing :=
  { (placedFiring core) with pc := 0, temps := Vector.ofFn (fun i => Config.freeVec (fresh + i.val)) }

/-- A steward core starts: its firmware in its instruction store, its blocks sealed, frame 0 with the firmware's firing (R340,
log 8). -/
def State.bootSteward (s : State) (die : Nat) : State :=
  let c := stewardOf die
  { s with mem := memPuts s.mem (codeAddr c 0) (s.boot.steward.take 65536), fresh := s.fresh + 8 }.setCore c
    { CoreSt.reset with sealed := 0xFFFF, fpool := 1024, frames := [(0, placedFrame)], firing := some (firmwareFiring c s.fresh) }

/-- Dies whose steward a start brings up. -/
def State.startDies (s : State) : List Nat := if s.start.minimal then [0] else [0, 1, 2, 3]

/-- The record of the last failed start in die 0's log (R433). -/
def State.logStart (s : State) : State :=
  if s.boot.fails = 0 then s else s.logErr (unitErr 0x15 s.start.code 7 0 10 0 0)

/-- Stage 6 begins: the stewards start. -/
def State.startStewards (s : State) : State := s.startDies.foldl State.bootSteward s.logStart

/-- A start completes: the ports are up, the part is announced ready, the flag is clear, and in normal mode the counter is 0 (R340,
R432, R434). -/
def State.completeStart (s : State) : State :=
  let n := if s.start.minimal then s.boot.fails else 0
  { s with stage := 8, ports := if s.start.minimal then [0] else [0, 1], boot := { s.boot with inProgress := false, fails := n },
           start := { s.start with fails := n }, outbox := s.outbox ++ [.ready] }

/-- A stage completes and the next one begins (R340); minimal mode goes from stage 2 to stage 6 (R434). Stages 1 and 2 verify the
firmware, stage 5 the harvest map, and end the start when the check fails (R432). -/
def State.nextStage (s : State) : State :=
  match s.stage with
  | 1 => if s.boot.firmwareOk 0 s.boot.security then { s with stage := 2 } else s.failStart 0 0x01 0
  | 2 =>
    if s.boot.firmwareOk 1 s.boot.steward = false ∨ s.boot.firmwareOk 2 s.boot.management = false then s.failStart 0 0x02 0
    else if s.start.minimal then { s with stage := 6 }.startStewards else { s with stage := 3 }
  | 3 => { s with stage := 4 }.setLinks
  | 4 => { s with stage := 5 }
  | 5 => if s.boot.fusedOk then { s.loadMaps with stage := 6 }.startStewards else s.failStart 0 0x05 0
  | 6 => { s with stage := 7 }
  | 7 => s.completeStart
  | _ => s

/-- A device link that is retired, in the health map and the boot store, with its LINK record (R365, R414). -/
def State.retireDlink (s : State) (l code : Nat) : State :=
  ({ s with dlinks := s.dlinks ||| BitVec.ofNat 32 (2 ^ l), links := s.links.filter (fun x => x != l),
            boot := { s.boot with dlinks := s.boot.dlinks ||| BitVec.ofNat 32 (2 ^ l) } }).logErr
    { unitErr 0x0F code 4 0 5 l 0 with retry := 2 }

/-- START_STAGE (R340, R414, R432): an end that the stage does not have changes nothing. -/
def startStage (r : StageEnd) (s : State) : State :=
  match r with
  | .completed => s.nextStage
  | .linkFailed l => if s.stage = 4 ∧ s.links.contains l = true then s.retireDlink l 0x04 else s
  | .failed die code detail => if stageCause s.stage code then s.failStart die code detail else s

/-- START_STAGE. -/
def execStartStage (result : StageEnd) : State → Host.Outcome State Fault Refusal := eventOf (startStage result)

/-- STAGE_WATCHDOG: a stage that exceeds 60 s ends its start (R432). -/
def stageWatchdog (s : State) : State := if 1 ≤ s.stage ∧ s.stage ≤ 7 then s.failStart 0 0x08 0 else s
/-- STAGE_WATCHDOG. -/
def execStageWatchdog : State → Host.Outcome State Fault Refusal := eventOf stageWatchdog

/-- STEWARD_READY_TIMEOUT (R432). -/
def stewardReadyTimeout (die : Nat) (s : State) : State :=
  if s.stage = 6 ∧ s.startDies.contains die = true then s.failStart die 0x06 0 else s
/-- STEWARD_READY_TIMEOUT. -/
def execStewardReadyTimeout (die : Nat) : State → Host.Outcome State Fault Refusal := eventOf (stewardReadyTimeout die)

/-- ETHERNET_TIMEOUT: a port does not come up within 10 s of stage 7; minimal mode brings up port 0 only (R432, R434). -/
def ethernetTimeout (port : Nat) (s : State) : State :=
  if s.stage = 7 ∧ (port = 0 ∨ (port = 1 ∧ s.start.minimal = false)) then s.failStart 0 0x07 port else s
/-- ETHERNET_TIMEOUT. -/
def execEthernetTimeout (port : Nat) : State → Host.Outcome State Fault Refusal := eventOf (ethernetTimeout port)

/-- MINIMAL_MODE_EXIT: the counter is set to 0 and the part restarts (R434). -/
def minimalModeExit (s : State) : State :=
  if s.start.minimal && s.ports.contains 0 then start { s with boot := { s.boot with fails := 0, inProgress := false } } else s
/-- MINIMAL_MODE_EXIT. -/
def execMinimalModeExit : State → Host.Outcome State Fault Refusal := eventOf minimalModeExit

/-! ## Management commands (R196, R339, R342, R365, R434) -/

/-- Management traffic is accepted on port 0 only (R332). -/
def State.managed (s : State) (f : State → State) : State := if s.ports.contains 0 then f s else s

/-- STEWARD_RESTART: a halted steward core runs again from its firmware entry; its die's tables stay (R342). What the halted firing
had held is dropped with it. -/
def stewardRestart (die : Nat) (s : State) : State :=
  let c := stewardOf die
  if s.ports.contains 0 && (s.core c).halted then
    let s1 := (s.core c).firing.elim s (fun f => s.discardHeld c f)
    { s1 with fresh := s1.fresh + 8 }.modCore c (fun k =>
      { k with halted := false, firing := some (firmwareFiring c s1.fresh) })
  else s
/-- STEWARD_RESTART. -/
def execStewardRestart (die : Nat) : State → Host.Outcome State Fault Refusal := eventOf (stewardRestart die)

/-- Links that come back into service by a clear of their bits: what waited for one goes on (R308). -/
def State.linksBack (s : State) (links : List LinkId) : State := links.foldl State.redBack s

/-- Bits of a health word are cleared, in the die's map and in the boot store's copy (R365). -/
def State.clearHealth (s : State) (die offset : Nat) (mask : BitVec 32) : State :=
  let c := die * 120 + (offset - 0x1000) / 4
  if 0x1000 ≤ offset ∧ offset < 0x11E0 then
    ({ s with boot := { s.boot with health := tabSet s.boot.health c (tabGet 0 s.boot.health c &&& ~~~mask) } }.modCluster c
      (fun k => { k with health := k.health &&& ~~~mask })).linksBack
        (((List.range 4).filter (fun d => bitN mask (21 + d))).map (LinkId.torus c))
  else if offset = 0x11E0 then
    { s with boot := { s.boot with dieHealth := tabSet s.boot.dieHealth die (tabGet 0 s.boot.dieHealth die &&& ~~~mask) } }.modDie die
      (fun d => { d with health := d.health &&& ~~~mask })
  else if offset = 0x11E4 ∧ die = 0 then
    { s with dlinks := s.dlinks &&& ~~~mask, boot := { s.boot with dlinks := s.boot.dlinks &&& ~~~mask } }.linksBack
      (((List.range 6).filter (fun l => bitN mask l)).map LinkId.device)
  else s

/-- HEALTH_MAP_CLEAR: bits of a health word are cleared (R365). -/
def healthMapClear (die offset : Nat) (mask : BitVec 32) (s : State) : State := s.managed (fun t => t.clearHealth die offset mask)
/-- HEALTH_MAP_CLEAR. -/
def execHealthMapClear (die offset : Nat) (mask : BitVec 32) : State → Host.Outcome State Fault Refusal :=
  eventOf (healthMapClear die offset mask)

/-- IMAGE_KEY_REPLACE (R196). -/
def imageKeyReplace (key : List Byte) (s : State) : State :=
  s.managed (fun t => { t with boot := { t.boot with imageKey := key } })
/-- IMAGE_KEY_REPLACE. -/
def execImageKeyReplace (key : List Byte) : State → Host.Outcome State Fault Refusal := eventOf (imageKeyReplace key)

/-- CONFIGURATION_RECORD_REPLACE: a record within the torus limits takes effect at the next start (R293, R339). -/
def configurationRecordReplace (dx dy dz device : Nat) (s : State) : State :=
  if s.ports.contains 0 = true ∧ 1 ≤ dx ∧ dx ≤ 16 ∧ 1 ≤ dy ∧ dy ≤ 8 ∧ 1 ≤ dz ∧ dz ≤ 8 ∧ device < 1024 then
    { s with boot := { s.boot with dx := dx, dy := dy, dz := dz, device := device } }
  else s
/-- CONFIGURATION_RECORD_REPLACE. -/
def execConfigurationRecordReplace (dx dy dz device : Nat) : State → Host.Outcome State Fault Refusal :=
  eventOf (configurationRecordReplace dx dy dz device)

/-- A firmware image of the boot store is replaced, with its signature. -/
def Boot.replace (b : Boot) (which : Firmware) (image sig : List Byte) : Boot :=
  match which with
  | .security => { b with security := image, signatures := tabSet b.signatures 0 sig }
  | .steward => { b with steward := image, signatures := tabSet b.signatures 1 sig }
  | .management => { b with management := image, signatures := tabSet b.signatures 2 sig }

/-- FIRMWARE_REPLACE: one image of the boot store is replaced (R434). -/
def firmwareReplace (which : Firmware) (image : SignedImage) (s : State) : State :=
  s.managed (fun t => { t with boot := t.boot.replace which image.bytes image.sig })
/-- FIRMWARE_REPLACE. -/
def execFirmwareReplace (which : Firmware) (image : SignedImage) : State → Host.Outcome State Fault Refusal :=
  eventOf (firmwareReplace which image)

/-! ## Image checks (R436) -/

/-- What the security processor finds on the image that the mailbox names. -/
def State.imageResult (s : State) : Nat :=
  s.verifyImageAt (fieldN (tabGet 0 s.spmbox.words 1) 0 52) (fieldN (tabGet 0 s.spmbox.words 2) 0 32)
    (fieldN (tabGet 0 s.spmbox.words 2) 32 32)

/-- The security processor reads the image's bytes through the home slices (R104, R436). -/
def State.touchImage (s : State) : State :=
  s.touchPlains (fieldN (tabGet 0 s.spmbox.words 1) 0 52)
    (fieldN (tabGet 0 s.spmbox.words 2) 0 32 + fieldN (tabGet 0 s.spmbox.words 2) 32 32) false

/-- VERIFY_IMAGE_RESULT: both checks are done and the mailbox holds the result (R436). -/
def verifyImageResult (s : State) : State :=
  if s.spmbox.busy then
    { s.touchImage with spmbox := { words := tabSet s.spmbox.words 0 (BitVec.ofNat 64 (s.imageResult * 256)), busy := false } }
  else s
/-- VERIFY_IMAGE_RESULT. -/
def execVerifyImageResult : State → Host.Outcome State Fault Refusal := eventOf verifyImageResult

/-! ## Attestation (R343, R344; log 19) -/

/-- SPDM response codes and the ERROR codes used here (SPDM 1.2). -/
def spdmError (code : Nat) : Out := .spdm 0x7F [BitVec.ofNat 8 code]

/-- A requester's message is answered when the management port is up: in its turn of the flow, else with ERROR Unexpected
Request. -/
def State.spdmAnswer (s : State) (inTurn : Bool) (f : State → State) : State :=
  if s.ports.contains 0 = false then s
  else if inTurn then f s
  else s.emitOut (spdmError 0x04)

/-- GET_VERSION: VERSION with the one entry 1.2; the flow begins again. -/
def getVersion (s : State) : State :=
  s.spdmAnswer true (fun t => { t with spdm := 1 }.emitOut (.spdm 0x04 [1, 0x00, 0x12]))
/-- GET_VERSION. -/
def execGetVersion : State → Host.Outcome State Fault Refusal := eventOf getVersion

/-- GET_CAPABILITIES: CAPABILITIES. -/
def getCapabilities (s : State) : State :=
  s.spdmAnswer (s.spdm == 1) (fun t => { t with spdm := 2 }.emitOut (.spdm 0x61 (Config.spdmBody 0x61)))
/-- GET_CAPABILITIES. -/
def execGetCapabilities : State → Host.Outcome State Fault Refusal := eventOf getCapabilities

/-- NEGOTIATE_ALGORITHMS: ALGORITHMS. -/
def negotiateAlgorithms (s : State) : State :=
  s.spdmAnswer (s.spdm == 2) (fun t => { t with spdm := 3 }.emitOut (.spdm 0x63 (Config.spdmBody 0x63)))
/-- NEGOTIATE_ALGORITHMS. -/
def execNegotiateAlgorithms : State → Host.Outcome State Fault Refusal := eventOf negotiateAlgorithms

/-- GET_CERTIFICATE: a part of the device's certificate chain. -/
def getCertificate (offset len : Nat) (s : State) : State :=
  s.spdmAnswer (s.spdm == 3) (fun t =>
    t.emitOut (.spdm 0x02 ((List.range len).map (fun j => Config.certificateByte (offset + j)))))
/-- GET_CERTIFICATE. -/
def execGetCertificate (offset len : Nat) : State → Host.Outcome State Fault Refusal := eventOf (getCertificate offset len)

/-- Leaves of the device identity key (R344). -/
def leafCount : Nat := 1048576

/-- The harvest maps of dies 0 to 3, 16 bytes each; in minimal mode as the boot store holds them (R434). -/
def State.harvestBytes (s : State) : List Byte :=
  (List.range 4).flatMap (fun d =>
    leBytes 16 (if s.start.minimal then tabGet 0 s.boot.fused d else (s.die d).harvest).toNat)

/-- Measurements 1 to 5 (R343). -/
def State.measurements (s : State) : List Byte :=
  sha256 s.boot.security ++ sha256 s.boot.steward ++ sha256 s.boot.management ++ sha256 s.harvestBytes
    ++ sha256 (leBytes 1 s.dx ++ leBytes 1 s.dy ++ leBytes 1 s.dz ++ leBytes 2 s.device)

/-- A signed response: the next leaf is taken, in the boot store first, and the signature goes out behind the body; after the last
leaf an ERROR (R344). -/
def State.signedOut (s : State) (code : Nat) (body : List Byte) : State :=
  if leafCount ≤ s.boot.leaf then s.emitOut (spdmError 0x05)
  else { s with boot := { s.boot with leaf := s.boot.leaf + 1 } }.emitOut
    (.spdm code (body ++ lmsSign s.boot.leaf body))

/-- Bytes of a nonce. -/
def nonceBytes (n : Rec) : List Byte := leBytes 32 n.toNat

/-- CHALLENGE: CHALLENGE_AUTH, signed (R344). -/
def challenge (nonce : Rec) (s : State) : State :=
  s.spdmAnswer (s.spdm == 3) (fun t => t.signedOut 0x03 (nonceBytes nonce ++ sha256 t.measurements))
/-- CHALLENGE. -/
def execChallenge (nonce : Rec) : State → Host.Outcome State Fault Refusal := eventOf (challenge nonce)

/-- GET_MEASUREMENTS: MEASUREMENTS, signed or not (R343, R344). -/
def getMeasurements (nonce : Rec) (signed : Bool) (s : State) : State :=
  s.spdmAnswer (s.spdm == 3) (fun t =>
    if signed then t.signedOut 0x60 (t.measurements ++ nonceBytes nonce) else t.emitOut (.spdm 0x60 t.measurements))
/-- GET_MEASUREMENTS. -/
def execGetMeasurements (nonce : Rec) (signed : Bool) : State → Host.Outcome State Fault Refusal :=
  eventOf (getMeasurements nonce signed)

/-! ## Power and clock (R346 to R348) -/

/-- Measurements of 10 µs in 1 ms. -/
def quietMax : Nat := 100

/-- One measurement: draw in W, highest sensor in 0.25 °C, droop in mV (R346, R348). A step, by draw or temperature, is 25 MHz
(log 51). -/
def Power.measure (p : Power) (watts tmax droop : Nat) : Power :=
  let hot := decide (420 < tmax) || (p.hot && decide (400 < tmax))
  let down := hot || decide (p.budget < watts)
  let low := if 100 * watts ≤ 95 * p.budget then p.low + 1 else 0
  let up := !down && decide (quietMax ≤ low)
  { mhz := if down then max 1200 (p.mhz - 25) else if up then min 2700 (p.mhz + 25) else p.mhz,
    watts := watts, budget := p.budget, tmax := tmax, droop := droop, thr := p.thr || (hot && decide (1200 < p.mhz)),
    low := if up || down then 0 else low, hot := hot }

/-- POWER_MEASUREMENT. -/
def powerMeasurement (watts tmax droop : Nat) (s : State) : State := { s with power := s.power.measure watts tmax droop }
/-- POWER_MEASUREMENT. -/
def execPowerMeasurement (watts tmax droop : Nat) : State → Host.Outcome State Fault Refusal :=
  eventOf (powerMeasurement watts tmax droop)

end Sys2Proof.Machine
end

