-- ==== Sys2Proof/Machine/Recover.lean ====
section
/-! DEFINITION. Links that replay, degrade and retire, and the packets that a reroute holds (R412 to R416); packets that the network
drops (R415, R417 to R419, R441, R442); detected hardware errors (R362, R364, R402); and the stall detector (R431). -/

namespace Sys2Proof.Machine

/-! ## Links (R412 to R416) -/

/-- A LINK record of a router, or of a device link. -/
def State.linkRecord (s : State) (link : LinkId) (code unit retry : Nat) (receiver : Bool) : State :=
  match link with
  | .torus c d =>
    let r := if receiver then farRouter c d else c
    s.logErr { unitErr 0x0F code unit (coreAt r 0) 4 (if receiver then d / 2 * 2 + (1 - d % 2) else d) 0 with retry := retry }
  | .device l => s.logErr { unitErr 0x0F code unit 0 5 l 0 with retry := retry }

/-- A corrected replay is counted in its window; the degn-th of one window degrades the link, which is recorded once,
and the reductions that use it re-plan (R308, R413). -/
def State.countReplay (s : State) (link : LinkId) : State :=
  let (die, key) := linkPlace link
  let d := s.die die
  let w := s.cycle / 2 ^ (16 + d.resctl.degw)
  let was := tabGet (0, 0) d.replays key
  let n := if was.1 = w then was.2 + 1 else 1
  let s1 := s.modDie die (fun d => { d with replays := tabSet d.replays key (w, n) })
  if max 1 d.resctl.degn ≤ n ∧ d.degraded.contains key = false then
    ((s1.modDie die (fun d => { d with degraded := d.degraded ++ [key] })).linkRecord link 0x02 4 0 true).redLost link
  else s1

/-- The links that a packet's route takes now. -/
def State.pathOf (s : State) (p : Packet) : List (Nat × Nat) :=
  ((s.legOf p).map (fun e => s.routeOf (s.confines p e.1 e.2) e.1 e.2)).getD []

/-- The packet crosses a link on its way. -/
def State.crosses (s : State) (link : LinkId) (p : Packet) : Bool :=
  match link with
  | .torus c d => (s.pathOf p).contains (c, d)
  | .device l => (match p.dst with
    | .device dev _ => s.leavingLink p.msg.takesAlt dev == some l
    | _ => false)

/-- Pairs with packets under way on routes over a link: their sources hold what they release from now on (R416). -/
def State.reroute (s : State) (link : LinkId) : State :=
  let pairs := (s.net.filter (fun p => !p.held && s.crosses link p)).map (fun p => (p.src, p.dst, p.cls))
  { s with rerouting := s.rerouting ++ (pairs.filter (fun e => !s.rerouting.contains e)).eraseDups }

/-- A link direction fails its replay: it is retired, and traffic over it is rerouted (R308, R414, R415, R416). -/
def State.retireLink (s : State) (link : LinkId) : State :=
  let s1 := s.reroute link
  (match link with
   | .torus c d => (s1.retireBit c (21 + d)).linkRecord link 0x03 4 2 false
   | .device l => s1.retireDlink l 0x03).redLost link

/-- LINK_REPLAY: a replay delivers the packets again in their order, so it leaves only a record; one that fails retires the link
(R412 to R414). A retired link carries nothing more. -/
def linkReplay (link : LinkId) (corrected : Bool) (s : State) : State :=
  if s.linkGone link then s
  else if corrected then
    let s1 := s.linkRecord link 0x01 5 1 true
    (match link with
     | .torus c d => s1.setFlag (farRouter c d) 4
     | .device _ => s1).countReplay link
  else s.retireLink link

/-- LINK_REPLAY. -/
def execLinkReplay (link : LinkId) (corrected : Bool) : State → Host.Outcome State Fault Refusal :=
  eventOf (linkReplay link corrected)

/-- LINK_DEGRADATION_CLEAR, a management command (R332, R413). -/
def linkDegradationClear (link : LinkId) (s : State) : State :=
  let (die, key) := linkPlace link
  s.managed (fun t => (t.modDie die (fun d =>
    { d with degraded := d.degraded.filter (fun k => k != key), replays := tabDel d.replays key })).redBack link)

/-- LINK_DEGRADATION_CLEAR. -/
def execLinkDegradationClear (link : LinkId) : State → Host.Outcome State Fault Refusal :=
  eventOf (linkDegradationClear link)

/-- HELD_PACKET_RELEASE: every redirected packet of the pair has been delivered, so what its source holds leaves (R416). -/
def heldPacketRelease (k : Nat) (s : State) : State :=
  match s.pkt k with
  | none => s
  | some p =>
    if p.held = false ∨ s.net.any (fun q => q.sameFlow p && !q.held) = true then s
    else { s with net := s.net.map (fun q => if q.sameFlow p then { q with held := false } else q),
                  rerouting := s.rerouting.filter (fun e => e != (p.src, p.dst, p.cls)) }

/-- HELD_PACKET_RELEASE. -/
def execHeldPacketRelease (pkt : Nat) : State → Host.Outcome State Fault Refusal := eventOf (heldPacketRelease pkt)

/-! ## Dropped packets (R415, R417, R419) -/

/-- Bytes of a Turn ring's block are dropped on their way to another device: their TURNGO fails at them (R381, R417). -/
def State.blockLost (s : State) (cluster job : Nat) (isK : Bool) (o : Nat) : State :=
  match s.jobIn (.copy cluster) job with
  | none => s
  | some j =>
    let done := (if isK then 0 else (s.ring cluster (fieldN j.desc 32 2)).elim 0 (fun r => r.sizes.1)) + o
    if j.fault.isSome then s
    else (s.modJob (.copy cluster) job (fun j => { j with bytes := min j.bytes done })).failCopy (.copy cluster) job
      { fcode := 6, cls := 6, code := 5, addr := j.blockSource isK o }

/-- What the refusal acknowledgement of a dropped packet does (R417; log 54): a token's credit comes back, a request or its lost
answer ends as a refusal, a contribution ends with status 5, a use of a reduction that loses a partial fails, and a TURNGO whose block is
dropped fails with fcode 0x06. -/
def State.refusePacket (s : State) (p : Packet) : State :=
  let refuse (r : Req) : State := s.sendResp (.router (clusterOf r.ctx.core)) r (.refuse r 0 0)
  match p.msg with
  | .access r => refuse r
  | .loadResp r _ _ => refuse r
  | .atomResp r _ _ => refuse r
  | .ack r => refuse r
  | .refuse r _ _ => refuse r
  | .hpput c => s.failSource (.hpput c)
  | .redChunk c => (match p.src with
    | .router r => s.failUse r c.ref c.use
    | _ => s.failSource (.redChunk c))
  | .block _ _ _ isK o _ _ cluster job => s.blockLost cluster job isK o
  | _ => s.refuseToken (.router (((s.legOf p).map (·.1)).getD 0)) p

/-- The packet is the first of its flow. -/
def State.firstOfFlow (s : State) (k : Nat) (p : Packet) : Bool := (s.net.take k).all (fun q => !q.sameFlow p)

/-- Core id of an agent, or its cluster with core 0. -/
def agentCore : Agent → Nat
  | .core c => c
  | .press c => c
  | .device _ c => c
  | a => ((agentCluster a).map (fun k => coreAt k 0)).getD 0

/-- KERF_GUARD_DROP (R418, R419, R441, R442). -/
def kerfGuardDrop (k : Nat) (s : State) : State :=
  match s.pkt k with
  | none => s
  | some p =>
    match s.kerfExit p with
    | none => s
    | some link =>
      if p.held = true ∨ s.firstOfFlow k p = false then s
      else ((s.dropPkt k).kerfDrop link (kerfClass p.cls) (agentCore p.src) (agentCore p.dst) p.tenant).refusePacket p

/-- KERF_GUARD_DROP. -/
def execKerfGuardDrop (pkt : Nat) : State → Host.Outcome State Fault Refusal := eventOf (kerfGuardDrop pkt)

/-- The router where the preferred route of a packet ends: before its first retired link, or at the gateway of a link out of service. -/
def State.routeEnd (s : State) (p : Packet) : Nat :=
  match s.legOf p, p.dst with
  | some (a, b), _ => s.deadEnd (s.confines p a b) a b
  | none, .device dev _ =>
    let a := (agentCluster p.src).getD 0
    ((s.deviceLink dev).map (fun e => gatewayOf (a / 120) e.1)).getD a
  | none, _ => (agentCluster p.src).getD 0

/-- NO_ROUTE_DROP: recorded once for each source agent (R415, R58). -/
def noRouteDrop (k : Nat) (s : State) : State :=
  match s.pkt k with
  | none => s
  | some p =>
    if p.held = true ∨ s.noRoute p = false ∨ s.kerfBlocked p = true ∨ s.firstOfFlow k p = false then s
    else
      ((s.dropPkt k).noRouteNote p.src (s.routeEnd p) p.tenant).refusePacket p

/-- NO_ROUTE_DROP. -/
def execNoRouteDrop (pkt : Nat) : State → Host.Outcome State Fault Refusal := eventOf (noRouteDrop pkt)

/-! ## Detected hardware errors (R362, R364, R402) -/

/-- Words of 8 bytes of HBM or of its home slice take the poison pattern (R356, R402). -/
def State.poisonWords (s : State) (ws : List Nat) : State :=
  { s with poison := s.poison.filter (fun w => !ws.contains w) ++ ws }

/-- A line takes the poison pattern. -/
def State.poisonLine (s : State) (pa : Nat) : State := s.poisonWords (wordsOf (pa / 128 * 128) 128)

/-- Ways that a health word shows as retired, one more (R365). -/
def oneWayMore (h : BitVec 32) : BitVec 32 := setFieldN h 28 4 (fieldN h 28 4 + 1)

/-- A slice can retire a way: 4 stay in service (R364). -/
def State.spareWays (s : State) (cluster : Nat) : Bool := decide (fieldN (s.cluster cluster).health 28 4 < 12)

/-- A slice retires a way, in its die's map and in the boot store, and gives up what it held (R364, R365). -/
def State.retireWay (s : State) (cluster : Nat) : State :=
  if s.spareWays cluster then
    let s1 := s.modCluster cluster (fun k => { k with health := oneWayMore k.health })
    (({ s1 with boot := { s1.boot with
        health := tabSet s1.boot.health cluster (oneWayMore (tabGet 0 s1.boot.health cluster)) } }).trimSlice cluster).setFlag cluster 5
  else s

/-- The issued Press job of a core that a failing slice works on: the first in issue order. -/
def State.pressJob (s : State) (core : Nat) : Option Job :=
  ((s.livePress core).filter (fun j => j.state == .issued)).foldl (fun m j => match m with
    | none => some j
    | some k => if j.order < k.order then some j else some k) none

/-- The atomic that the home of a packet's place performs: the first of its flow, on HBM. -/
def State.homeAtomicAt (s : State) (k : Nat) : Option Req :=
  match s.pkt k with
  | some p => (match p.msg with
    | .access r => (match r.kind with
      | .atomic .. => if isHbm r.pa && s.firstOfFlow k p then some r else none
      | _ => none)
    | _ => none)
  | none => none

/-- The record of an error in an array (R363, R402): class, code, reporting core, agent, index, address and tenant; none where the array
does not hold what is read. -/
def State.errorAt (s : State) (a : ErrorArray) : Option ErrInfo :=
  let atCore (code core : Nat) : ErrInfo := coreErr 0x08 code 0 core (s.tenantOf core)
  let atPress (cls code core : Nat) : ErrInfo := unitErr cls code 0 core 1 (coreInCluster core) (s.tenantOf core)
  let atHome (code akind aidx pa : Nat) : ErrInfo :=
    { unitErr 0x08 code 0 (coreAt (homeOf pa) 0) akind aidx 0 with addr := some (pa, true) }
  match a with
  | .localSram core o => if o < sramSize then some { atCore 0x01 core with addr := some (winAddr core (o / 8 * 8), true) } else none
  | .press core => (s.pressJob core).map (fun j => { atPress 0x08 0x02 core with raw := j.tagSeq.1 })
  | .pressParity core => (s.pressJob core).map (fun j => { atPress 0x0C 0x01 core with raw := j.tagSeq.1 })
  | .sliceData pa => if isHbm pa && (s.residentLine (pa / 128)).isSome then some (atHome 0x03 3 0 (pa / 8 * 8)) else none
  | .sliceTag pa => if isHbm pa && (s.residentLine (pa / 128)).isSome then some (atHome 0x04 3 0 (pa / 128 * 128)) else none
  | .hbm pa => if isHbm pa && (s.residentLine (pa / 128)).isNone then some (atHome 0x05 7 (stackOf pa) (pa / 8 * 8)) else none
  | .instructionStore core n => (s.core core).firing.bind (fun f =>
      if f.pc = n then some { ctxErr 0x08 0x06 0 f.ctx n with pc := n } else none)
  | .coreTable core => some (atCore 0x08 core)
  | .reductionUnit k => some (unitErr 0x10 0x01 0 (coreAt k 0) 4 0 0)
  | .sliceAtomic k => (s.homeAtomicAt k).map (fun r => { atHome 0x03 3 0 r.pa with tenant := r.asid })

/-- The array is kept by ECC, which corrects a single bit; parity and checksums only detect (R362). -/
def keptByEcc : ErrorArray → Bool
  | .pressParity _ => false
  | .reductionUnit _ => false
  | .sliceAtomic _ => false
  | _ => true

/-- An error that leaves no trace but a record and the corr flag (R362, R368). -/
def State.noteError (s : State) (e : ErrInfo) (retry : Nat) : State :=
  (s.logErr { e with unit := 5, retry := retry }).setFlag (clusterOf e.core) 4

/-- The issued Press job that a slice works on fails for good: it retires without its completion arrival, its tags expect the
sequence that it had, the slice is retired, and the record and its fault token go out (R378, R402). -/
def State.pressFails (s : State) (e : ErrInfo) (core : Nat) : State :=
  match s.pressJob core with
  | none => s
  | some j =>
    let back (t : TagRec) : TagRec := { t with expect := (t.expect + 65535) % 65536 }
    let s1 := (s.modPress core (fun p => j.seqTags.foldl (fun p n => p.modTag n back) p)).retireJob j.pressQueue j
    let e := { e with unit := 4, retry := 2 }
    ((s1.retireBit (clusterOf core) (8 + coreInCluster core)).logErr e).faultToken core e.toRec 0

/-- A chunk that a bad reduction unit sends again fails again: its checksum stays wrong (R421). -/
def spoilChunk (cluster : Nat) (p : Packet) : Packet :=
  if agentCluster p.src = some cluster then
    match p.msg with
    | .redChunk c => { p with msg := .redChunk { c with sum := 2 ^ 61 } }
    | .hpput c => { p with msg := .hpput { c with sum := 2 ^ 61 } }
    | _ => p
  else p

/-- Containment unit of a lasting fault in a slice: 4 in one with 4 ways left, which retires none (R364). -/
def State.wayUnit (s : State) (cluster unit : Nat) : Nat := if s.spareWays cluster then unit else 4

/-- A tag that cannot be read loses its line; a dirty line's 128 bytes take the poison pattern (R402). -/
def State.dropLine (s : State) (pa : Nat) : State :=
  if (s.residentLine (pa / 128)).any (·.dirty) then (s.evictLine (pa / 128)).poisonLine pa else s.evictLine (pa / 128)

/-- A slice's atomic fails for good: its firing's error, its location poisoned (R362). -/
def State.atomicFails (s : State) (e : ErrInfo) (k : Nat) (r : Req) : State :=
  let e := { e with retry := 2, unit := s.wayUnit (homeOf r.pa) 0 }
  (((((s.dropPkt k).poisonWords (wordsOf r.pa r.size)).logErr e).faultToken r.ctx.core e.toRec 0).retireWay (homeOf r.pa)).sendResp
    (s.agentOf r.pa) r (.refuse r 0 0)

/-- A lasting fault, by array (R362, R364, R402). -/
def State.lasting (s : State) (e : ErrInfo) (a : ErrorArray) : State :=
  match a with
  | .localSram core o =>
    let pa := winAddr core o
    ((s.setSide pa (s.sideAt pa ||| 0x20)).logErr { e with unit := 1, retry := 2 }).retireCore core
  | .press core => s.pressFails e core
  | .pressParity core => s.pressFails e core
  | .sliceData pa => ((s.logErr { e with unit := s.wayUnit (homeOf pa) 1, retry := 2 }).poisonLine pa).retireWay (homeOf pa)
  | .sliceTag pa => ((s.logErr { e with unit := s.wayUnit (homeOf pa) 1, retry := 2 }).dropLine pa).retireWay (homeOf pa)
  | .hbm pa => (s.logErr { e with unit := 1, retry := 2 }).poisonLine pa
  | .instructionStore core _ =>
    ((s.core core).firing.elim s (fun f => s.faultFiring core f { e with retry := 2 })).retireCore core
  | .coreTable core => ((s.logErr { e with unit := 2, retry := 2 }).modCore core (fun c => { c with stopped := true })).retireCore core
  | .reductionUnit k => { s with net := s.net.map (spoilChunk k) }
  | .sliceAtomic k => (s.homeAtomicAt k).elim s (s.atomicFails e k)

/-- UNCORRECTABLE_ERROR: an error that is corrected, in line or by its retry, leaves a record and the corr flag (R362, R368);
a lasting one is contained and its unit retired. -/
def uncorrectableError (a : ErrorArray) (how : ErrorEnd) (s : State) : State :=
  match s.errorAt a with
  | none => s
  | some e =>
    match how with
    | .corrected => if keptByEcc a then s.noteError e 0 else s
    | .retried => s.noteError e 1
    | .lasting => s.lasting e a

/-- UNCORRECTABLE_ERROR. -/
def execUncorrectableError (array : ErrorArray) (how : ErrorEnd) : State → Host.Outcome State Fault Refusal :=
  eventOf (uncorrectableError array how)

/-! ## The stall detector (R431) -/

/-- The stall threshold of a die in cycles (R411). -/
def State.stallLimit (s : State) (die : Nat) : Nat :=
  let e := (s.die die).resctl.stallexp
  2 ^ (if 20 ≤ e ∧ e ≤ 40 then e else 40)

/-- The lowest slot of a frame whose word meets a condition. -/
def State.slotWhere (s : State) (core i : Nat) (f : Nat → Word → Bool) : Option Nat :=
  (List.range ((s.core core).frame i).nslot).find? (fun n => f n (s.fword core i n))

/-- The head token of an input port of a node arrived no later than a cycle. -/
def CoreSt.headBy (c : CoreSt) (v p cycle : Nat) : Bool :=
  match (c.chanOf v p).map c.chan with
  | none => false
  | some ch => ch.times.head?.any (fun t => decide (t ≤ cycle))

/-- Input ports of a STREAM slot, by mask, or of a MATCH slot, by number (R38, R39). -/
def slotIns (w : Word) : List Nat := if slotKind w = 2 then [slotBind w % 4, slotBind w / 4 % 4] else maskPorts (slotBind w % 16)

/-- A STREAM or MATCH slot that holds a token which came no later than the frame's last progress (log 53). -/
def State.inputWaits (s : State) (core : Nat) (f : Frame) (w : Word) : Bool :=
  (slotKind w == 1 || slotKind w == 2) && slotValid w && slotArmed w
    && (slotIns w).any (fun p => (s.core core).headBy f.vnode p f.progress)

/-- Why a frame stalls, and its slot: the lowest code that applies (R431). -/
def State.frameStall (s : State) (core i : Nat) : Option (Nat × Nat) :=
  let c := s.core core
  let f := c.frame i
  match s.slotWhere core i (fun _ w => slotKind w == 0 && slotValid w && slotArmed w && slotCount w != 0) with
  | some n => some (1, n)
  | none =>
    if f.contwait then some (2, f.contslot)
    else if f.state = .filling then some (3, (f.wake.head?.map (·.slot)).getD 0)
    else if f.static then
      match s.slotWhere core i (fun _ w => s.inputWaits core f w) with
      | some n => some (4, n)
      | none =>
        if ndKind (c.nodeDesc f.vnode) = 3 ∧
            [0, 1, 2].any (fun p => c.headBy f.vnode p (s.cycle - s.stallLimit (dieOf core) - 1)) = true then some (4, 0)
        else none
    else none

/-- A frame idle past the threshold is reported once (R431). -/
def State.stallFrame (s : State) (core i : Nat) : State :=
  let f := (s.core core).frame i
  if f.state = .free ∨ f.reported = true ∨ s.cycle ≤ f.progress + s.stallLimit (dieOf core) then s
  else match s.frameStall core i with
    | none => s
    | some (code, slot) =>
      let e := { coreErr 0x14 code 5 core (s.tenantOf core) with
        slot := slot, vnode := f.vnode, colour := colourOf i f.gen, launch := f.launch, iter := f.iter,
        raw := (s.fword core i slot).toNat % 2 ^ 52 }
      ((s.logErr e).setFlag (clusterOf core) 7).modFrame core i (fun f => { f with reported := true })

/-- The failing conditions of R73 of a queued job, bit j − 1 for condition j. -/
def State.jobMask (s : State) (j : Job) : Nat :=
  b2n (!s.predsDone j) + 2 * b2n (!s.tilesReady j) + 4 * b2n (!(s.seqReady j && s.scanReady j && s.ringReady j))
    + 8 * b2n (j.gang.any (fun g => !s.gangReady g))

/-- A job idle past the threshold is reported once (R431). -/
def State.stallJob (s : State) (q : JobQueue) (id : Nat) : State :=
  match s.jobIn q id with
  | none => s
  | some j =>
    let press := match q with
      | .press _ => true
      | _ => false
    let core := j.ctx.core
    let stuck := (j.state == .queued && !s.eligible j) || (j.state == .issued && (j.parked || !j.late.isEmpty) && !press)
    if stuck = false ∨ j.reported = true ∨ s.cycle ≤ j.progress + s.stallLimit (dieOf core) then s
    else
      let e := { unitErr 0x14 (if press then 5 else 6) 5 (if press || isSteward core then core else coreAt (clusterOf core) 0)
        (if press then 1 else 2) (if press then coreInCluster core else 0) j.ctx.tenant with
          raw := id % 65536 + (if j.state = .queued then s.jobMask j * 65536 else 0) }
      ((s.logErr e).setFlag (clusterOf core) 7).modJob q id (fun j => { j with reported := true })

/-- STALL_DETECTION (R431). -/
def stallDetection (obj : StallObject) (s : State) : State :=
  match obj with
  | .frame core i => s.stallFrame core i
  | .job q id => s.stallJob q id

/-- STALL_DETECTION. -/
def execStallDetection (obj : StallObject) : State → Host.Outcome State Fault Refusal := eventOf (stallDetection obj)

end Sys2Proof.Machine
end

