-- ==== Sys2Proof/Machine/Dispatch.lean ====
section
/-! DEFINITION. The meaning of every instruction, one arm for each constructor of Instr. -/

namespace Sys2Proof.Machine

/-- The effect of an instruction of the running firing of the current core, or of an event. -/
def exec (i : Instr) (s : State) : Host.Outcome State Fault Refusal :=
  match i with
  | .nop => Sys2Proof.Machine.execNop s
  | .endf => Sys2Proof.Machine.execEnd s
  | .trap code => Sys2Proof.Machine.execTrap code s
  | .halt => Sys2Proof.Machine.execHalt s
  | .roinv => Sys2Proof.Machine.execRoinv s
  | .cont ld st cp tl sl => Sys2Proof.Machine.execCont ld st cp tl sl s
  | .csrr td csr => Sys2Proof.Machine.execCsrr td csr s
  | .csrw ta csr => Sys2Proof.Machine.execCsrw ta csr s
  | .csrs td ta csr => Sys2Proof.Machine.execCsrs td ta csr s
  | .li td im => Sys2Proof.Machine.execLi td im s
  | .lih td ta im => Sys2Proof.Machine.execLih td ta im s
  | .addi td ta im => Sys2Proof.Machine.execAddi td ta im s
  | .andi td ta im => Sys2Proof.Machine.execAndi td ta im s
  | .ori td ta im => Sys2Proof.Machine.execOri td ta im s
  | .xori td ta im => Sys2Proof.Machine.execXori td ta im s
  | .shli td ta amt => Sys2Proof.Machine.execShli td ta amt s
  | .shri td ta amt => Sys2Proof.Machine.execShri td ta amt s
  | .srai td ta amt => Sys2Proof.Machine.execSrai td ta amt s
  | .add td ta tb => Sys2Proof.Machine.execAdd td ta tb s
  | .sub td ta tb => Sys2Proof.Machine.execSub td ta tb s
  | .mul td ta tb => Sys2Proof.Machine.execMul td ta tb s
  | .mulh td ta tb => Sys2Proof.Machine.execMulh td ta tb s
  | .div td ta tb => Sys2Proof.Machine.execDiv td ta tb s
  | .divu td ta tb => Sys2Proof.Machine.execDivu td ta tb s
  | .rem td ta tb => Sys2Proof.Machine.execRem td ta tb s
  | .and td ta tb => Sys2Proof.Machine.execAnd td ta tb s
  | .or td ta tb => Sys2Proof.Machine.execOr td ta tb s
  | .xor td ta tb => Sys2Proof.Machine.execXor td ta tb s
  | .shl td ta tb => Sys2Proof.Machine.execShl td ta tb s
  | .shr td ta tb => Sys2Proof.Machine.execShr td ta tb s
  | .sra td ta tb => Sys2Proof.Machine.execSra td ta tb s
  | .min td ta tb => Sys2Proof.Machine.execMin td ta tb s
  | .max td ta tb => Sys2Proof.Machine.execMax td ta tb s
  | .slt td ta tb => Sys2Proof.Machine.execSlt td ta tb s
  | .sltu td ta tb => Sys2Proof.Machine.execSltu td ta tb s
  | .clz td ta => Sys2Proof.Machine.execClz td ta s
  | .popc td ta => Sys2Proof.Machine.execPopc td ta s
  | .sel td ta tb tc => Sys2Proof.Machine.execSel td ta tb tc s
  | .br cc ta tb off => Sys2Proof.Machine.execBr cc ta tb off s
  | .jmpi ta => Sys2Proof.Machine.execJmpi ta s
  | .fld size t k => Sys2Proof.Machine.execFld size t k s
  | .fst size t k => Sys2Proof.Machine.execFst size t k s
  | .falloc td ta => Sys2Proof.Machine.execFalloc td ta s
  | .ffree ta => Sys2Proof.Machine.execFfree ta s
  | .fself td => Sys2Proof.Machine.execFself td s
  | .fidx td ta => Sys2Proof.Machine.execFidx td ta s
  | .slotset n ta => Sys2Proof.Machine.execSlotset n ta s
  | .slotarm n ta => Sys2Proof.Machine.execSlotarm n ta s
  | .slotrd td n => Sys2Proof.Machine.execSlotrd td n s
  | .slotdis n => Sys2Proof.Machine.execSlotdis n s
  | .send rel tv th n k => Sys2Proof.Machine.execSend rel tv th n k s
  | .sendv rel tv th n k => Sys2Proof.Machine.execSendv rel tv th n k s
  | .sig rel th n amount => Sys2Proof.Machine.execSig rel th n amount s
  | .sigReg rel tv th n => Sys2Proof.Machine.execSigReg rel tv th n s
  | .chpop vec td p => Sys2Proof.Machine.execChpop vec td p s
  | .chpeek vec td p => Sys2Proof.Machine.execChpeek vec td p s
  | .chpush vec ta p => Sys2Proof.Machine.execChpush vec ta p s
  | .chend p => Sys2Proof.Machine.execChend p s
  | .chrcfg ta p => Sys2Proof.Machine.execChrcfg ta p s
  | .lgen td ta => Sys2Proof.Machine.execLgen td ta s
  | .lgstop g => Sys2Proof.Machine.execLgstop g s
  | .launch td ta => Sys2Proof.Machine.execLaunch td ta s
  | .ld size t tb off => Sys2Proof.Machine.execLd size t tb off s
  | .st size t tb off => Sys2Proof.Machine.execSt size t tb off s
  | .stt size t tb off => Sys2Proof.Machine.execStt size t tb off s
  | .pst size t tb off => Sys2Proof.Machine.execPst size t tb off s
  | .lds size k tb sl => Sys2Proof.Machine.execLds size k tb sl s
  | .ldro size k tb sl => Sys2Proof.Machine.execLdro size k tb sl s
  | .aadd wd scope k tb sl => Sys2Proof.Machine.execAadd wd scope k tb sl s
  | .aand wd scope k tb sl => Sys2Proof.Machine.execAand wd scope k tb sl s
  | .aor wd scope k tb sl => Sys2Proof.Machine.execAor wd scope k tb sl s
  | .axor wd scope k tb sl => Sys2Proof.Machine.execAxor wd scope k tb sl s
  | .amin wd scope k tb sl => Sys2Proof.Machine.execAmin wd scope k tb sl s
  | .amax wd scope k tb sl => Sys2Proof.Machine.execAmax wd scope k tb sl s
  | .aswap wd scope k tb sl => Sys2Proof.Machine.execAswap wd scope k tb sl s
  | .afadd scope k tb sl => Sys2Proof.Machine.execAfadd scope k tb sl s
  | .acas wd scope k tb sl => Sys2Proof.Machine.execAcas wd scope k tb sl s
  | .fence kind scope => Sys2Proof.Machine.execFence kind scope s
  | .hpdef td ta => Sys2Proof.Machine.execHpdef td ta s
  | .hpput td ta => Sys2Proof.Machine.execHpput td ta s
  | .hpwait td ta => Sys2Proof.Machine.execHpwait td ta s
  | .turndef td ta => Sys2Proof.Machine.execTurndef td ta s
  | .turngo td ta => Sys2Proof.Machine.execTurngo td ta s
  | .reddef td ta => Sys2Proof.Machine.execReddef td ta s
  | .redput td ta => Sys2Proof.Machine.execRedput td ta s
  | .pbdef td ta => Sys2Proof.Machine.execPbdef td ta s
  | .publ scope ta => Sys2Proof.Machine.execPubl scope ta s
  | .vadd ty rm td ta tb => Sys2Proof.Machine.execVadd ty rm td ta tb s
  | .vsub ty rm td ta tb => Sys2Proof.Machine.execVsub ty rm td ta tb s
  | .vmul ty rm td ta tb => Sys2Proof.Machine.execVmul ty rm td ta tb s
  | .vfma ty rm td ta tb tc => Sys2Proof.Machine.execVfma ty rm td ta tb tc s
  | .vfms ty rm td ta tb tc => Sys2Proof.Machine.execVfms ty rm td ta tb tc s
  | .vmin ty rm td ta tb => Sys2Proof.Machine.execVmin ty rm td ta tb s
  | .vmax ty rm td ta tb => Sys2Proof.Machine.execVmax ty rm td ta tb s
  | .vdiv ty rm td ta tb => Sys2Proof.Machine.execVdiv ty rm td ta tb s
  | .vsqrt ty rm td ta => Sys2Proof.Machine.execVsqrt ty rm td ta s
  | .vrcp ty rm td ta => Sys2Proof.Machine.execVrcp ty rm td ta s
  | .vrsq ty rm td ta => Sys2Proof.Machine.execVrsq ty rm td ta s
  | .vexp2 ty rm td ta => Sys2Proof.Machine.execVexp2 ty rm td ta s
  | .vlog2 ty rm td ta => Sys2Proof.Machine.execVlog2 ty rm td ta s
  | .viadd ty sat td ta tb => Sys2Proof.Machine.execViadd ty sat td ta tb s
  | .visub ty sat td ta tb => Sys2Proof.Machine.execVisub ty sat td ta tb s
  | .vimul ty sat td ta tb => Sys2Proof.Machine.execVimul ty sat td ta tb s
  | .vand ty td ta tb => Sys2Proof.Machine.execVand ty td ta tb s
  | .vor ty td ta tb => Sys2Proof.Machine.execVor ty td ta tb s
  | .vxor ty td ta tb => Sys2Proof.Machine.execVxor ty td ta tb s
  | .vshl ty sat td ta tb => Sys2Proof.Machine.execVshl ty sat td ta tb s
  | .vshr ty td ta tb => Sys2Proof.Machine.execVshr ty td ta tb s
  | .vsra ty td ta tb => Sys2Proof.Machine.execVsra ty td ta tb s
  | .vcmp ty cond td ta tb => Sys2Proof.Machine.execVcmp ty cond td ta tb s
  | .vsel ty td ta tb tc => Sys2Proof.Machine.execVsel ty td ta tb tc s
  | .vperm ty td ta tb => Sys2Proof.Machine.execVperm ty td ta tb s
  | .vbcast ty td ta => Sys2Proof.Machine.execVbcast ty td ta s
  | .vext ty td ta tb => Sys2Proof.Machine.execVext ty td ta tb s
  | .vins ty td ta tb => Sys2Proof.Machine.execVins ty td ta tb s
  | .vred ty op td ta => Sys2Proof.Machine.execVred ty op td ta s
  | .vcvt src dst r part td ta => Sys2Proof.Machine.execVcvt src dst r part td ta s
  | .vdec ct part td ta => Sys2Proof.Machine.execVdec ct part td ta s
  | .venc ct part td ta => Sys2Proof.Machine.execVenc ct part td ta s
  | .ctld ct ta => Sys2Proof.Machine.execCtld ct ta s
  | .tdef tile ta => Sys2Proof.Machine.execTdef tile ta s
  | .tstat td tile => Sys2Proof.Machine.execTstat td tile s
  | .trel tile => Sys2Proof.Machine.execTrel tile s
  | .mxfmt td ta => Sys2Proof.Machine.execMxfmt td ta s
  | .mxldw td ta => Sys2Proof.Machine.execMxldw td ta s
  | .mxstrm td ta => Sys2Proof.Machine.execMxstrm td ta s
  | .mxgang td ta => Sys2Proof.Machine.execMxgang td ta s
  | .mxrd td ta => Sys2Proof.Machine.execMxrd td ta s
  | .mxepi td ta => Sys2Proof.Machine.execMxepi td ta s
  | .mxclr td ta => Sys2Proof.Machine.execMxclr td ta s
  | .mxscan td ta => Sys2Proof.Machine.execMxscan td ta s
  | .cpy td ta => Sys2Proof.Machine.execCpy td ta s
  | .cpym td ta => Sys2Proof.Machine.execCpym td ta s
  | .cpyx td ta => Sys2Proof.Machine.execCpyx td ta s
  | .gath td ta => Sys2Proof.Machine.execGath td ta s
  | .jstat td ta => Sys2Proof.Machine.execJstat td ta s
  | .jcan ta => Sys2Proof.Machine.execJcan ta s
  | .ings td ta => Sys2Proof.Machine.execIngs td ta s
  | .ingq td => Sys2Proof.Machine.execIngq td s
  | .rplay => Sys2Proof.Machine.execRplay s
  | .tlbinv ta => Sys2Proof.Machine.execTlbinv ta s
  | .codeseal td ta => Sys2Proof.Machine.execCodeseal td ta s
  | .place td ta => Sys2Proof.Machine.execPlace td ta s
  | .cfgld td ta => Sys2Proof.Machine.execCfgld td ta s
  | .cancel ta => Sys2Proof.Machine.execCancel ta s
  | .commitQueueRelease core => Sys2Proof.Machine.execCommitQueueRelease core s
  | .dispatch core => Sys2Proof.Machine.execDispatch core s
  | .ageing obj => Sys2Proof.Machine.execAgeing obj s
  | .frameTokenArrival pkt => Sys2Proof.Machine.execFrameTokenArrival pkt s
  | .channelTokenArrival pkt => Sys2Proof.Machine.execChannelTokenArrival pkt s
  | .creditReturn pkt => Sys2Proof.Machine.execCreditReturn pkt s
  | .homeAccess pkt => Sys2Proof.Machine.execHomeAccess pkt s
  | .loadCompletion pkt => Sys2Proof.Machine.execLoadCompletion pkt s
  | .atomicCompletion pkt => Sys2Proof.Machine.execAtomicCompletion pkt s
  | .storeAcknowledgement pkt => Sys2Proof.Machine.execStoreAcknowledgement pkt s
  | .hostResponse pkt data => Sys2Proof.Machine.execHostResponse pkt data s
  | .continuationPush core frame => Sys2Proof.Machine.execContinuationPush core frame s
  | .spilledArrival pkt => Sys2Proof.Machine.execSpilledArrival pkt s
  | .writeBackComplete core frame => Sys2Proof.Machine.execWriteBackComplete core frame s
  | .fillBackStart core frame victim => Sys2Proof.Machine.execFillBackStart core frame victim s
  | .fillBackComplete core frame => Sys2Proof.Machine.execFillBackComplete core frame s
  | .generatorEmit core gen => Sys2Proof.Machine.execGeneratorEmit core gen s
  | .lgenArrival pkt => Sys2Proof.Machine.execLgenArrival pkt s
  | .launchAtTarget pkt => Sys2Proof.Machine.execLaunchAtTarget pkt s
  | .workCounterUpdate pkt => Sys2Proof.Machine.execWorkCounterUpdate pkt s
  | .purge pkt => Sys2Proof.Machine.execPurge pkt s
  | .purgeAcknowledgement die index => Sys2Proof.Machine.execPurgeAcknowledgement die index s
  | .descriptorFetchComplete core vnode => Sys2Proof.Machine.execDescriptorFetchComplete core vnode s
  | .jobIssue queue => Sys2Proof.Machine.execJobIssue queue s
  | .pressJobRetire core => Sys2Proof.Machine.execPressJobRetire core s
  | .copyLineWrite queue id => Sys2Proof.Machine.execCopyLineWrite queue id s
  | .copySourceRelease queue id => Sys2Proof.Machine.execCopySourceRelease queue id s
  | .copyVisibleCompletion queue id => Sys2Proof.Machine.execCopyVisibleCompletion queue id s
  | .mxrdTokenSend core => Sys2Proof.Machine.execMxrdTokenSend core s
  | .reconfigRelocation core channel => Sys2Proof.Machine.execReconfigRelocation core channel s
  | .checkpointPass core vnode => Sys2Proof.Machine.execCheckpointPass core vnode s
  | .spillRingAppend pkt => Sys2Proof.Machine.execSpillRingAppend pkt s
  | .monitorSample unit value => Sys2Proof.Machine.execMonitorSample unit value s
  | .publHoldEnd asid k => Sys2Proof.Machine.execPublHoldEnd asid k s
  | .walkCompletion cluster index => Sys2Proof.Machine.execWalkCompletion cluster index s
  | .placeArrival pkt => Sys2Proof.Machine.execPlaceArrival pkt s
  | .codesealScan pkt => Sys2Proof.Machine.execCodesealScan pkt s
  | .cfgldCompletion pkt => Sys2Proof.Machine.execCfgldCompletion pkt s
  | .tlbinvAcknowledgement core die => Sys2Proof.Machine.execTlbinvAcknowledgement core die s
  | .definitionReport pkt => Sys2Proof.Machine.execDefinitionReport pkt s
  | .reductionChunk pkt => Sys2Proof.Machine.execReductionChunk pkt s
  | .hoopDecision pkt => Sys2Proof.Machine.execHoopDecision pkt s
  | .turnGrantArrival pkt => Sys2Proof.Machine.execTurnGrantArrival pkt s
  | .blockLanding cluster ring slot => Sys2Proof.Machine.execBlockLanding cluster ring slot s
  | .slotRegrant cluster ring slot => Sys2Proof.Machine.execSlotRegrant cluster ring slot s
  | .absenceNotice who member => Sys2Proof.Machine.execAbsenceNotice who member s
  | .presenceNotice who member => Sys2Proof.Machine.execPresenceNotice who member s
  | .holdExpiry who => Sys2Proof.Machine.execHoldExpiry who s
  | .ingestToken die msg => Sys2Proof.Machine.execIngestToken die msg s
  | .quarantine die msg => Sys2Proof.Machine.execQuarantine die msg s
  | .ingestWatchdog die msg => Sys2Proof.Machine.execIngestWatchdog die msg s
  | .rdmaWrite key va data => Sys2Proof.Machine.execRdmaWrite key va data s
  | .rdmaRead key va len => Sys2Proof.Machine.execRdmaRead key va len s
  | .rdmaSend qpn payload => Sys2Proof.Machine.execRdmaSend qpn payload s
  | .jobSubmission die sub => Sys2Proof.Machine.execJobSubmission die sub s
  | .getVersion => Sys2Proof.Machine.execGetVersion s
  | .getCapabilities => Sys2Proof.Machine.execGetCapabilities s
  | .negotiateAlgorithms => Sys2Proof.Machine.execNegotiateAlgorithms s
  | .getCertificate offset len => Sys2Proof.Machine.execGetCertificate offset len s
  | .challenge nonce => Sys2Proof.Machine.execChallenge nonce s
  | .getMeasurements nonce signed => Sys2Proof.Machine.execGetMeasurements nonce signed s
  | .stewardRestart die => Sys2Proof.Machine.execStewardRestart die s
  | .healthMapClear die offset mask => Sys2Proof.Machine.execHealthMapClear die offset mask s
  | .imageKeyReplace key => Sys2Proof.Machine.execImageKeyReplace key s
  | .configurationRecordReplace dx dy dz device => Sys2Proof.Machine.execConfigurationRecordReplace dx dy dz device s
  | .firmwareReplace which image => Sys2Proof.Machine.execFirmwareReplace which image s
  | .minimalModeExit => Sys2Proof.Machine.execMinimalModeExit s
  | .start => Sys2Proof.Machine.execStart s
  | .startStage result => Sys2Proof.Machine.execStartStage result s
  | .stageWatchdog => Sys2Proof.Machine.execStageWatchdog s
  | .stewardReadyTimeout die => Sys2Proof.Machine.execStewardReadyTimeout die s
  | .ethernetTimeout port => Sys2Proof.Machine.execEthernetTimeout port s
  | .powerMeasurement watts tmax droop => Sys2Proof.Machine.execPowerMeasurement watts tmax droop s
  | .verifyImage => Sys2Proof.Machine.execVerifyImage s
  | .verifyImageResult => Sys2Proof.Machine.execVerifyImageResult s
  | .logAppend die => Sys2Proof.Machine.execLogAppend die s
  | .firstxEmpty core => Sys2Proof.Machine.execFirstxEmpty core s
  | .logOverflowClear die => Sys2Proof.Machine.execLogOverflowClear die s
  | .clusterFlagClear cluster mask => Sys2Proof.Machine.execClusterFlagClear cluster mask s
  | .kerfrepClear die => Sys2Proof.Machine.execKerfrepClear die s
  | .qringOverflowClear die => Sys2Proof.Machine.execQringOverflowClear die s
  | .throttleFlagClear => Sys2Proof.Machine.execThrottleFlagClear s
  | .monitorClear unit => Sys2Proof.Machine.execMonitorClear unit s
  | .replayPurge cluster asid => Sys2Proof.Machine.execReplayPurge cluster asid s
  | .debugStop core => Sys2Proof.Machine.execDebugStop core s
  | .debugStep core => Sys2Proof.Machine.execDebugStep core s
  | .debugResume core => Sys2Proof.Machine.execDebugResume core s
  | .registerWrite die offset value => Sys2Proof.Machine.execRegisterWrite die offset value s
  | .stallDetection obj => Sys2Proof.Machine.execStallDetection obj s
  | .drainTimeout asid => Sys2Proof.Machine.execDrainTimeout asid s
  | .linkReplay link corrected => Sys2Proof.Machine.execLinkReplay link corrected s
  | .heldPacketRelease pkt => Sys2Proof.Machine.execHeldPacketRelease pkt s
  | .kerfGuardDrop pkt => Sys2Proof.Machine.execKerfGuardDrop pkt s
  | .noRouteDrop pkt => Sys2Proof.Machine.execNoRouteDrop pkt s
  | .refusalAcknowledgement pkt => Sys2Proof.Machine.execRefusalAcknowledgement pkt s
  | .voteDecision core vnode => Sys2Proof.Machine.execVoteDecision core vnode s
  | .uncorrectableError array how => Sys2Proof.Machine.execUncorrectableError array how s
  | .checkpointInjection asid => Sys2Proof.Machine.execCheckpointInjection asid s
  | .linkDegradationClear link => Sys2Proof.Machine.execLinkDegradationClear link s

end Sys2Proof.Machine
end

