-- ==== Sys2Proof/Machine/Peer.lean ====
section
/-! DEFINITION. What another device sends to this one, and what this one sends to it (R295, R299; log 18): requests to the core windows
and HBM, tokens, grants and blocks of Turn rings, and the packets of reductions and hoops. -/

namespace Sys2Proof.Machine

/-- A message of a collective of another device that the unit it concerns takes as it comes: a ring's bytes and their answer (R317,
R318), a reduction's tree, uses and links (R304, R307, R308, R423), a wait at a hoop and a contribution's status (R311, R314). -/
def State.takePeer (s : State) (dev : Nat) (p : Packet) : Option State :=
  match p.msg with
  | .block n slot tag isK ofs bytes total src job =>
    some (s.landBlock ((agentCluster p.dst).getD 0) n slot dev tag isK ofs bytes total src job)
  | .blockDone cluster job => some (s.modJob (.copy cluster) job (fun j => { j with ready := true }))
  | .redTree d x det => some (s.redTree d x det)
  | .redReady ref n ok => some (s.redReady ref dev n ok)
  | .redEnd ref use outcome flags => some (s.endUnits ref use outcome flags)
  | .redFail ref use => some (if refDev ref = s.device then s.failUse (refCluster ref) ref use else s)
  | .redLink ref => some (if (s.unitAt (refCluster ref) ref).any (fun u => u.cut.isSome) then s else s.cutTree ref)
  | .redCut ref use index => some (s.cutUnits ref use index)
  | .hpwait d x _ => some (s.holdWait (d, x, dev))
  | .putStatus c w => some (s.putStatus (.router (refCluster c.ref)) { c with dev := s.device } 128 w)
  | _ => none

/-- The agent that a packet of another device is for: a chunk's is the router at which its branch enters, its hoop's home or its member's
router (R295, R304, R311). -/
def State.peerDst (s : State) (dev : Nat) (p : Packet) : Agent :=
  match p.msg with
  | .redChunk c => .router (s.entryGate c.alt c.ref dev)
  | .hpput c => .router (refCluster c.ref)
  | .hpNext c => .router (clusterOf c.ctx.core)
  | _ => p.dst

/-- A message as it enters this device: a request is answered to its device (R299), a contribution's status goes there (R311). -/
def peerIn (dev : Nat) : Msg → Msg
  | .access r => .access { r with dev := some dev }
  | .hpput c => .hpput { c with dev := dev }
  | m => m

/-- A packet of another device arrives at its gateway: it is taken, or goes on in this device's network. One that names no other device
as its source changes nothing. -/
def peerArrival (p : Packet) (s : State) : State :=
  match p.src with
  | .device dev _ =>
    if dev = s.device then s
    else match s.takePeer dev p with
      | some t => t
      | none => { s with net := s.net ++ [{ p with dst := s.peerDst dev p, msg := peerIn dev p.msg, held := false }] }
  | _ => s

/-- A packet for another device leaves by its device link, the first of its flow; a request is performed there as log 18 says. -/
def peerDepart (k : Nat) (s : State) : State :=
  match s.recv k with
  | none => s
  | some p =>
    match p.dst, p.msg with
    | .device _ _, .access _ => s
    | .device _ _, _ => (s.dropPkt k).emitOut (.packet p)
    | _, _ => s

end Sys2Proof.Machine
end

