-- ==== Sys2Proof/Machine/Step.lean ====
section
/-! DEFINITION. One step of the machine: the next move of the agenda, or, with nothing on it, the next instruction of
the current core one cycle later (log 1). -/

namespace Sys2Proof.Machine

/-- A core issues: nothing on a core that runs no firing, has halted or is retired (R364); otherwise the instruction at its program counter,
or the fault of a fetch outside a sealed block (R373). A word that decodes to no instruction is one that the scanner
rejects (R179). -/
def issueStep (s : State) : Host.Outcome State Fault Refusal :=
  match (s.core s.cur).firing with
  | none => .next s
  | some f =>
    if (s.core s.cur).halted || s.coreRetired s.cur then .next s
    else
      match s.fetch s.cur f.pc with
      | none => .next (s.takeFault s.cur f 0x05 0x01 none)
      | some w =>
        match decode w with
        | .ok i => exec i s
        | .error r => .refused (.reservedEncoding r.code)

/-- One move: cycles pass, then a core issues, an event happens, or a packet comes from or leaves for another device; an instruction is
no event. -/
def moveStep (m : Move) (s : State) : Host.Outcome State Fault Refusal :=
  match m.kind with
  | .issue core => issueStep ((s.tick m.dt).turn core)
  | .event i => if i.isEvent then exec i (s.tick m.dt) else .next (s.tick m.dt)
  | .peer p => .next (peerArrival p (s.tick m.dt))
  | .depart k => .next (peerDepart k (s.tick m.dt))

/-- One step. -/
def step (s : State) : Host.Outcome State Fault Refusal :=
  match s.agenda with
  | [] => issueStep (s.tick 1)
  | m :: t => moveStep m { s with agenda := t }

/-- The state with a table row's word where the next step fetches it (log 8); an event row has no bits. -/
def State.withFetchWord (s : State) (nbits w : Nat) : State := s.placeWord (w % 2 ^ min nbits 32)

end Sys2Proof.Machine
end

