-- ==== Sys2Proof/Safety.lean ====
section
/-! DEFINITION. The terms in which the statements speak of a run: the canonical form of memory as an invariant, when an
instruction of the current core may issue, and the next states of instructions that only change their firing or that only hold
an action. -/

namespace Sys2Proof.Machine

/-- The invariant of the machine's memory: addresses rise strictly and no entry equals what an unlisted address reads as. -/
def State.Wf (s : State) : Prop := memWf s.mem = true

/-- The state is reached from reset by steps and by what the outside places on the agenda. -/
inductive State.Reachable : State → Prop where
  | reset : State.Reachable State.reset
  | planned (s : State) (l : List Move) : State.Reachable s → State.Reachable { s with agenda := l }
  | stepped (s t : State) : State.Reachable s → step s = .next t → State.Reachable t

/-- The current core runs firing f, has not halted and is within the limits of R46; an instruction that holds an action also
finds room in the commit queue (R47, R51). A steward core has no limits. -/
def State.Issues (s : State) (f : Firing) (held : Bool) : Prop :=
  (s.core s.cur).firing = some f ∧ (s.core s.cur).halted = false ∧
  (isSteward s.cur = true ∨ f.issued < 256) ∧
  (held = true → (isSteward s.cur = true ∨ f.held < 48) ∧ (s.core s.cur).occupied < 48)

/-- The firing one instruction further, at the next word (R46, R197). -/
def Firing.next (f : Firing) : Firing := { f with pc := f.pc + 1, issued := f.issued + 1 }

/-- The firing one instruction further, with one held action more (R46). -/
def Firing.nextHeld (f : Firing) : Firing := { f with pc := f.pc + 1, issued := f.issued + 1, held := f.held + 1 }

/-- The state in which the current firing has become g and has gone on to the next word. -/
def State.ran (s : State) (g : Firing) : State := s.setFiring g.next

/-- The state in which the firing, now g, has held an action with the context and the word address of f (R47). -/
def State.ranHeld (s : State) (f g : Firing) (a : Act) : State :=
  s.setCore s.cur { s.core s.cur with
    queue := (s.core s.cur).queue ++ [{ act := a, ctx := f.ctx, pc := f.pc, ended := false }],
    firing := some g.nextHeld }

/-- The state in which the firing, now g, has left a mark in the commit queue that takes no entry (R133, R198). -/
def State.ranMark (s : State) (f g : Firing) (a : Act) : State :=
  s.setCore s.cur { s.core s.cur with
    queue := (s.core s.cur).queue ++ [{ act := a, ctx := f.ctx, pc := f.pc, ended := false }],
    firing := some g.next }

end Sys2Proof.Machine

namespace Sys2Proof

/-- The instructions that hold an action in the commit queue, so that the limit on held actions and the wait for room apply to them
(R46, R47, R51). -/
def Instr.holds : Instr → Bool
  | .roinv | .ffree _ | .slotset .. | .slotarm .. | .slotdis _ | .send .. | .sendv .. | .sig .. | .sigReg .. | .chpop ..
  | .chpush .. | .chend _ | .chrcfg .. | .lgen .. | .lgstop _ | .launch .. | .st .. | .stt .. | .pst .. | .lds .. | .ldro ..
  | .aadd .. | .aand .. | .aor .. | .axor .. | .amin .. | .amax .. | .aswap .. | .afadd .. | .acas .. | .hpdef .. | .hpput ..
  | .hpwait .. | .turndef .. | .turngo .. | .reddef .. | .redput .. | .pbdef .. | .publ .. | .ctld .. | .tdef .. | .trel _
  | .mxfmt .. | .mxldw .. | .mxstrm .. | .mxgang .. | .mxrd .. | .mxepi .. | .mxclr .. | .mxscan .. | .cpy .. | .cpym ..
  | .cpyx .. | .gath .. | .jcan _ | .ings .. | .rplay | .tlbinv _ | .codeseal .. | .place .. | .cfgld .. | .cancel _ => true
  | _ => false

/-- The temporary that an instruction writes which does nothing else but read registers and compute (R207 to R209, R216, R249 to
R258); the second component says that it also leaves the firing flag set as it is. -/
def Instr.computes : Instr → Option (Temp × Bool)
  | .li td _ | .lih td _ _ | .addi td _ _ | .andi td _ _ | .ori td _ _ | .xori td _ _ | .shli td _ _ | .shri td _ _
  | .srai td _ _ | .add td _ _ | .sub td _ _ | .mul td _ _ | .mulh td _ _ | .div td _ _ | .divu td _ _ | .rem td _ _
  | .and td _ _ | .or td _ _ | .xor td _ _ | .shl td _ _ | .shr td _ _ | .sra td _ _ | .min td _ _ | .max td _ _
  | .slt td _ _ | .sltu td _ _ | .clz td _ | .popc td _ | .sel td _ _ _ | .fself td | .fidx td _ | .vand _ td _ _
  | .vor _ td _ _ | .vxor _ td _ _ | .vshr _ td _ _ | .vsra _ td _ _ | .vsel _ td _ _ _ | .vperm _ td _ _ | .vbcast _ td _
  | .vext _ td _ _ | .vins _ td _ _ | .vdec _ _ td _ => some (td, true)
  | .vadd _ _ td _ _ | .vsub _ _ td _ _ | .vmul _ _ td _ _ | .vfma _ _ td _ _ _ | .vfms _ _ td _ _ _ | .vmin _ _ td _ _
  | .vmax _ _ td _ _ | .vdiv _ _ td _ _ | .vsqrt _ _ td _ | .vrcp _ _ td _ | .vrsq _ _ td _ | .vexp2 _ _ td _ | .vlog2 _ _ td _
  | .viadd _ _ td _ _ | .visub _ _ td _ _ | .vimul _ _ td _ _ | .vshl _ _ td _ _ | .vcmp _ _ td _ _ | .vred _ _ td _
  | .vcvt _ _ _ _ td _ | .venc _ _ td _ => some (td, false)
  | _ => none

end Sys2Proof
end

