-- ==== Sys2Proof/Certificates/Slice0/Obligations.lean ====
section
/-! DEFINITION. The statements about the model, for the provers. Each is a proposition that no file of this package proves. A hypothesis `s.Issues f held` says
that the current core runs firing f and is within its issue limits (R46, R51). -/

open Sys2Proof Sys2Proof.Machine

/-! ## Instructions: system, CSR, immediates, integers, branches -/

/-- The effects of NOP, TRAP, HALT and ROINV where they issue (R201, R202). TRAP's own effect is its fault in tenant mode; on a
steward core it is a record, and issue goes on. HALT waits while the commit queue holds anything. The opcodes that only a steward
core may issue (R182) stop by name at a tenant core, where the code scanner keeps them out of every sealed block (R179, R372). -/
def Obligations.SystemInstructionsTakeEffect : Prop :=
  (∀ (s : State) (f : Firing),
    (s.Issues f false →
      exec .nop s = .next (s.ran f) ∧
      (∀ code, isSteward s.cur = false → exec (.trap code) s = .next (s.takeFault s.cur f 0x01 code.toNat none)) ∧
      (∀ code, isSteward s.cur = true →
        exec (.trap code) s = .next ((s.logErr (ctxErr 0x01 code.toNat 5 f.ctx f.pc)).ran f)) ∧
      (isSteward s.cur = true → (s.core s.cur).queue = [] →
        exec .halt s = .next (s.setCore s.cur { s.core s.cur with halted := true, firing := some f.next })) ∧
      (isSteward s.cur = true → (s.core s.cur).queue ≠ [] → exec .halt s = .next s)) ∧
    (s.Issues f true → exec .roinv s = .next (s.ranHeld f f .roinv))) ∧
  (∀ (s : State) (td ta : Temp), isSteward s.cur = false →
    exec .halt s = .refused (.stewardOnly "HALT") ∧ exec (.jmpi ta) s = .refused (.stewardOnly "JMPI") ∧
    exec .rplay s = .refused (.stewardOnly "RPLAY") ∧ exec (.tlbinv ta) s = .refused (.stewardOnly "TLBINV") ∧
    exec (.codeseal td ta) s = .refused (.stewardOnly "CODESEAL") ∧ exec (.place td ta) s = .refused (.stewardOnly "PLACE") ∧
    exec (.cfgld td ta) s = .refused (.stewardOnly "CFGLD"))

/-- END and CONT end the firing: the core runs none, every action it held may be released with the closing mark behind them, its
flag set is ORed into FFLAGS, the firing is counted, and no byte of memory and no other core changes (R47, R68, R173, R201, R203).
Of an activation that was purged meanwhile nothing is released (R57), which is not this case. -/
def Obligations.EndAndContEndTheFiring : Prop :=
  ∀ (s : State) (f : Firing) (ld st cp tl : BitVec 5) (sl : Slot), s.Issues f false → f.purged = false →
    let ends := fun (i : Instr) (mark : Act) =>
      ∃ t, exec i s = .next t ∧ (t.core s.cur).firing = none ∧
        (t.core s.cur).queue = (s.core s.cur).queue.map (fun (h : Held) => { h with ended := true }) ++
          [{ act := mark, ctx := f.ctx, pc := f.pc, ended := true }] ∧
        (t.core s.cur).fflags = (s.core s.cur).fflags ||| f.flags.setWidth 7 ∧
        (t.core s.cur).firings = (s.core s.cur).firings + 1 ∧
        (t.core s.cur).firstx = (s.core s.cur).firstx ∧ (t.core s.cur).ready = (s.core s.cur).ready ∧
        t.mem = s.mem ∧ t.net = s.net ∧ (∀ c, c ≠ s.cur → t.core c = s.core c)
    ends .endf .endMark ∧
    (sl.toNat < ((s.core s.cur).frame f.ctx.frame).nslot →
      ends (.cont ld st cp tl sl) (.cont { ld := ld.toNat, st := st.toNat, cp := cp.toNat, tl := tl.toNat } sl.toNat)) ∧
    (((s.core s.cur).frame f.ctx.frame).nslot ≤ sl.toNat →
      exec (.cont ld st cp tl sl) s = .next (s.takeFault s.cur f 0x05 0x04 none))

/-- CSRR, CSRW and CSRS (R204, R205): the value read goes to T[td] whole, zero-extended, by CSRS the old one; CSRW writes T[ta],
CSRS the old value with the bits of T[ta] set into the RW fields and T[ta] into the others. A tenant core may name the tenant
numbers, a steward core every number, of which an unassigned one reads a free value (log 9); at a tenant core the other numbers stop
by name (log 14). What the CSRs of a core read and what writes to them leave (R89, R204, R206, R366, R389, R420): COREID, CYCLE,
FIRINGS, FFLAGS, DETMODE, and MONHIST in all 512 bits; a write to FFLAGS or MONSEL replaces it, MONSEL's clr zeroes the unit's
figures, a 1 written to FIRSTX's class byte, to its more bit, to KERFREP's valid bit or to QRING's ovf clears it, and a read-only
CSR ignores a write. -/
def Obligations.CsrInstructionsReadAndWrite : Prop :=
  (∀ (s : State) (f : Firing) (td ta : Temp) (csr : BitVec 12), s.Issues f false →
    ((isSteward s.cur = true ∨ csrTenant csr.toNat = true) →
      let n := csr.toNat
      let old := s.csrRead s.cur n
      exec (.csrr td csr) s = .next ((s.csrDraw n).ran (f.setT td old)) ∧
      exec (.csrs td ta csr) s =
        .next (((s.csrDraw n).csrWrite s.cur n (old.setWidth 64 ||| f.w ta) (f.w ta)).ran (f.setT td old)) ∧
      exec (.csrw ta csr) s = .next ((s.csrWrite s.cur n (f.w ta) (f.w ta)).ran f)) ∧
    (isSteward s.cur = false → csrTenant csr.toNat = false →
      exec (.csrr td csr) s = .refused (.stewardOnly "CSRR") ∧ exec (.csrw ta csr) s = .refused (.stewardOnly "CSRW") ∧
      exec (.csrs td ta csr) s = .refused (.stewardOnly "CSRS"))) ∧
  (∀ (s : State) (core : Nat) (v v1 : Word),
    s.csrRead core 0x000 = zx (BitVec.ofNat 64 (core % 8192 + (if isSteward core then 8192 else 0))) ∧
    s.csrRead core 0x002 = zx (BitVec.ofNat 64 s.cycle) ∧
    s.csrRead core 0x003 = zx (s.core core).firings ∧
    s.csrRead core 0x004 = zx ((s.core core).fflags.setWidth 64) ∧
    s.csrRead core 0x006 = zx (if (s.core core).detmode then 1 else 0) ∧
    s.csrRead core 0x016 = (if (s.core core).monsel0.getLsbD 12 then (s.core core).mon1 else (s.core core).mon0).histWord ∧
    ((s.csrWrite core 0x004 v v1).core core).fflags = v.setWidth 7 ∧
    ((s.csrWrite core 0x008 v v1).core core).firstx = (s.core core).firstx &&& ~~~((v1.setWidth 8).setWidth 256) ∧
    ((s.csrWrite core 0x009 v v1).core core).more = ((s.core core).more && !v1.getLsbD 54) ∧
    ((s.csrWrite core 0x010 v v1).core core).monsel0 = setFieldN v 7 1 0 ∧
    ((s.csrWrite core 0x010 v v1).core core).mon0 = (if v1.getLsbD 7 then MonFig.zero else (s.core core).mon0) ∧
    ((s.csrWrite core 0x011 v v1).core core).monsel1 = setFieldN v 7 1 0 ∧
    ((s.csrWrite core 0x011 v v1).core core).mon1 = (if v1.getLsbD 7 then MonFig.zero else (s.core core).mon1) ∧
    (v1.getLsbD 0 = false → ((s.csrWrite core 0x042 v v1).die (dieOf core)).kerfrep = (s.die (dieOf core)).kerfrep) ∧
    (v1.getLsbD 0 = true → ((s.csrWrite core 0x042 v v1).die (dieOf core)).kerfrep =
      setFieldN (setFieldN (s.die (dieOf core)).kerfrep 0 1 0) 43 16 0) ∧
    ((s.csrWrite core 0x043 v v1).die (dieOf core)).qring.base = fieldN v 0 36 ∧
    ((s.csrWrite core 0x043 v v1).die (dieOf core)).qring.head = fieldN v 36 10 ∧
    ((s.csrWrite core 0x043 v v1).die (dieOf core)).qring.tail = (s.die (dieOf core)).qring.tail ∧
    ((s.csrWrite core 0x043 v v1).die (dieOf core)).qring.ovf = ((s.die (dieOf core)).qring.ovf && !v1.getLsbD 57) ∧
    (∀ n, n ∈ [0x000, 0x001, 0x002, 0x003, 0x005, 0x006, 0x00A, 0x00B, 0x012, 0x013, 0x014, 0x015, 0x016, 0x040, 0x041] →
      s.csrWrite core n v v1 = s))

/-- Immediates and shifts by an immediate (R207, R208): each has the word of its table row, writes T[td] with bits [511:64] zero,
sets no flag, goes on to the next word and changes nothing else. -/
def Obligations.ImmediateInstructionsCompute : Prop :=
  ∀ (s : State) (f : Firing) (td ta : Temp) (im : BitVec 20) (amt : BitVec 6), s.Issues f false →
    let a := f.w ta
    exec (.li td im) s = .next (s.ran (f.setW td (im.signExtend 64))) ∧
    exec (.lih td ta im) s = .next (s.ran (f.setW td ((a <<< 20) ||| im.setWidth 64))) ∧
    exec (.addi td ta im) s = .next (s.ran (f.setW td (a + im.signExtend 64))) ∧
    exec (.andi td ta im) s = .next (s.ran (f.setW td (a &&& im.setWidth 64))) ∧
    exec (.ori td ta im) s = .next (s.ran (f.setW td (a ||| im.setWidth 64))) ∧
    exec (.xori td ta im) s = .next (s.ran (f.setW td (a ^^^ im.setWidth 64))) ∧
    exec (.shli td ta amt) s = .next (s.ran (f.setW td (a <<< amt.toNat))) ∧
    exec (.shri td ta amt) s = .next (s.ran (f.setW td (a >>> amt.toNat))) ∧
    exec (.srai td ta amt) s = .next (s.ran (f.setW td (a.sshiftRight amt.toNat))) ∧
    (let word := fun (base low : Nat) => some (BitVec.ofNat 32 (base + td.toNat * 2 ^ 23 + ta.toNat * 2 ^ 20 + low))
     encode (.li td im) = some (BitVec.ofNat 32 (0x0C000000 + td.toNat * 2 ^ 23 + im.toNat)) ∧
     encode (.lih td ta im) = word 0x10000000 im.toNat ∧ encode (.addi td ta im) = word 0x14000000 im.toNat ∧
     encode (.andi td ta im) = word 0x18000000 im.toNat ∧ encode (.ori td ta im) = word 0x1C000000 im.toNat ∧
     encode (.xori td ta im) = word 0x20000000 im.toNat ∧ encode (.shli td ta amt) = word 0x24000000 (0 * 2 ^ 18 + amt.toNat) ∧
     encode (.shri td ta amt) = word 0x24000000 (1 * 2 ^ 18 + amt.toNat) ∧
     encode (.srai td ta amt) = word 0x24000000 (2 * 2 ^ 18 + amt.toNat))

/-- The integer instructions (R209) on all operands, with the division corners of R157: each has the word of its row, writes T[td]
with bits [511:64] zero, sets no flag, goes on to the next word and changes nothing else. -/
def Obligations.IntegerInstructionsCompute : Prop :=
  ∀ (s : State) (f : Firing) (td ta tb tc : Temp), s.Issues f false →
    let a := f.w ta
    let b := f.w tb
    let gives := fun (i : Instr) (v : Word) => exec i s = .next (s.ran (f.setW td v))
    gives (.add td ta tb) (a + b) ∧ gives (.sub td ta tb) (a - b) ∧ gives (.mul td ta tb) (a * b) ∧
    gives (.mulh td ta tb) (BitVec.ofInt 64 (a.toInt * b.toInt / 2 ^ 64)) ∧
    gives (.div td ta tb) (if b = 0 then BitVec.allOnes 64 else BitVec.ofInt 64 (a.toInt.tdiv b.toInt)) ∧
    gives (.divu td ta tb) (if b = 0 then BitVec.allOnes 64 else BitVec.ofNat 64 (a.toNat / b.toNat)) ∧
    gives (.rem td ta tb) (if b = 0 then a else BitVec.ofInt 64 (a.toInt.tmod b.toInt)) ∧
    gives (.and td ta tb) (a &&& b) ∧ gives (.or td ta tb) (a ||| b) ∧ gives (.xor td ta tb) (a ^^^ b) ∧
    gives (.shl td ta tb) (a <<< (b.toNat % 64)) ∧ gives (.shr td ta tb) (a >>> (b.toNat % 64)) ∧
    gives (.sra td ta tb) (a.sshiftRight (b.toNat % 64)) ∧
    gives (.min td ta tb) (if a.toInt ≤ b.toInt then a else b) ∧ gives (.max td ta tb) (if a.toInt ≤ b.toInt then b else a) ∧
    gives (.slt td ta tb) (if a.toInt < b.toInt then 1 else 0) ∧ gives (.sltu td ta tb) (if a.toNat < b.toNat then 1 else 0) ∧
    (∀ n, n ≤ 64 → (∀ i, i < n → a.getLsbD (63 - i) = false) → (n < 64 → a.getLsbD (63 - n) = true) →
      gives (.clz td ta) (BitVec.ofNat 64 n)) ∧
    gives (.popc td ta) (BitVec.ofNat 64 ((List.range 64).countP (fun i => a.getLsbD i))) ∧
    gives (.sel td ta tb tc) (if f.w tc ≠ 0 then a else b) ∧
    (let word := fun (b c fn : Nat) => some (BitVec.ofNat 32 (0x28000000 + td.toNat * 2 ^ 23 + ta.toNat * 2 ^ 20 + b * 2 ^ 17 +
       c * 2 ^ 14 + fn))
     (∀ e ∈ [(Instr.add td ta tb, 0x00), (.sub td ta tb, 0x01), (.mul td ta tb, 0x02), (.mulh td ta tb, 0x03), (.div td ta tb, 0x04),
        (.divu td ta tb, 0x05), (.rem td ta tb, 0x06), (.and td ta tb, 0x08), (.or td ta tb, 0x09), (.xor td ta tb, 0x0A),
        (.shl td ta tb, 0x0C), (.shr td ta tb, 0x0D), (.sra td ta tb, 0x0E), (.min td ta tb, 0x10), (.max td ta tb, 0x11),
        (.slt td ta tb, 0x12), (.sltu td ta tb, 0x13)], encode e.1 = word tb.toNat 0 e.2) ∧
     encode (.clz td ta) = word 0 0 0x14 ∧ encode (.popc td ta) = word 0 0 0x15 ∧
     encode (.sel td ta tb tc) = word tb.toNat tc.toNat 0x16)

/-- BR goes to PC + sext(of) when its condition holds and to PC + 1 otherwise (R210), and JMPI to T[ta][13:0] (R211); neither
changes anything but the program counter and the count of the firing. JMPI has the word of R211. That it stops by name at a tenant
core, where the scanner keeps it out of sealed blocks, is the model's choice (log 14). -/
def Obligations.BranchesSetTheProgramCounter : Prop :=
  ∀ (s : State) (f : Firing) (cc : BrCond) (ta tb : Temp) (off : BitVec 17), s.Issues f false →
    let a := f.w ta
    let b := f.w tb
    let taken := match cc with
      | .beq => a = b
      | .bne => a ≠ b
      | .blt => a.toInt < b.toInt
      | .bge => b.toInt ≤ a.toInt
      | .bltu => a.toNat < b.toNat
      | .bgeu => b.toNat ≤ a.toNat
      | .bra => True
    (taken → 0 ≤ (f.pc : Int) + off.toInt → (f.pc : Int) + off.toInt ≤ 16383 →
      exec (.br cc ta tb off) s =
        .next (s.setFiring { f with pc := ((f.pc : Int) + off.toInt).toNat, issued := f.issued + 1 })) ∧
    (¬taken → exec (.br cc ta tb off) s = .next (s.ran f)) ∧
    (isSteward s.cur = true →
      exec (.jmpi ta) s = .next (s.setFiring { f with pc := a.toNat % 16384, issued := f.issued + 1 })) ∧
    (isSteward s.cur = false → exec (.jmpi ta) s = .refused (.stewardOnly "JMPI")) ∧
    encode (.jmpi ta) = some (BitVec.ofNat 32 (0x30000000 + ta.toNat * 2 ^ 20))

/-! ## Instructions: frames, slots, tokens, channels, generators, launches -/

/-- FLD (R212): with the words inside the frame and no POISON in what it reads, T[t] takes the value and the flag set the words'
side-bands. A frame word beyond the frame's words faults with ILLEGAL 0x03 (R374). FST (R212, R213): with the words inside the frame
and no armed slot word among them, each word is written with the flag set as its side-band; W and WS keep the high half. An armed
slot word faults with SYNCWORD 0x01 (R374). -/
def Obligations.FrameLoadsAndStores : Prop :=
  (∀ (s : State) (f : Firing) (t : Temp) (k : FWord), s.Issues f false →
    let fr := (s.core s.cur).frame f.ctx.frame
    let w := fun j => s.fword s.cur f.ctx.frame (k.toNat + j)
    let one := s.fside s.cur f.ctx.frame k.toNat
    let loads := fun size (v : Vec) (n : Nat) (side : Byte) =>
      (k.toNat + n ≤ fr.words → (isSteward s.cur = true ∨ side.getLsbD 5 = false) →
        exec (.fld size t k) s = .next (s.ran ((f.setT t v).orFlags side))) ∧
      (fr.words < k.toNat + n → exec (.fld size t k) s = .next (s.takeFault s.cur f 0x05 0x03 none)) ∧
      (k.toNat + n ≤ fr.words → isSteward s.cur = false → side.getLsbD 5 = true →
        exec (.fld size t k) s = .next (s.takePoison s.cur f none))
    loads .d ((w 0).setWidth 512) 1 one ∧
    loads .w (((w 0).setWidth 32).setWidth 512) 1 one ∧
    loads .ws ((((w 0).setWidth 32).signExtend 64).setWidth 512) 1 one ∧
    loads .v (w 7 ++ w 6 ++ w 5 ++ w 4 ++ w 3 ++ w 2 ++ w 1 ++ w 0) 8
      ((List.range 8).foldl (fun b j => b ||| s.fside s.cur f.ctx.frame (k.toNat + j)) 0)) ∧
  (∀ (s : State) (f : Firing) (t : Temp) (k : FWord), s.Issues f false →
    let c := s.cur
    let i := f.ctx.frame
    let fr := (s.core c).frame i
    (k.toNat + 1 ≤ fr.words → s.armedIn c i k.toNat 1 = false →
      exec (.fst .d t k) s = .next ((s.setFword c i k.toNat (f.w t) f.flags).ran f) ∧
      (∀ size, size = FrameSize.w ∨ size = FrameSize.ws →
        exec (.fst size t k) s = .next ((s.setFword c i k.toNat
          ((s.fword c i k.toNat &&& 0xFFFFFFFF00000000) ||| (((f.t t).setWidth 32).setWidth 64)) f.flags).ran f))) ∧
    (k.toNat + 8 ≤ fr.words → s.armedIn c i k.toNat 8 = false →
      exec (.fst .v t k) s = .next (((List.range 8).foldl
        (fun u j => u.setFword c i (k.toNat + j) ((f.t t).extractLsb' (64 * j) 64) f.flags) s).ran f)) ∧
    (∀ size, k.toNat + frameSpan size ≤ fr.words → s.armedIn c i k.toNat (frameSpan size) = true →
      exec (.fst size t k) s = .next (s.takeFault c f 0x04 0x01 none)) ∧
    (∀ size, fr.words < k.toNat + frameSpan size → exec (.fst size t k) s = .next (s.takeFault c f 0x05 0x03 none)))

/-- A frame word written reads back, with its side-band, and no byte of memory outside the word changes, for a frame that lies in
local SRAM (R26, R93). The premise rules out states in which the word would lie outside the local SRAM. -/
def Obligations.FrameWordReadsBack : Prop :=
  ∀ (s : State) (core i k : Nat) (v : Word) (side : Byte),
    s.Wf → ((s.core core).frame i).state = .local → core < 8192 →
    256 * ((s.core core).frame i).poolofs + 8 * k + 8 ≤ sramSize →
    let t := s.setFword core i k v side
    t.fword core i k = v ∧ t.fside core i k = side ∧
    (∀ a, a < winAddr core (256 * ((s.core core).frame i).poolofs + 8 * k) ∨
        winAddr core (256 * ((s.core core).frame i).poolofs + 8 * k) + 8 ≤ a → memByte t.mem a = memByte s.mem a) ∧
    (∀ j, j ≠ k → t.fside core i j = s.fside core i j)

/-- FSELF and FIDX (R216): the firing's own handle, and a word of a frame table entry (R29, R31); FFREE of a dynamic frame of the
issuing core is held (R215), and any other handle faults with ILLEGAL 0x08 (R374). FALLOC (R30, R214): with a legal operand and a
FREE entry, the lowest FREE entry (log 7) becomes a frame of the class and the slot count asked for: LOCAL in the lowest free run of
the pool (log 7), or, with no such run, SPILLED in the lowest free body slot. Its words and side-bands are cleared, its slots get
the COUNT word of R214, and S0 gets the count, the arm bit and the entry of the operand and fires at once where they say so, or when
the ready queue has room and no checkpoint holds the frame (log 40). The launch's counter is raised by 1, and T[td] gets the handle.
With no FREE entry T[td] is 0; with neither a run nor a body slot it faults with SPILL 0x01 (R404); an illegal operand faults with
ILLEGAL 0x09 (R374). -/
def Obligations.FrameTableInstructions : Prop :=
  (∀ (s : State) (f : Firing) (td ta : Temp),
    (s.Issues f false →
      exec (.fself td) s = .next (s.ran (f.setW td
        (BitVec.ofNat 64 ((s.cur * 2 ^ 19 + f.ctx.frame * 2 ^ 9 + f.ctx.gen * 2 + 1) % 2 ^ 32)))) ∧
      exec (.fidx td ta) s = .next (s.ran (f.setW td
        (frameWordOf ((s.core s.cur).frame ((f.w ta).toNat % 1024)) ((f.w ta).toNat / 1024 % 4))))) ∧
    (s.Issues f true →
      let h : Handle := (f.w ta).setWidth 32
      (h.getLsbD 0 = true → handleCore h = s.cur → ((s.core s.cur).frame (handleFrame h)).static = false →
        exec (.ffree ta) s = .next (s.ranHeld f f (.ffree h))) ∧
      ((h.getLsbD 0 = false ∨ handleCore h ≠ s.cur ∨ ((s.core s.cur).frame (handleFrame h)).static = true) →
        exec (.ffree ta) s = .next (s.takeFault s.cur f 0x05 0x08 none)))) ∧
  (∀ (s : State) (f : Firing) (td ta : Temp), s.Issues f false →
    let r := (f.w ta).toNat
    let c := s.core s.cur
    let d := c.nodeDesc f.ctx.vnode
    let nslot := r % 128
    let clsf := r / 128 % 8
    let cls := if clsf = 0 then ndClass d else clsf - 1
    let legal := clsf < 6 ∧ nslot ≤ 64 ∧ nslot ≤ 32 * 2 ^ cls ∧ r / 2 ^ 50 = 0
    let slot := fun (count armed entry : Nat) =>
      BitVec.ofNat 64 (count + 2 ^ 24 * armed + 2 ^ 25 + 2 ^ 28 * ndPrio d + 2 ^ 32 * entry)
    let slot0 := slot (r / 2 ^ 26 % 2 ^ 24) (r / 2 ^ 10 % 2) (if (f.w ta).getLsbD 11 then r / 2 ^ 12 % 2 ^ 14 else ndEntry d)
    (¬legal → exec (.falloc td ta) s = .next (s.takeFault s.cur f 0x05 0x09 none)) ∧
    (legal → c.freeEntry = none → exec (.falloc td ta) s = .next (s.ran (f.setW td 0))) ∧
    (legal → c.freeEntry ≠ none → c.freeRun (2 ^ cls) = none → c.freeBody = none →
      exec (.falloc td ta) s = .next (s.takeFault s.cur f 0x0D 0x01 none)) ∧
    (∀ i, legal → c.freeEntry = some i →
      let h := mkHandle s.cur i (c.frame i).gen
      let fresh : Frame := { Frame.zero with
        gen := (c.frame i).gen, fclass := cls, nslot := nslot, vnode := f.ctx.vnode, launch := f.ctx.launch,
        parent := mkHandle s.cur f.ctx.frame f.ctx.gen, iter := f.ctx.iter, progress := s.cycle }
      let made := fun (fr : Frame) =>
        let u := ((s.modFrame s.cur i (fun _ => fr)).clearFrame s.cur i).initSlots s.cur i nslot (slot 0 0 (ndEntry d))
        let u := if nslot = 0 then u else u.updateSlot s.cur i 0 slot0
        (u.sendLaunch s.cur f.ctx.launch 1).ran { f.setW td (h.setWidth 64) with allocs := f.allocs ++ [h] }
      (∀ p, c.freeRun (2 ^ cls) = some p →
        exec (.falloc td ta) s = .next (made { fresh with state := .local, poolofs := p })) ∧
      (∀ b, c.freeRun (2 ^ cls) = none → c.freeBody = some b →
        exec (.falloc td ta) s = .next (made { fresh with state := .spilled, poolofs := noRun, body := some b }))))

/-- SLOTSET, SLOTARM and SLOTDIS are held; SLOTRD reads the slot word as it stands (R217). A slot at or above the frame's slot count
faults with ILLEGAL 0x04 (R374). -/
def Obligations.SlotInstructions : Prop :=
  ∀ (s : State) (f : Firing) (td ta : Temp) (n : Slot),
    let inside := n.toNat < ((s.core s.cur).frame f.ctx.frame).nslot
    (s.Issues f true → inside →
      exec (.slotset n ta) s = .next (s.ranHeld f f (.slotSet n.toNat ((f.w ta).setWidth 24))) ∧
      exec (.slotarm n ta) s = .next (s.ranHeld f f (.slotArm n.toNat ((f.w ta).setWidth 24))) ∧
      exec (.slotdis n) s = .next (s.ranHeld f f (.slotDis n.toNat))) ∧
    (s.Issues f false → inside →
      exec (.slotrd td n) s = .next (s.ran (f.setW td (s.fword s.cur f.ctx.frame n.toNat)))) ∧
    (s.Issues f true → ¬inside →
      ∀ i ∈ [Instr.slotset n ta, .slotarm n ta, .slotdis n], exec i s = .next (s.takeFault s.cur f 0x05 0x04 none)) ∧
    (s.Issues f false → ¬inside → exec (.slotrd td n) s = .next (s.takeFault s.cur f 0x05 0x04 none))

/-- SEND, SENDV and SIG (R218 to R220) hold their message with the flag set as its side-band: a frame handle may be any; a static
destination of a tenant firing must be a route of its node, and a SIG names port 0 (R374, ILLEGAL 0x07). -/
def Obligations.TokenSendsAreHeld : Prop :=
  ∀ (s : State) (f : Firing) (rel : Option SendScope) (tv th : Temp) (n : Slot) (k : FWord) (amount : BitVec 9),
    s.Issues f true →
    let dest : Handle := (f.w th).setWidth 32
    let routed := ∃ p, p < 4 ∧ ndOutEn (s.ndOf f) p = true ∧ routeWord (s.ndOf f) p = dest.toNat
    let handle := dest.getLsbD 0 = true
    let toPort0 := dest.toNat / 2 % 4 = 0
    let legal := handle ∨ isSteward s.cur = true ∨ routed
    (legal →
      exec (.send rel tv th n k) s = .next (s.ranHeld f f (.send rel dest n.toNat k.toNat 1 8 (zx (f.w tv)) f.flags)) ∧
      exec (.sendv rel tv th n k) s = .next (s.ranHeld f f (.send rel dest n.toNat k.toNat 1 64 (f.t tv) f.flags))) ∧
    (legal → (handle ∨ toPort0) →
      exec (.sig rel th n amount) s =
        .next (s.ranHeld f f (.send rel dest n.toNat amount.toNat amount.toNat 0 0 f.flags)) ∧
      exec (.sigReg rel tv th n) s =
        .next (s.ranHeld f f (.send rel dest n.toNat 0 ((f.w tv).toNat % 2 ^ 23) 0 0 f.flags))) ∧
    (¬legal →
      ∀ i ∈ [Instr.send rel tv th n k, .sendv rel tv th n k, .sig rel th n amount, .sigReg rel tv th n],
        exec i s = .next (s.takeFault s.cur f 0x05 0x07 none)) ∧
    (¬handle → ¬toPort0 →
      ∀ i ∈ [Instr.sig rel th n amount, .sigReg rel tv th n], exec i s = .next (s.takeFault s.cur f 0x05 0x07 none))

/-- Channel inputs (R222): CHPOP and CHPEEK with V on a present port of the form's width with a token at the read position read that
token, and CHPOP holds its consumption; CHPEEK of the info form reads on every present port, an empty read position too. A port that
is absent, or for a read of data of the other width, faults with ILLEGAL 0x05, a read of data at an empty read position with 0x06
(R374), and POISON is consumed, by CHPOP and by CHPEEK with V (R357). Channel outputs (R222): CHPUSH, CHEND and CHRCFG on a present
output port are held with the flag set; a port that is absent, of another width, or a depth outside 1 to 8,192 faults with ILLEGAL
0x05 (R374). -/
def Obligations.ChannelInstructions : Prop :=
  (∀ (s : State) (f : Firing) (vec : Bool) (td : Temp) (p : Port),
    let d := s.ndOf f
    let fits := ndInEn d p.toNat = true ∧ ndInVec d p.toNat = vec
    let read := fun (t : Token) => (f.setT td (if t.vec then t.data else (t.data.setWidth 64).setWidth 512)).orFlags t.side
    (∀ t, s.Issues f true → fits → s.tokenAt f p.toNat = some t → tokPoison s t = false →
      exec (.chpop vec td p) s = .next (s.ranHeld f
        { read t with pops := tabSet f.pops p.toNat (tabGet 0 f.pops p.toNat + 1) } (.chPop p.toNat))) ∧
    (∀ t, s.Issues f true → fits → s.tokenAt f p.toNat = some t → tokPoison s t = true →
      exec (.chpop vec td p) s = .next (s.takePoison s.cur f none)) ∧
    (s.Issues f true → fits → s.tokenAt f p.toNat = none →
      exec (.chpop vec td p) s = .next (s.takeFault s.cur f 0x05 0x06 none)) ∧
    (s.Issues f true → ¬fits → exec (.chpop vec td p) s = .next (s.takeFault s.cur f 0x05 0x05 none)) ∧
    (∀ t, s.Issues f false → vec = true → fits → s.tokenAt f p.toNat = some t → tokPoison s t = false →
      exec (.chpeek true td p) s = .next (s.ran (read t))) ∧
    (∀ t, s.Issues f false → vec = true → fits → s.tokenAt f p.toNat = some t → tokPoison s t = true →
      exec (.chpeek true td p) s = .next (s.takePoison s.cur f none)) ∧
    (s.Issues f false → vec = true → fits → s.tokenAt f p.toNat = none →
      exec (.chpeek true td p) s = .next (s.takeFault s.cur f 0x05 0x06 none)) ∧
    (s.Issues f false → vec = true → ¬fits → exec (.chpeek true td p) s = .next (s.takeFault s.cur f 0x05 0x05 none)) ∧
    (s.Issues f false → ndInEn d p.toNat = false → exec (.chpeek false td p) s = .next (s.takeFault s.cur f 0x05 0x05 none)) ∧
    (s.Issues f false → ndInEn d p.toNat = true →
      exec (.chpeek false td p) s = .next (s.ran (f.setW td (infoWord (s.tokenAt f p.toNat)))))) ∧
  (∀ (s : State) (f : Firing) (vec : Bool) (ta : Temp) (p : Port), s.Issues f true →
    let d := s.ndOf f
    let depth := (f.w ta).toNat % 2 ^ 14
    (ndOutEn d p.toNat = true → ndOutVec d p.toNat = vec →
      exec (.chpush vec ta p) s =
        .next (s.ranHeld f f (.chPush p.toNat vec (if vec then f.t ta else (f.w ta).setWidth 512) f.flags))) ∧
    (ndOutEn d p.toNat = true → exec (.chend p) s = .next (s.ranHeld f f (.chEnd p.toNat f.flags))) ∧
    (ndOutEn d p.toNat = true → 1 ≤ depth → depth ≤ 8192 →
      exec (.chrcfg ta p) s = .next (s.ranHeld f f (.chRcfg p.toNat depth f.flags))) ∧
    ((ndOutEn d p.toNat = false ∨ ndOutVec d p.toNat ≠ vec) →
      exec (.chpush vec ta p) s = .next (s.takeFault s.cur f 0x05 0x05 none)) ∧
    (ndOutEn d p.toNat = false → exec (.chend p) s = .next (s.takeFault s.cur f 0x05 0x05 none)) ∧
    ((ndOutEn d p.toNat = false ∨ depth = 0 ∨ 8192 < depth) →
      exec (.chrcfg ta p) s = .next (s.takeFault s.cur f 0x05 0x05 none)))

/-- LGEN, LGSTOP and LAUNCH (R224 to R226): LGEN with its zero fields is held and T[td] is 0; LGSTOP is held; LAUNCH with a legal
descriptor reserves the lowest free work table entry of its die, gives the launch id and is held, and with none free gives 64
one-bits and holds nothing. An illegal descriptor faults with ILLEGAL 0x0A (R374). -/
def Obligations.GeneratorAndLaunchInstructions : Prop :=
  ∀ (s : State) (f : Firing) (td ta : Temp) (g : Port), s.Issues f true →
    let d := f.t ta
    let die := dieOf s.cur
    (lgenOk d = true → exec (.lgen td ta) s = .next (s.ranHeld f (f.setW td 0) (.lgen d))) ∧
    (lgenOk d = false → exec (.lgen td ta) s = .next (s.takeFault s.cur f 0x05 0x0A none)) ∧
    exec (.lgstop g) s = .next (s.ranHeld f f (.lgstop g.toNat)) ∧
    (launchOk d = false → exec (.launch td ta) s = .next (s.takeFault s.cur f 0x05 0x0A none)) ∧
    (launchOk d = true → s.freeWork die = none →
      exec (.launch td ta) s = .next (s.ran (f.setW td (BitVec.allOnes 64)))) ∧
    (∀ i, launchOk d = true → s.freeWork die = some i →
      let w := launchWork s (s.work die i) d
      let id := die * 2 ^ 14 + w.seq * 2 ^ 8 + i
      w.level = 1 ∧ w.reserved = true ∧ w.state = .free ∧ w.counter = 0 ∧
      exec (.launch td ta) s = .next ((s.setWork die i w).ranHeld f
        { f.setW td (BitVec.ofNat 64 id) with launches := f.launches ++ [id] } (.launch id d)))

/-! ## Instructions: memory, collectives, vectors, engines, ingest, the steward's commands -/

/-- The address of LD, ST, STT and PST is T[tb] + sext(off) × size modulo 2^64 (R236). -/
def Obligations.MemoryAddressIsBasePlusScaledOffset : Prop :=
  ∀ (f : Firing) (tb : Temp) (off : BitVec 14),
    memAddr f .b tb off = f.w tb + off.signExtend 64 ∧
    memAddr f .h tb off = f.w tb + off.signExtend 64 * 2 ∧
    memAddr f .w tb off = f.w tb + off.signExtend 64 * 4 ∧
    memAddr f .d tb off = f.w tb + off.signExtend 64 * 8 ∧
    memAddr f .v tb off = f.w tb + off.signExtend 64 * 64

/-- LD (R128, R236, R237): of an aligned range of the own local SRAM below the token pool, free of POISON, T[t] takes the value and
the flag set the side-bands. A load of the token pool completes with a value and a side-band that the manual leaves open (log 6),
and consumes poison where that side-band holds it (R357). While a die-local split-phase access of the core is released and not
performed, LD waits (log 49). An address outside the own local SRAM faults with ILLEGAL 0x02, a misaligned one with ALIGN 0x02
(R374). LD's value, byte by byte, little-endian and zero-extended (R19, R237): a byte comes from the youngest store of the core into
its own SRAM that covers it and is held or in flight (R48, R128 rule 5), and from the SRAM where none does. The held ones are
younger than those in flight, and of these a later release is the younger. -/
def Obligations.LoadsReadMemory : Prop :=
  (∀ (s : State) (f : Firing) (size : MemSize) (t tb : Temp) (off : BitVec 14), s.Issues f false →
    let va := (memAddr f size tb off).toNat
    let n := memSz size
    let o := va - selfBase
    let inSram := selfBase ≤ va ∧ va < selfBase + sramSize
    (inSram → va % n = 0 → s.loadOut s.cur = false → s.poolRange s.cur o n = false →
      (isSteward s.cur = true ∨ (ldSides s s.cur o n).getLsbD 5 = false →
        exec (.ld size t tb off) s = .next (s.ran ((f.setT t (ldValue s s.cur o n)).orFlags (ldSides s s.cur o n)))) ∧
      (isSteward s.cur = false → (ldSides s s.cur o n).getLsbD 5 = true →
        exec (.ld size t tb off) s = .next (s.takePoison s.cur f (some va)))) ∧
    (inSram → va % n = 0 → s.loadOut s.cur = false → s.poolRange s.cur o n = true →
      ∃ (v : Vec) (side : Byte),
        (isSteward s.cur = true ∨ side.getLsbD 5 = false →
          exec (.ld size t tb off) s =
            .next (State.ran { s with fresh := s.fresh + 1 } ((f.setT t v).orFlags side))) ∧
        (isSteward s.cur = false → side.getLsbD 5 = true →
          exec (.ld size t tb off) s = .next (s.takePoison s.cur f (some va)))) ∧
    (inSram → va % n = 0 → s.loadOut s.cur = true → exec (.ld size t tb off) s = .next s) ∧
    (inSram → va % n ≠ 0 → exec (.ld size t tb off) s = .next (s.takeFault s.cur f 0x03 0x02 (some va))) ∧
    (¬inSram → exec (.ld size t tb off) s = .next (s.takeFault s.cur f 0x05 0x02 (some va)))) ∧
  (∀ (s : State) (core o n : Nat),
    (s.fwdStores core = [] → ldValue s core o n = BitVec.ofNat 512 (leNat (memBytes s.mem (winAddr core o) n))) ∧
    (n ≤ 64 → ∀ j, n ≤ j → j < 64 → (ldValue s core o n).extractLsb' (8 * j) 8 = 0#8) ∧
    (n ≤ 64 → ∀ j, j < n →
      let byte := (ldValue s core o n).extractLsb' (8 * j) 8
      let hits := fun (w : FwdStore) => w.ofs ≤ o + j ∧ o + j < w.ofs + w.size
      let ofHeld := fun (h : Held) (w : FwdStore) => ∃ (k : AccKind) (va : Word) (side : Byte) (fm sl : Nat),
        h.act = .access k va w.size w.data side fm sl ∧ (k = .st ∨ k = .stt ∨ k = .pst) ∧ s.ownOfs core va = some w.ofs
      let ofReq := fun (r : Req) (w : FwdStore) => s.ownOfs core r.va = some w.ofs ∧ r.size = w.size ∧ r.data = w.data
      let noHeld := ∀ h ∈ (s.core core).queue, ∀ w, ofHeld h w → ¬hits w
      (∀ (q rest : List Held) (h : Held) (w : FwdStore), (s.core core).queue = q ++ h :: rest → ofHeld h w → hits w →
        (∀ h2 ∈ rest, ∀ w2, ofHeld h2 w2 → ¬hits w2) → byte = w.data.extractLsb' (8 * (o + j - w.ofs)) 8) ∧
      (∀ (r : Req) (w : FwdStore), noHeld → r ∈ s.inflightStores core → ofReq r w → hits w →
        (∀ r2 ∈ s.inflightStores core, ∀ w2, ofReq r2 w2 → hits w2 → r2 = r ∨ r2.id < r.id) →
          byte = w.data.extractLsb' (8 * (o + j - w.ofs)) 8) ∧
      (noHeld → (∀ r ∈ s.inflightStores core, ∀ w, ofReq r w → ¬hits w) → byte = memByte s.mem (winAddr core (o + j)))))

/-- ST, STT and PST (R238, R239): at an address that passes the checks each is held with its size, the low bytes of T[t] and the
flag set; STT also with its flag-map address (R174). The checks fail in the order TRANSLATION, ALIGN, SYNCWORD (R450). FENCE leaves
a mark in the commit queue that takes no entry (R133). -/
def Obligations.StoresAndFencesAreHeld : Prop :=
  (∀ (s : State) (f : Firing) (size : MemSize) (t tb : Temp) (off : BitVec 14), s.Issues f true →
    let va := memAddr f size tb off
    let n := memSz size
    let data := BitVec.ofNat 512 ((f.t t).toNat % 2 ^ (8 * n))
    let form := fun (i : Instr) (kind : AccKind) (banned sync : Bool) (k : Nat) =>
      (xlatFault (isSteward s.cur) banned va = none → va.toNat % n = 0 → (sync = true → s.syncFault s.cur va n = none) →
        exec i s = .next (s.ranHeld f f (.access kind va n data f.flags k 0))) ∧
      (∀ c, xlatFault (isSteward s.cur) banned va = some c → exec i s = .next (s.takeFault s.cur f 0x06 c (some va.toNat))) ∧
      (xlatFault (isSteward s.cur) banned va = none → va.toNat % n ≠ 0 →
        exec i s = .next (s.takeFault s.cur f 0x03 0x02 (some va.toNat))) ∧
      (∀ c, xlatFault (isSteward s.cur) banned va = none → va.toNat % n = 0 → sync = true → s.syncFault s.cur va n = some c →
        exec i s = .next (s.takeFault s.cur f 0x04 c (some va.toNat)))
    form (.st size t tb off) .st false true 0 ∧
    form (.stt size t tb off) .stt false true
      ((BitVec.ofNat 48 (ndFmbase ((s.core s.cur).nodeDesc f.ctx.vnode) + va.toNat % 2 ^ 48 / 8)).signExtend 64).toNat ∧
    form (.pst size t tb off) .pst true false 0) ∧
  (∀ (s : State) (f : Firing) (kind : FenceKind) (scope : Scope), s.Issues f false →
    exec (.fence kind scope) s = .next (s.ranMark f f (.fence kind scope)) ∧
    ∀ t, exec (.fence kind scope) s = .next t → (t.core s.cur).occupied = (s.core s.cur).occupied)

/-- What an address fails in TRANSLATION at issue (R390): 0x01 when bits [63:48] do not equal bit 47; in tenant mode 0x02 when it
lies in the self window beyond local SRAM, or in the self window at all for PST and LDRO. -/
def Obligations.AddressChecksAtIssue : Prop :=
  ∀ (steward banned : Bool) (va : Word),
    let canon := va.toNat < 2 ^ 47 ∨ 2 ^ 64 - 2 ^ 47 ≤ va.toNat
    let self := 2 ^ 64 - 2 ^ 20 ≤ va.toNat
    (¬canon → xlatFault steward banned va = some 0x01) ∧
    (canon → steward = true → xlatFault steward banned va = none) ∧
    (canon → ¬self → xlatFault steward banned va = none) ∧
    (self → steward = false → banned = true → xlatFault steward banned va = some 0x02) ∧
    (self → steward = false → 2 ^ 64 - 2 ^ 20 + 0x60000 ≤ va.toNat → xlatFault steward banned va = some 0x02) ∧
    (self → banned = false → va.toNat < 2 ^ 64 - 2 ^ 20 + 0x60000 → xlatFault steward banned va = none)

/-- LDS, LDRO and the nine atomics (R241, R243 to R245): inside the frame, with a slot below the slot count and an address that
passes the checks, each is held; an atomic with its operand words and the flag set with their side-bands. Where a split-phase load
or an atomic faults at issue, in the order of R450: ILLEGAL 0x03 for a frame word beyond the frame, ILLEGAL 0x04 for a slot at or
above the slot count, TRANSLATION (R390), ALIGN 0x03 for a load and 0x01 for an atomic, and SYNCWORD for an atomic (R374). -/
def Obligations.SplitLoadsAndAtomicsAreHeld : Prop :=
  (∀ (s : State) (f : Firing) (size : SplitSize) (wd : AWidth) (scope : Scope) (k : FWord) (tb : Temp) (sl : Slot),
    s.Issues f true →
    let fr := (s.core s.cur).frame f.ctx.frame
    let va := f.w tb
    let slotOk := sl.toNat < fr.nslot
    let split := fun (i : Instr) (kind : AccKind) (banned : Bool) =>
      k.toNat + splitWords size ≤ fr.words → slotOk → xlatFault (isSteward s.cur) banned va = none →
      va.toNat % splitSz size = 0 →
        exec i s = .next (s.ranHeld f f (.access kind va (splitSz size) 0 0 k.toNat sl.toNat))
    let w := fun (z : AWidth) (j : Nat) => match z with
      | .w => ((s.fword s.cur f.ctx.frame (k.toNat + j)).setWidth 32).setWidth 64
      | .d => s.fword s.cur f.ctx.frame (k.toNat + j)
    let side := fun j => s.fside s.cur f.ctx.frame (k.toNat + j)
    let atomic := fun (i : Instr) (op : Nat) (z : AWidth) =>
      k.toNat + 1 ≤ fr.words → slotOk → xlatFault (isSteward s.cur) false va = none → va.toNat % atomSz z = 0 →
      s.syncFault s.cur va (atomSz z) = none →
        let g := f.orFlags (side 0)
        exec i s = .next (s.ranHeld f g (.access (.atomic op (w z 0) 0 scope) va (atomSz z) 0 g.flags k.toNat sl.toNat))
    split (.lds size k tb sl) .lds false ∧ split (.ldro size k tb sl) .ldro true ∧
    atomic (.aadd wd scope k tb sl) 0 wd ∧ atomic (.aand wd scope k tb sl) 1 wd ∧ atomic (.aor wd scope k tb sl) 2 wd ∧
    atomic (.axor wd scope k tb sl) 3 wd ∧ atomic (.amin wd scope k tb sl) 4 wd ∧ atomic (.amax wd scope k tb sl) 5 wd ∧
    atomic (.aswap wd scope k tb sl) 6 wd ∧ atomic (.afadd scope k tb sl) 7 .w ∧
    (k.toNat + 2 ≤ fr.words → slotOk → xlatFault (isSteward s.cur) false va = none → va.toNat % atomSz wd = 0 →
      s.syncFault s.cur va (atomSz wd) = none →
        let g := f.orFlags (side 0 ||| side 1)
        exec (.acas wd scope k tb sl) s =
          .next (s.ranHeld f g (.access (.atomic 8 (w wd 0) (w wd 1) scope) va (atomSz wd) 0 g.flags k.toNat sl.toNat)))) ∧
  (∀ (s : State) (f : Firing) (size : SplitSize) (wd : AWidth) (scope : Scope) (k : FWord) (tb : Temp) (sl : Slot),
    s.Issues f true →
    let fr := (s.core s.cur).frame f.ctx.frame
    let va := f.w tb
    let faults := fun (i : Instr) (words size align : Nat) (banned sync : Bool) =>
      (fr.words < k.toNat + words → exec i s = .next (s.takeFault s.cur f 0x05 0x03 none)) ∧
      (k.toNat + words ≤ fr.words → fr.nslot ≤ sl.toNat → exec i s = .next (s.takeFault s.cur f 0x05 0x04 none)) ∧
      (k.toNat + words ≤ fr.words → sl.toNat < fr.nslot →
        (∀ c, xlatFault (isSteward s.cur) banned va = some c → exec i s = .next (s.takeFault s.cur f 0x06 c (some va.toNat))) ∧
        (xlatFault (isSteward s.cur) banned va = none → va.toNat % size ≠ 0 →
          exec i s = .next (s.takeFault s.cur f 0x03 align (some va.toNat))) ∧
        (∀ c, xlatFault (isSteward s.cur) banned va = none → va.toNat % size = 0 → sync = true → s.syncFault s.cur va size = some c →
          exec i s = .next (s.takeFault s.cur f 0x04 c (some va.toNat))))
    faults (.lds size k tb sl) (splitWords size) (splitSz size) 0x03 false false ∧
    faults (.ldro size k tb sl) (splitWords size) (splitSz size) 0x03 true false ∧
    (∀ i ∈ [Instr.aadd wd scope k tb sl, .aand wd scope k tb sl, .aor wd scope k tb sl, .axor wd scope k tb sl, .amin wd scope k tb sl,
        .amax wd scope k tb sl, .aswap wd scope k tb sl], faults i 1 (atomSz wd) 0x01 false true) ∧
    faults (.afadd scope k tb sl) 1 (atomSz .w) 0x01 false true ∧
    faults (.acas wd scope k tb sl) 2 (atomSz wd) 0x01 false true)

/-- The collective commands (R302, R321) are held with their 64-byte descriptor, and T[td] is 0; PUBL with zero reserved bits is
held with its scope, and with others faults with ILLEGAL 0x0A (R374). -/
def Obligations.CollectiveCommandsAreHeld : Prop :=
  ∀ (s : State) (f : Firing) (td ta : Temp) (scope : Scope), s.Issues f true →
    let d := f.t ta
    let g := f.setW td 0
    let op := f.w ta
    exec (.hpdef td ta) s = .next (s.ranHeld f g (.hpdef d)) ∧
    exec (.hpput td ta) s = .next (s.ranHeld f g (.hpput d)) ∧
    exec (.hpwait td ta) s = .next (s.ranHeld f g (.hpwait d)) ∧
    exec (.turndef td ta) s = .next (s.ranHeld f g (.turndef d)) ∧
    exec (.reddef td ta) s = .next (s.ranHeld f g (.reddef d)) ∧
    exec (.redput td ta) s = .next (s.ranHeld f g (.redput d)) ∧
    exec (.pbdef td ta) s = .next (s.ranHeld f g (.pbdef d)) ∧
    (op.toNat / 2 ^ 14 % 4 = 0 → op.toNat / 2 ^ 48 = 0 → exec (.publ scope ta) s = .next (s.ranHeld f f (.publ scope op))) ∧
    (¬(op.toNat / 2 ^ 14 % 4 = 0 ∧ op.toNat / 2 ^ 48 = 0) →
      exec (.publ scope ta) s = .next (s.takeFault s.cur f 0x05 0x0A none))

/-- VARITH (R249, R250): lane by lane, the exact result of the operation rounded once into the lane's format with the rounding mode
in force; T[td] and the flag set change, nothing else. The lanes of a result (R248): lane i of the temporary that setLanes writes is
the lane's value, and the flag set takes the OR of the lanes' flags, bits 6 to 0; no other temporary changes. -/
def Obligations.VectorArithmeticComputes : Prop :=
  (∀ (s : State) (f : Firing) (ty : FType) (rm : Rnd) (td ta tb tc : Temp), s.Issues f false →
    let fm := ftFmt ty
    let m := s.rmOf f rm
    let a := fun i => fm.decode (laneN fm.width (f.t ta) i)
    let b := fun i => fm.decode (laneN fm.width (f.t tb) i)
    let c := fun i => fm.decode (laneN fm.width (f.t tc) i)
    let gives := fun (i : Instr) (g : Nat → Nat × Byte) => exec i s = .next (s.ran (f.setLanes td fm.width g))
    gives (.vadd ty rm td ta tb) (fun i => rounded fm m (addX m (a i) (b i))) ∧
    gives (.vsub ty rm td ta tb) (fun i => rounded fm m (addX m (a i) (b i).negate)) ∧
    gives (.vmul ty rm td ta tb) (fun i => rounded fm m (mulX (a i) (b i))) ∧
    gives (.vfma ty rm td ta tb tc) (fun i => rounded fm m (fmaX m (a i) (b i) (c i))) ∧
    gives (.vfms ty rm td ta tb tc) (fun i => rounded fm m (fmaX m (a i) (b i) (c i).negate)) ∧
    gives (.vmin ty rm td ta tb) (fun i => encoded fm (minMaxX false (a i) (b i))) ∧
    gives (.vmax ty rm td ta tb) (fun i => encoded fm (minMaxX true (a i) (b i))) ∧
    gives (.vdiv ty rm td ta tb) (fun i => encoded fm (divX fm m (a i) (b i))) ∧
    gives (.vsqrt ty rm td ta) (fun i => encoded fm (sqrtX fm m (a i))) ∧
    gives (.vrcp ty rm td ta) (fun i => encoded fm (vrcp fm m (a i))) ∧
    gives (.vrsq ty rm td ta) (fun i => encoded fm (vrsq fm m (a i))) ∧
    gives (.vexp2 ty rm td ta) (fun i => encoded fm (vexp2 fm m (a i))) ∧
    gives (.vlog2 ty rm td ta) (fun i => encoded fm (vlog2 fm m (a i)))) ∧
  (∀ (f : Firing) (td : Temp) (b : Nat) (g : Nat → Nat × Byte), b = 8 ∨ b = 16 ∨ b = 32 →
    (∀ i, i < 512 / b → laneN b ((f.setLanes td b g).t td) i = (g i).1 % 2 ^ b) ∧
    (∀ u, u ≠ td → (f.setLanes td b g).t u = f.t u) ∧
    (f.setLanes td b g).pc = f.pc ∧
    (∀ n, (f.setLanes td b g).flags.getLsbD n =
      (f.flags.getLsbD n || (decide (n < 7) && (List.range (512 / b)).any (fun i => (g i).2.getLsbD n)))))

/-- VINT (R251, R157): the integer result of each lane modulo 2^b, or clamped to the type's range with OF under SAT. -/
def Obligations.VectorIntegersCompute : Prop :=
  ∀ (s : State) (f : Firing) (ty : IType) (sat : Bool) (td ta tb : Temp), s.Issues f false →
    let w := itBits ty
    let x := fun i => itVal ty (laneN w (f.t ta) i)
    let y := fun i => itVal ty (laneN w (f.t tb) i)
    let a := fun i => laneN w (f.t ta) i
    let b := fun i => laneN w (f.t tb) i
    let lo : Int := if ty = .ub then 0 else -(2 ^ (w - 1) : Nat)
    let hi : Int := if ty = .ub then (2 ^ w : Nat) - 1 else (2 ^ (w - 1) : Nat) - 1
    let fit := fun (z : Int) =>
      if sat = true ∧ z < lo then ((lo % (2 ^ w : Nat)).toNat, flOF)
      else if sat = true ∧ hi < z then (hi.toNat, flOF)
      else ((z % (2 ^ w : Nat)).toNat, (0 : Byte))
    let gives := fun (i : Instr) (g : Nat → Nat × Byte) => exec i s = .next (s.ran (f.setLanes td w g))
    gives (.viadd ty sat td ta tb) (fun i => fit (x i + y i)) ∧
    gives (.visub ty sat td ta tb) (fun i => fit (x i - y i)) ∧
    gives (.vimul ty sat td ta tb) (fun i => fit (x i * y i)) ∧
    gives (.vshl ty sat td ta tb) (fun i => fit (x i * (2 ^ (b i % w) : Nat))) ∧
    gives (.vand ty td ta tb) (fun i => (a i &&& b i, 0)) ∧
    gives (.vor ty td ta tb) (fun i => (a i ||| b i, 0)) ∧
    gives (.vxor ty td ta tb) (fun i => (a i ^^^ b i, 0)) ∧
    gives (.vshr ty td ta tb) (fun i => (a i / 2 ^ (b i % w), 0)) ∧
    gives (.vsra ty td ta tb) (fun i => ((x i / (2 ^ (b i % w) : Nat) % (2 ^ w : Nat)).toNat, 0))

/-- VPERM (R252 to R254): select, permute, broadcast, extract and insert move lanes; VCMP gives all ones or zero; VRED is the
pairwise tree over the lanes. -/
def Obligations.VectorPermutesMoveLanes : Prop :=
  ∀ (s : State) (f : Firing) (ty : VType) (cond : CmpCond) (op : RedOp) (td ta tb tc : Temp), s.Issues f false →
    let w := ty.bits
    let n := 512 / w
    let a := fun i => laneN w (f.t ta) i
    let b := fun i => laneN w (f.t tb) i
    let moves := fun (i : Instr) (g : Nat → Nat) => exec i s = .next (s.ran (f.setT td (ofLanes w g)))
    moves (.vsel ty td ta tb tc) (fun i => if laneN w (f.t tc) i ≠ 0 then a i else b i) ∧
    moves (.vperm ty td ta tb) (fun i => a (b i % n)) ∧
    moves (.vbcast ty td ta) (fun _ => a 0) ∧
    exec (.vext ty td ta tb) s = .next (s.ran (f.setT td (BitVec.ofNat 512 (a ((f.t tb).toNat % 64 % n))))) ∧
    moves (.vins ty td ta tb) (fun i => if i = (f.t tb).toNat % 64 % n then a 0 else laneN w (f.t td) i) ∧
    exec (.vcmp ty cond td ta tb) s = .next (s.ran (f.setLanes td w (fun i => cmpLane ty cond (a i) (b i)))) ∧
    exec (.vred ty op td ta) s = .next (s.ran
      ((f.setT td (BitVec.ofNat 512
        ((redTree (redComb ty op (s.rmOf f .dyn)) n.log2 ((List.range n).map a)).1.headD 0))).orFlags
        (redTree (redComb ty op (s.rmOf f .dyn)) n.log2 ((List.range n).map a)).2))

/-- VCVT, VDEC, VENC and CTLD (R255 to R258): the conversions of the lanes of a part; each waits while a CTLD of its table is being
released; CTLD with a legal operand is held, and with another faults with ILLEGAL 0x0A (R374). -/
def Obligations.ConversionsComplete : Prop :=
  ∀ (s : State) (f : Firing) (src dst : VType) (r part : BitVec 3) (ct : Port) (td ta : Temp),
    (s.Issues f false → src ≠ .c8 → dst ≠ .c8 →
      exec (.vcvt src dst r part td ta) s = .next (s.ran (f.setLanes td dst.bits
        (vcvtLane (s.ctag 0) src dst (s.rmOf f (rndOfCode r.toNat)) part.toNat (f.t ta) (f.t td))))) ∧
    (s.Issues f false → (src = .c8 ∨ dst = .c8) → s.ctldBusy (r.toNat % 4) = false →
      exec (.vcvt src dst r part td ta) s = .next (s.ran (f.setLanes td dst.bits
        (vcvtLane (s.ctag (r.setWidth 2)) src dst (s.rmOf f .dyn) part.toNat (f.t ta) (f.t td))))) ∧
    (s.Issues f false → (src = .c8 ∨ dst = .c8) → s.ctldBusy (r.toNat % 4) = true → exec (.vcvt src dst r part td ta) s = .next s) ∧
    (s.Issues f false → s.ctldBusy ct.toNat = false →
      exec (.vdec ct part td ta) s = .next (s.ran (f.setT td (ofLanes 32 (fun i =>
        codeContainer (s.ctag ct) (laneN 8 (f.t ta) (16 * part.toNat + i)))))) ∧
      exec (.venc ct part td ta) s = .next (s.ran (f.setLanes td 8 (fun j =>
        if 16 * part.toNat ≤ j ∧ j < 16 * part.toNat + 16 then
          (s.ctag ct).encode (fmtE8M10.decode (laneN 32 (f.t ta) (j - 16 * part.toNat) % 2 ^ 19))
        else (laneN 8 (f.t td) j, 0))))) ∧
    (s.Issues f false → s.ctldBusy ct.toNat = true →
      exec (.vdec ct part td ta) s = .next s ∧ exec (.venc ct part td ta) s = .next s) ∧
    (s.Issues f true → ctldOk (f.w ta) = true → exec (.ctld ct ta) s = .next (s.ranHeld f f (.ctld ct.toNat (f.w ta)))) ∧
    (s.Issues f true → ctldOk (f.w ta) = false → exec (.ctld ct ta) s = .next (s.takeFault s.cur f 0x05 0x0A none))

/-- Tiles and the Press's commands (R262, R263, R271, R275): TDEF, MXFMT, MXEPI and MXCLR with a legal operand are held, and with an
illegal one fault with ILLEGAL 0x0A (R374); TREL is held; TSTAT reads the tile entry as it stands. -/
def Obligations.TileAndPressCommands : Prop :=
  ∀ (s : State) (f : Firing) (td ta : Temp) (tile : Slot),
    let d := f.t ta
    let g := f.setW td 0
    let command := fun (i : Instr) (ok : Bool) (h : Firing) (act : Act) =>
      (ok = true → exec i s = .next (s.ranHeld f h act)) ∧ (ok = false → exec i s = .next (s.takeFault s.cur f 0x05 0x0A none))
    (s.Issues f true →
      command (.tdef tile ta) (tdefOk d) f (.tdef tile.toNat d) ∧
      command (.mxfmt td ta) (mxfmtOk d) g (.mxfmt d) ∧
      command (.mxepi td ta) (mxepiOk d) g (.mxepi d) ∧
      command (.mxclr td ta) (decide (d.toNat / 2 ^ 24 = 0)) g (.mxclr d) ∧
      exec (.trel tile) s = .next (s.ranHeld f f (.trel tile.toNat))) ∧
    (s.Issues f false → exec (.tstat td tile) s = .next (s.ran (f.setT td ((s.core s.cur).tile tile.toNat).entry)))

/-- An engine job that passes its checks (R70 to R72, R259, R377): a RESERVED job with the next free id enters its queue, T[td]
takes the id, the firing records it, and the release of the job is held. One that fails its quota or a check writes the refusal word
and holds nothing. -/
def Obligations.EngineJobsAreReserved : Prop :=
  ∀ (s : State) (f : Firing) (td ta : Temp), s.Issues f true →
    let d := f.t ta
    let seq := nextJobSeq (s.liveSeqs s.cur) 17 (s.core s.cur).jobSeq
    let job := fun (i : Instr) (op : JobOp) (copy : Bool) (check : Option Nat) =>
      let q := if copy then copyQueueOf s.cur else .press (clusterOf s.cur)
      let id := mkJobId copy s.cur seq
      (s.quotaUsed q s.cur < 8 → check = none →
        ∃ t g, exec i s = .next t ∧ (t.core s.cur).firing = some g ∧
          g = { (f.setW td (BitVec.ofNat 64 id)).nextHeld with jobs := f.jobs ++ [id] } ∧
          (t.core s.cur).queue = (s.core s.cur).queue ++ [{ act := .job id, ctx := f.ctx, pc := f.pc, ended := false }] ∧
          (t.core s.cur).jobSeq = (seq + 1) % 4095 ∧
          t.jobsOf q = s.jobsOf q ++ [newJob id op f.ctx f.pc d (s.core s.cur).press.fmt s.cycle] ∧
          t.mem = s.mem ∧ t.net = s.net) ∧
      (8 ≤ s.quotaUsed q s.cur → exec i s = .next (s.ran (f.setW td 0xFFFF))) ∧
      (∀ code, s.quotaUsed q s.cur < 8 → check = some code →
        exec i s = .next (s.ran (f.setW td (BitVec.ofNat 64 (0xFFFF + code * 2 ^ 16)))))
    job (.mxldw td ta) .mxldw false (mxldwCheck f s d) ∧
    job (.mxstrm td ta) .mxstrm false (kstepCheck false f s d) ∧
    job (.mxgang td ta) .mxgang false (kstepCheck true f s d) ∧
    job (.mxrd td ta) .mxrd false (mxrdCheck f s d) ∧
    job (.mxscan td ta) .mxscan false (mxscanCheck f s d) ∧
    job (.cpy td ta) .cpy true (copyCheck .cpy f s d) ∧
    job (.cpym td ta) .cpym true (copyCheck .cpym f s d) ∧
    job (.cpyx td ta) .cpyx true (copyCheck .cpyx f s d) ∧
    job (.gath td ta) .gath true (copyCheck .gath f s d) ∧
    job (.turngo td ta) .turngo true (turngoCheck f s d)

/-- JSTAT and JCAN (R285, R286), INGS and INGQ (R287, R292): JSTAT of an id that names no job reads 0; JCAN is held; INGS that
passes its checks gives the die's next ticket and is held, and one that fails gives the refusal word; INGQ reads the counts. The
steward's commands (R227 to R233) are held where a steward core issues them, the descriptor commands with T[td] := 0; and CANCEL is
held on every core. -/
def Obligations.StatusAndCommandInstructions : Prop :=
  (∀ (s : State) (f : Firing) (td ta : Temp),
    let id := (f.w ta).toNat % 2 ^ 16
    let d := f.t ta
    let die := dieOf s.cur
    (s.Issues f false →
      exec (.jstat td ta) s = .next (s.ran (f.setW td (s.jstatWord s.cur id))) ∧
      (s.jobNamed s.cur id = none → s.jstatWord s.cur id = 0) ∧
      exec (.ingq td) s = .next (s.ran (f.setW td (s.core s.cur).ingqWord))) ∧
    (s.Issues f true →
      exec (.jcan ta) s = .next (s.ranHeld f f (.jcan id)) ∧
      (∀ code, ingsCheck s d = some code →
        exec (.ings td ta) s = .next (s.ran (f.setW td (BitVec.ofNat 64 (0xFFFF + code * 2 ^ 16))))) ∧
      (ingsCheck s d = none →
        let ticket := die * 2 ^ 14 + (s.die die).ticket
        exec (.ings td ta) s =
          .next ((s.modDie die (fun k => { k with ticket := (k.ticket + 1) % 16383 })).ranHeld f
            (f.setW td (BitVec.ofNat 64 ticket)) (.ings ticket d))))) ∧
  (∀ (s : State) (f : Firing) (td ta : Temp), s.Issues f true →
    (isSteward s.cur = true →
      exec .rplay s = .next (s.ranHeld f f .rplay) ∧
      exec (.tlbinv ta) s = .next (s.ranHeld f f (.tlbinv (f.w ta))) ∧
      exec (.codeseal td ta) s = .next (s.ranHeld f (f.setW td 0) (.codeseal (f.t ta))) ∧
      exec (.place td ta) s = .next (s.ranHeld f (f.setW td 0) (.place (f.t ta))) ∧
      exec (.cfgld td ta) s = .next (s.ranHeld f (f.setW td 0) (.cfgld (f.t ta)))) ∧
    exec (.cancel ta) s = .next (s.ranHeld f f (.cancel ((f.w ta).toNat % 2 ^ 16))))

/-! ## Events: the dispatcher, the queue of held actions, tokens, generators -/

/-- DISPATCH and DEBUG_STEP (R45, R64, R66, R67, R407, R408): the core starts the eligible ready entry of the highest priority, the
first in push order among equals; its firing begins at the entry with an empty flag set, and the nodes are tested. DISPATCH does so
only while the debugger does not stop the core, DEBUG_STEP only while it does; a core that runs a firing, has halted, is BLOCKED
(R383) or is retired (R364) starts none. -/
def Obligations.DispatchStartsTheBestReadyEntry : Prop :=
  ∀ (s : State) (core n : Nat) (r : Ready),
    let c := s.core core
    let x := c.ctxOf core r
    let started := (({ s with fresh := s.fresh + 8 }.modCore core (fun k =>
        { (k.useDesc x.vnode) with ready := c.ready.eraseIdx n, firing := some (newFiring x r.entry s.fresh) })).modFrame core
          r.frame (fun f => { f with progress := s.cycle, reported := false })).evalCore core
    (s.mayDispatch core = true → c.ready[n]? = some r → c.eligibleEntry core r = true →
      (∀ (m : Nat) (q : Ready), c.ready[m]? = some q → c.eligibleEntry core q = true →
        q.prio < r.prio ∨ (q.prio = r.prio ∧ n ≤ m)) →
      (c.dbgStop = false → exec (.dispatch core) s = .next started ∧ exec (.debugStep core) s = .next s) ∧
      (c.dbgStop = true → exec (.dispatch core) s = .next s ∧ exec (.debugStep core) s = .next started)) ∧
    (c.firing ≠ none ∨ c.halted = true ∨ c.cfg = .blocked ∨ s.coreRetired core = true →
      exec (.dispatch core) s = .next s ∧ exec (.debugStep core) s = .next s) ∧
    (newFiring x r.entry s.fresh).pc = r.entry ∧ (newFiring x r.entry s.fresh).flags = 0 ∧
    (newFiring x r.entry s.fresh).issued = 0 ∧ x.frame = r.frame ∧ x.gen = (c.frame r.frame).gen ∧
    x.launch = (c.frame r.frame).launch ∧ x.parent = (c.frame r.frame).parent ∧ x.iter = (c.frame r.frame).iter

/-- AGEING (R66, R74), DEBUG_STOP and DEBUG_RESUME (R407, R410), CONTINUATION_PUSH (R68) and DESCRIPTOR_FETCH_COMPLETE (R63, R64): a
ready entry older than 4096 cycles at its level moves to the tail of the next, and a QUEUED job rises one level and keeps its place
in the order of queueing; a waiting CONT within its limits pushes its continuation; a descriptor fetched from the cluster's cache,
or else from the descriptor area (its layout, and the table read where its pages are not there: log 25), enters the store, whose
least recently dispatched descriptor without work makes room, and the cluster's cache of 1,024 (R5; the one that entered first
leaves a full cache, log 71), and the nodes are tested. -/
def Obligations.SchedulerEventsHappen : Prop :=
  ∀ (s : State) (core n id : Nat) (r : Ready) (d : Rec),
    let c := s.core core
    let cl := clusterOf core
    let aged := fun (l : List Job) => l.map (fun (q : Job) =>
      if q.id = id ∧ q.state = .queued ∧ q.prio < 3 ∧ 4096 < s.cycle - q.since then { q with prio := q.prio + 1, since := s.cycle } else q)
    (c.ready[n]? = some r → r.prio < 3 → 4096 < s.cycle - r.since →
      exec (.ageing (.ready core n)) s =
        .next (s.setCore core { c with ready := c.ready.eraseIdx n ++ [{ r with prio := r.prio + 1, since := s.cycle }] })) ∧
    (exec (.ageing (.job (.copy cl) id)) s = .next (s.modCluster cl (fun k => { k with copyQ := aged k.copyQ })) ∧
      exec (.ageing (.job (.press cl) id)) s = .next (s.modCluster cl (fun k => { k with pressQ := aged k.pressQ })) ∧
      exec (.ageing (.job (.steward n) id)) s = .next (s.modDie n (fun k => { k with copyQ := aged k.copyQ }))) ∧
    exec (.debugStop core) s = .next (s.setCore core { c with dbgStop := true }) ∧
    (c.dbgStop = true →
      exec (.debugResume core) s = .next (s.setCore core { c with dbgStop := false, ready := c.ready.map (s.reread core) })) ∧
    ((c.frame n).contwait = true → (c.frame n).state = .local → c.ready.length < 64 →
      (c.frame n).nld ≤ (c.frame n).limits.ld → (c.frame n).npst ≤ (c.frame n).limits.st →
      (c.frame n).ncpy ≤ (c.frame n).limits.cp → (c.frame n).ntile ≤ (c.frame n).limits.tl →
      let w := s.fword core n (c.frame n).contslot
      ∃ t, exec (.continuationPush core n) s = .next t ∧
        (t.core core).ready = c.ready ++ [{ newReady n (slotEntry w) (slotPrio w) (c.frame n).contslot true with since := s.cycle }] ∧
        ((t.core core).frame n).contwait = false ∧ t.mem = s.mem) ∧
    (∀ store : List (Nat × Rec), c.fetching.contains n = true →
      ((c.descs.length < 64 ∧ store = c.descs) ∨
        (64 ≤ c.descs.length ∧ ∃ e, c.descs.find? (fun e => c.evictable e.1) = some e ∧ store = c.descs.filter (fun x => x.1 != e.1))) →
      ∀ u : State, ((tabFind (s.cluster cl).dcache n = some d ∧ u = s) ∨ (tabFind (s.cluster cl).dcache n = none ∧
        ((∃ bs, s.readVirt (dieOf core) c.asid (c.areaVa n) 32 = some bs ∧ d = BitVec.ofNat 256 (leNat bs) ∧
            u = s.touchVirt (dieOf core) c.asid (c.areaVa n) 32) ∨
          (s.readVirt (dieOf core) c.asid (c.areaVa n) 32 = none ∧ tabFind c.dareaTab n = some d ∧ u = s)))) →
      let c1 : CoreSt := { c with descs := store.filter (fun e => e.1 != n) ++ [(n, d)], fetching := c.fetching.filter (fun x => x != n) }
      let cached := fun (l : Tab Rec) => (if l.length < 1024 then l else l.drop 1) ++ [(n, d)]
      exec (.descriptorFetchComplete core n) s = .next (((u.setCore core c1).modCluster cl
        (fun k => { k with dcache := cached (k.dcache.filter (fun e => e.1 != n)) })).evalCore core)) ∧
    (c.fetching.contains n = true → 64 ≤ c.descs.length → c.descs.find? (fun e => c.evictable e.1) = none →
      exec (.descriptorFetchComplete core n) s = .next s)

/-- COMMIT_QUEUE_RELEASE (R47, R49, R51, R130, R131, R133, R135, R229): the head of the queue leaves once its firing has ended (or
the core is a steward's) and the acknowledgements of a TLBINV and a PKG or SYS atomic are in. An atomic, send or PUBL that is a
release at CLUS, DIE, PKG or SYS scope, and an INGS, HPPUT or REDPUT, which are releases at SYS scope, wait for the counts of that
scope; beyond CORE scope a release also waits for stores into the own SRAM (log 70). A FENCE mark leaves without effect when its
condition holds. What leaves takes its effect in the same step; an action that its effect has to wait for stays at the head. -/
def Obligations.CommitQueueReleasesItsHead : Prop :=
  ∀ (s : State) (core : Nat) (h : Held) (t : List Held),
    let c := s.core core
    c.queue = h :: t → h.ctx.core = core →
    let popped := s.setCore core { c with queue := t }
    let free := (h.ended = true ∨ isSteward core = true) ∧ c.tlbWait = [] ∧ c.atomWait = none
    let u := c.unack
    let counted := fun (sc : Scope) => (sc = .clus ∧ u.clus ≠ 0) ∨ (sc = .die ∧ u.die ≠ 0) ∨ (sc = .pkg ∧ (u.pkg ≠ 0 ∨ u.load ≠ 0)) ∨
      (sc = .sys ∧ (u.sys ≠ 0 ∨ u.load ≠ 0))
    let may := fun (sc : Scope) => ¬counted sc ∧ (sc = .core ∨ s.ownStoreOut core = false)
    let stays := exec (.commitQueueRelease core) s = .next s
    let me := mkHandle core h.ctx.frame h.ctx.gen
    ((h.ended = false → isSteward core = false → stays) ∧ (c.atomWait.isSome = true → stays) ∧ (c.tlbWait ≠ [] → stays)) ∧
    ((∀ rel dest slot k am pl dt sd, h.act = .send (some rel) dest slot k am pl dt sd → counted (SendScope.scope rel) → stays) ∧
      (∀ op x y sc va sz dt sd k sl, h.act = .access (.atomic op x y sc) va sz dt sd k sl → counted sc → stays) ∧
      (∀ sc op, h.act = .publ sc op → counted sc → stays) ∧
      (∀ d, h.act = .hpput d ∨ h.act = .redput d ∨ (∃ tag, h.act = .ings tag d) → counted .sys → stays)) ∧
    (free →
      (∀ kind sc, h.act = .fence kind sc → u.fenceOk kind sc = true → kind = .acq ∨ sc = .core ∨ s.ownStoreOut core = false →
        exec (.commitQueueRelease core) s = .next popped) ∧
      (∀ dest slot k am pl dt sd, dest.getLsbD 0 = true → h.act = .send none dest slot k am pl dt sd ∨
          (∃ rel, h.act = .send (some rel) dest slot k am pl dt sd ∧ may (SendScope.scope rel)) →
        exec (.commitQueueRelease core) s = .next (popped.sendTok core (.core (handleCore dest))
          (.frame (.handle dest) slot k am pl dt sd me false))) ∧
      (∀ b, h.act = .ffree b → handleCore b = core → ((s.core core).frame (handleFrame b)).gen = handleGen b →
        exec (.commitQueueRelease core) s = .next (popped.freeFrame core (handleFrame b))) ∧
      (∀ port, h.act = .chPop port → exec (.commitQueueRelease core) s = .next (popped.releasePop h.ctx port)) ∧
      (∀ g, h.act = .lgstop g → exec (.commitQueueRelease core) s = .next (popped.modGen core g (fun e =>
        if e.state = .idle then e else { e with stop := true }))) ∧
      (∀ d, h.act = .place d → exec (.commitQueueRelease core) s = .next (popped.sendCmd core (d.toNat % 2 ^ 13) (.place d))) ∧
      (∀ op, h.act = .tlbinv op →
        exec (.commitQueueRelease core) s = .next (popped.modCore core (fun k => { k with tlbWait := [0, 1, 2, 3], tlbOp := op }))) ∧
      (h.act = .roinv → isSteward core = false →
        exec (.commitQueueRelease core) s = .next (popped.modCluster (clusterOf core) (fun k =>
          { k with rocache := [], roEpoch := k.roEpoch + 1 }))) ∧
      (h.act = .endMark → exec (.commitQueueRelease core) s = .next (popped.releaseEnd h.ctx)) ∧
      (s.orderedOut h = true → ∀ e, popped.releaseAct h = some e → exec (.commitQueueRelease core) s = .next e) ∧
      (popped.releaseAct h = none → stays))

/-- LGEN_ARRIVAL, GENERATOR_EMIT (R52, R53, R81, R224): a generator is armed where its node is a GEN node and it is IDLE, else the
command is refused with ILLEGAL 0x0C; an armed one takes bounds from its descriptor or a token, emits one index vector on every
output port with a credit, and ends its nest with END markers. -/
def Obligations.GeneratorsRunTheirNests : Prop :=
  ∀ (s : State) (core n k : Nat) (p : Packet) (d : Vec) (x : Ctx) (pc : Nat),
    let c := s.core core
    let g := c.gen n
    let outs := outPorts (c.nodeDesc g.vnode)
    (s.recv k = some p → p.msg = .lgen d x pc → p.dst = .core core →
      let v := fieldN d 16 20
      let m := fieldN d 36 2
      (ndKind (c.nodeDesc v) = 1 → (c.gen m).state = .idle →
        exec (.lgenArrival k) s = .next (((s.dropPkt k).modGen core m (fun _ => armGen d)).modCore core (fun q => q.want v))) ∧
      (ndKind (c.nodeDesc v) ≠ 1 ∨ (c.gen m).state ≠ .idle →
        exec (.lgenArrival k) s = .next ((s.dropPkt k).refuseAct x pc 0x05 0x0C none))) ∧
    (c.resident g.vnode = true → g.parked = false →
      (g.marked = true → c.canSend g.vnode outs 1 = true →
        exec (.generatorEmit core n) s = .next ((s.modGen core n (fun q => { q with marked := false, parked := true })).genSend core
          g.vnode (c.marker g.vnode .checkpoint))) ∧
      (g.marked = false → g.state ≠ .idle → g.done = true ∨ g.stop = true → c.canSend g.vnode outs 1 = true →
        exec (.generatorEmit core n) s = .next ((s.modGen core n (fun q => { Gen.zero with vnode := q.vnode })).genSend core
          g.vnode (c.marker g.vnode .endm))) ∧
      (g.marked = false → g.state ≠ .idle → g.done = false → g.stop = false → g.need = [] → c.canSend g.vnode outs 1 = true →
        exec (.generatorEmit core n) s = .next ((s.modGen core n (fun q => (q.next 4 0).settleState)).genSend core g.vnode
          { kind := .data, side := 0, colour := c.nodeColour g.vnode, vec := false, data := BitVec.ofNat 512 g.word })) ∧
      (∀ l t, g.marked = false → g.state ≠ .idle → g.done = false → g.stop = false → g.need = l :: t → g.fromToken l = false →
        exec (.generatorEmit core n) s = .next (s.modGen core n (fun q => (q.begin l (tabGet 0 g.dbound l) t).settleState))) ∧
      (∀ l t tok, g.marked = false → g.state ≠ .idle → g.done = false → g.stop = false → g.need = l :: t →
        g.fromToken l = true → c.headOf g.vnode l = some tok → tok.kind = .data →
        exec (.generatorEmit core n) s = .next ((s.consume core g.vnode l 1).modGen core n (fun q =>
          (q.begin l (fieldN tok.data 0 16) t).settleState))))

/-- RECONFIG_RELOCATION (R80), CHECKPOINT_PASS (R82), CHECKPOINT_INJECTION (R81), DRAIN_TIMEOUT (R405) and VOTE_DECISION (R430). A
channel whose pool has no room for its new depth waits with rcfg; a node that is quiet at its CHECKPOINTs consumes and passes them;
an injection takes a RUNNING graph to MARKING (R85), and one that is not drained 2^26 cycles later is recorded and contained; two
agreeing copies decide the token. -/
def Obligations.MarkersMoveThroughTheGraph : Prop :=
  ∀ (s : State) (core i v asid : Nat),
    let c := s.core core
    let d := c.nodeDesc v
    (∀ t l, (c.chan i).toks = t :: l → t.kind = .reconfig → (c.chan i).en = true →
      c.poolUnits < (c.otherRuns i).foldl (fun n r => n + r.2) 0 + fieldN t.data 0 14 →
      exec (.reconfigRelocation core i) s = .next (s.setCore core { c with chans := tabSet c.chans i { c.chan i with rcfg := true } })) ∧
    (∀ t l, (c.chan i).toks = t :: l → t.kind = .reconfig → (c.chan i).en = true →
      (c.otherRuns i).foldl (fun n r => n + r.2) 0 + fieldN t.data 0 14 ≤ c.poolUnits →
      ∃ u : State, exec (.reconfigRelocation core i) s = .next (u.evalCore core) ∧ ((u.core core).chan i).depth = fieldN t.data 0 14 ∧
        ((u.core core).chan i).rcfg = false ∧ ((u.core core).chan i).toks = l ∧ u.mem = s.mem) ∧
    (c.resident v = true → ndKind d ≠ 1 → c.atCheckpoint v = true → s.nodeQuiet core v = true →
      c.canSend v (outPorts d) 1 = true →
      exec (.checkpointPass core v) s = .next (((((markedPorts v d).foldl (fun t p => t.consume core v p 1) s).sendMarkers core v
        .checkpoint (outPorts d)).modCore core (fun q => { q with ckpt := tabDel q.ckpt v })).evalCore core)) ∧
    (c.atCheckpoint v = false ∨ s.nodeQuiet core v = false → exec (.checkpointPass core v) s = .next s) ∧
    (∀ e l, s.cores.filter (fun e => e.2.cfg == .loaded && e.2.asid == asid && !isSteward e.1) = e :: l →
      s.drains.any (fun q => q.asid == asid) = false →
      exec (.checkpointInjection asid) s = .next ((e :: l).foldl (fun t q => t.injectCore q.1)
        { s with drains := s.drains ++ [{ asid := asid, gwork := e.2.gwork, phase := .marking, since := s.cycle, sinks := [] }] })) ∧
    (s.drains.any (fun q => q.asid == asid) = true → exec (.checkpointInjection asid) s = .next s) ∧
    (∀ q, s.drains.find? (fun q => q.asid == asid) = some q → q.phase ≠ .marking ∨ s.cycle < q.since + 2 ^ 26 →
      exec (.drainTimeout asid) s = .next s) ∧
    (∀ q, s.drains.find? (fun q => q.asid == asid) = some q → q.phase = .marking → q.since + 2 ^ 26 ≤ s.cycle →
      exec (.drainTimeout asid) s = .next (({ s with drains := s.drains.filter (fun e => e.asid != asid) }.logErr
        (unitErr 0x0E 0x01 2 (stewardOf (q.gwork / 2 ^ 14 % 4)) 9 0 asid)).cancelLevel (q.gwork / 2 ^ 14 % 4) (q.gwork % 256) true)) ∧
    (∀ x y, ndKind d = 3 → c.resident v = true → c.voteBuf v = [] → c.headOf v 0 = some x → c.headOf v 1 = some y →
      x.kind ≠ .reconfig → x.kind = y.kind → x.data = y.data → c.canSend v (outPorts d) x.cost = true →
      ∃ t, exec (.voteDecision core v) s = .next t ∧
        let u := ((s.consume core v 0 1).consume core v 1 1).modCore core (fun (k : CoreSt) =>
          { k with votes := tabSet k.votes v (k.voteBuf v ++ [(2, x)]) })
        let sent := u.voteSend core v { x with side := x.side ||| y.side, colour := c.nodeColour v }
        t = sent ∨ ∃ j, t = sent.modFrame core j (fun f => { f with progress := s.cycle, reported := false }))

/-! ## Events: tokens, slots, work, requests -/

/-- Slot words (R34, R35): an updated COUNT slot that is valid and armed at count 0 pushes its ready entry in the same step and
takes its reload mode: disarmed, its count set again from the bind field, or no longer valid; any other update writes the word and
pushes nothing. While the ready queue is full (R49) or the frame's node stands at a checkpoint (R82), the word is written, nothing
is pushed and the slot's test waits (log 40). Here for a LOCAL frame within local SRAM. -/
def Obligations.SlotWordsFireAtZero : Prop :=
  ∀ (s : State) (core i j : Nat) (w : Word),
    s.Wf → ((s.core core).frame i).state = .local → core < 8192 →
    256 * ((s.core core).frame i).poolofs + 8 * j + 8 ≤ sramSize →
    let t := s.updateSlot core i j w
    let fires := fieldN w 26 2 = 0 ∧ w.getLsbD 25 = true ∧ w.getLsbD 24 = true ∧ fieldN w 0 24 = 0
    let e : Ready := { newReady i (fieldN w 32 14) (fieldN w 28 2) j false with since := s.cycle }
    (fires → (s.core core).ready.length < 64 → (s.core core).frameParked i = false → (t.core core).ready = (s.core core).ready ++ [e] ∧
      (fieldN w 30 2 = 1 → t.fword core i j = setFieldN w 0 24 (fieldN w 48 16)) ∧
      (fieldN w 30 2 = 2 → t.fword core i j = setFieldN w 25 1 0) ∧
      (fieldN w 30 2 = 0 → t.fword core i j = setFieldN w 24 1 0)) ∧
    (fires → 64 ≤ (s.core core).ready.length ∨ (s.core core).frameParked i = true →
      (t.core core).ready = (s.core core).ready ∧ t.fword core i j = w) ∧
    (¬fires → (t.core core).ready = (s.core core).ready ∧ t.fword core i j = w)

/-- FRAME_TOKEN_ARRIVAL (R33, R35, R40, R49, R82, R219, R376): a token for a LOCAL frame writes its payload and then lowers the
COUNT slot by its amount, in one step; it waits while the ready queue is full, and while the frame's node stands at a checkpoint if
it would make a slot fire; one for an armed HANDLER slot is progress of its frame (R431) and makes a handler frame; one that finds
no frame of its colour is discarded, and one for a node that has no node frame here is dropped with an ILLEGAL 0x0D record that
names the node (R58, log 67); one beyond the frame's slots or words is discarded with an ILLEGAL 0x0D record of the core. -/
def Obligations.FrameTokensArrive : Prop :=
  ∀ (s : State) (k core i slot fw amount payload : Nat) (p : Packet) (dest : FrameDest) (data : Vec) (side : Byte)
    (sender : Handle) (lost : Bool),
    s.recv k = some p → p.dst = .core core → p.msg = .frame dest slot fw amount payload data side sender lost →
    s.coreClosed core = false → s.foreign p core = false →
    let c := s.core core
    let f := c.frame i
    let d := s.dropPkt k
    let record := d.logErr (unitErr 0x05 0x0D 5 core (if isSteward core then 9 else 0)
      (if isSteward core then 0 else coreInCluster core) (s.tenantOf core))
    (s.frameOf core dest = none → lost = false →
      (∀ h, dest = .handle h → exec (.frameTokenArrival k) s = .next d) ∧
      (∀ v, dest = .node v → exec (.frameTokenArrival k) s =
        .next (d.logErr { coreErr 0x05 0x0D 5 core (s.tenantOf core) with vnode := v }))) ∧
    (s.frameOf core dest = some i → f.state = .local →
      (64 ≤ c.ready.length ∨ s.slotWaits core i slot amount = true → exec (.frameTokenArrival k) s = .next s) ∧
      (c.ready.length < 64 → s.slotWaits core i slot amount = false →
        (f.nslot ≤ slot → exec (.frameTokenArrival k) s = .next record) ∧
        (slot < f.nslot → slotKind (s.fword core i slot) = 3 → slotValid (s.fword core i slot) = true →
          slotArmed (s.fword core i slot) = true → c.frameParked i = false →
          exec (.frameTokenArrival k) s = .next ((d.modFrame core i (fun g => { g with progress := s.cycle, reported := false })).handlerArrival
            core i slot fw data payload side sender)) ∧
        (slot < f.nslot → slotKind (s.fword core i slot) ≠ 3 →
          (payload ≠ 0 → f.words < fw + payload / 8 → exec (.frameTokenArrival k) s = .next record) ∧
          (payload = 0 ∨ fw + payload / 8 ≤ f.words →
            let u := (d.setFwords core i fw side (payloadWords data payload)).modFrame core i
              (fun g => { g with progress := s.cycle, reported := false })
            let w := u.fword core i slot
            (slotKind w = 0 → exec (.frameTokenArrival k) s =
              .next (u.updateSlot core i slot (withCount w (slotCount w - BitVec.ofNat 24 amount)))) ∧
            (slotKind w ≠ 0 → exec (.frameTokenArrival k) s = .next u)))))

/-- CHANNEL_TOKEN_ARRIVAL (R42, R63, R384) and CREDIT_RETURN (R42): a token enters its channel, its node's descriptor is fetched and
the nodes are tested; one for a port that no channel of the core serves is dropped with a record (R58, log 67), one for a BLOCKED or
retired core is dropped (R384, R364), each with a refusal that restores its credit; units returned rejoin the output port. -/
def Obligations.ChannelTokensAndCreditsArrive : Prop :=
  ∀ (s : State) (k core v port : Nat) (p : Packet) (tok : Token) (units : Int),
    s.recv k = some p → p.dst = .core core →
    let c := s.core core
    let d := s.dropPkt k
    let r : Packet := { src := .core core, dst := p.src, cls := .token, tenant := p.tenant, msg := .refuseTok v port tok.cost, held := false }
    (p.msg = .chan v port tok → s.coreClosed core = false → s.foreign p core = false →
      (∀ i, c.chanOf v port = some i → exec (.channelTokenArrival k) s = .next
        (((d.modChan core i (fun ch => ch.push tok s.cycle)).modCore core (fun q => q.want v)).evalCore core)) ∧
      (c.chanOf v port = none → exec (.channelTokenArrival k) s = .next
        ((d.logErr { coreErr 0x05 0x0D 5 core (s.tenantOf core) with vnode := v }).send r))) ∧
    (p.msg = .chan v port tok → s.coreClosed core = true →
      ∃ t, exec (.channelTokenArrival k) s = .next t ∧ (t.core core).chans = c.chans ∧ (t.core core).dropped = true ∧
        (s.rerouting = [] → t.net.getLast? = some r)) ∧
    (p.msg = .credit v port units →
      (∀ key, c.creditKey v port = some key → exec (.creditReturn k) s = .next
        ((d.modCore core (fun q => { q with credits := tabSet q.credits key (tabGet 0 q.credits key + units) })).evalCore core)) ∧
      (c.creditKey v port = none → exec (.creditReturn k) s = .next d)) ∧
    (p.msg = .refuseTok v port units → exec (.refusalAcknowledgement k) s = .next (d.takeCredit core v port units))

/-- KERF_GUARD_DROP (R418, R420), NO_ROUTE_DROP (R415) and HELD_PACKET_RELEASE (R416): a packet that a kerf guard stops leaves the
network with the guard's note; one without a route is dropped and recorded once for its source; held packets of a pair go on once
the pair has no redirected packet in the network. SPILL_RING_APPEND (R86, R405): a foreign token of a tenant that is not parked is
dropped and recorded; one of a parked tenant whose ring has room is written behind the others, and waits while a page of the save
area or ring refuses it (log 80). -/
def Obligations.PacketsAreDroppedOrReleased : Prop :=
  ∀ (s : State) (k core : Nat) (p : Packet),
    s.pkt k = some p →
    (∀ link, s.kerfExit p = some link → p.held = false → s.firstOfFlow k p = true →
      exec (.kerfGuardDrop k) s = .next (((s.dropPkt k).kerfDrop link (kerfClass p.cls) (agentCore p.src) (agentCore p.dst)
        p.tenant).refusePacket p)) ∧
    (p.held = false → s.noRoute p = true → s.kerfBlocked p = false → s.firstOfFlow k p = true → s.noRoutes.contains p.src = true →
      exec (.noRouteDrop k) s = .next ((s.dropPkt k).refusePacket p)) ∧
    (p.held = false → s.noRoute p = true → s.kerfBlocked p = false → s.firstOfFlow k p = true → s.noRoutes.contains p.src = false →
      ∃ (u : State) (a : Nat), exec (.noRouteDrop k) s = .next ((u.logErr (unitErr 0x0F 0x05 4 a 4 0 p.tenant)).refusePacket p) ∧
        u.net = s.net.eraseIdx k ∧ u.noRoutes = s.noRoutes ++ [p.src] ∧ u.mem = s.mem) ∧
    (p.held = true → s.net.any (fun q => q.sameFlow p && !q.held) = false →
      ∃ t, exec (.heldPacketRelease k) s = .next t ∧
        t.net = s.net.map (fun q => if q.sameFlow p then { q with held := false } else q) ∧
        (p.src, p.dst, p.cls) ∉ t.rerouting ∧ t.mem = s.mem ∧ t.cores = s.cores) ∧
    (p.held = true → s.net.any (fun q => q.sameFlow p && !q.held) = true → exec (.heldPacketRelease k) s = .next s) ∧
    (s.recv k = some p → p.dst = .core core → isToken p.msg = true → s.foreign p core = true →
      (s.die (dieOf core)).parked p.tenant = none →
      exec (.spillRingAppend k) s = .next (((s.dropPkt k).refuseToken (.router (clusterOf core)) p).logErr
        (unitErr 0x0E 0x06 5 (coreAt (clusterOf core) 0) 4 0 p.tenant))) ∧
    (∀ a hdr, s.recv k = some p → p.dst = .core core → isToken p.msg = true → s.foreign p core = true →
      (s.die (dieOf core)).parked p.tenant = some a →
      let va : Word := BitVec.ofNat 64 a
      let ok := fun (read : Bool) (v : Word) (n : Nat) => s.rangeOk (dieOf core) p.tenant { read := read, write := true } v n
      (ok true va 64 = false → exec (.spillRingAppend k) s = .next s) ∧
      (ok true va 64 = true → s.readVirt (dieOf core) p.tenant va 64 = some hdr →
        let h : Vec := BitVec.ofNat 512 (leNat hdr)
        let size := 2 ^ fieldN h 112 5
        let tail := fieldN h 160 32
        let entry : Word := BitVec.ofNat 64 (fieldN h 64 48 + 80 * (tail % size))
        (tail + 2 ^ 32 - fieldN h 128 32) % 2 ^ 32 ≠ size →
        (ok false entry 80 = false → exec (.spillRingAppend k) s = .next s) ∧
        (ok false entry 80 = true → exec (.spillRingAppend k) s =
          .next ((((s.touchVirt (dieOf core) p.tenant va 64).dropPkt k).writeVirt (dieOf core) p.tenant entry (ringEntry p.msg)).writeVirt
            (dieOf core) p.tenant (va + 20) (leBytes 4 ((tail + 1) % 2 ^ 32))))))

/-- WORK_COUNTER_UPDATE (R56, R61, R448, R449): an OPEN entry of the same sequence takes the change; one that it does not bring to
zero stays OPEN. A launch or graph that it brings to zero is DONE, sends its completion token and lowers its parent's counter, a
launch without its status; a launch entry is FREE as the next step begins, its sequence kept, and a graph's stays DONE (log 77). A
job whose phase did not end with status 0 has its other phases cancelled; its DONE entry is freed by the steward's word (log 37).
Any other update changes nothing but the network. -/
def Obligations.WorkCountersComplete : Prop :=
  ∀ (s : State) (k die i seq status : Nat) (delta : Int) (p : Packet),
    s.recv k = some p → p.dst = .work die → p.msg = .work i seq delta status →
    let w := s.work die i
    let d := s.dropPkt k
    let st := max w.status status
    let u := d.setWork die i { w with counter := ((w.counter : Int) + delta).toNat, status := st }
    let zero := delta < 0 ∧ (w.counter : Int) + delta ≤ 0
    let parent := s.workId w.pdie w.pidx
    (w.level = 4 → w.state = .done → delta = 0 → w.seq = seq → exec (.workCounterUpdate k) s = .next (d.freeJob die i)) ∧
    (¬(w.level = 4 ∧ w.state = .done ∧ delta = 0) → w.state ≠ .opened → exec (.workCounterUpdate k) s = .next d) ∧
    (w.seq ≠ seq → exec (.workCounterUpdate k) s = .next d) ∧
    (w.state = .opened → w.seq = seq → w.level = 4 →
      let v := if delta < 0 ∧ status ≠ 0 then u.cancelPhases die i else u
      (¬zero → exec (.workCounterUpdate k) s = .next v) ∧ (zero → exec (.workCounterUpdate k) s = .next (v.finishWork die i st))) ∧
    (w.state = .opened → w.seq = seq → w.level ≠ 4 →
      (¬zero → exec (.workCounterUpdate k) s = .next u) ∧
      (zero → exec (.workCounterUpdate k) s = .next (u.finishWork die i st)) ∧
      (zero → w.level = 1 ∨ w.level = 2 →
        let token : Packet := { src := .work die, dst := .core (handleCore w.chandle), cls := .token, tenant := w.tenant,
                                msg := .frame (.handle w.chandle) w.cslot 0 1 0 (BitVec.ofNat 512 st) 0 0 false, held := false }
        let lowers : Packet := { src := .work die, dst := .work (parent / 2 ^ 14 % 4), cls := .token, tenant := 0, held := false,
                                 msg := .work (parent % 256) (parent / 256 % 64) (-1) (if w.level = 1 then 0 else st) }
        ∃ t, exec (.workCounterUpdate k) s = .next t ∧ (t.work die i).state = .done ∧ (t.work die i).counter = 0 ∧
          (t.work die i).status = st ∧ t.mem = s.mem ∧ t.cores = s.cores ∧
          (w.chandle ≠ 0 → s.rerouting = [] → token ∈ t.net) ∧
          ((s.workOf parent).level = w.level + 1 → s.rerouting = [] → lowers ∈ t.net) ∧
          (∀ dt, w.level = 1 → ((t.tick dt).work die i).state = .free ∧ ((t.tick dt).work die i).seq = w.seq) ∧
          (∀ dt, w.level = 2 → ((t.tick dt).work die i).state = .done)))

/-- LAUNCH_AT_TARGET (R226, R404), PURGE and PURGE_ACKNOWLEDGEMENT (R57), JOB_SUBMISSION (R337, R338, R434): a launch whose entry is
no longer open leaves nothing but the network; one waits while the ready queue is full (log 40), and a class smaller than its slot
count gives it no slot beyond its words (log 71); its last firing takes its frame, with the slots of the descriptor's form or the
words of its image, where the queue has room for the slots that fire at once, and the packet leaves; one that finds no frame entry
or no room is recorded (R404). A purge removes the core's frames of the level and is acknowledged; a cancelled level finishes once
nothing of it is left. A submission is REFUSED in minimal mode or when malformed, BUSY when its die's queue is full, and otherwise
queued; one that is first in its queue and finds its work table entries and keys is ACCEPTED with the id of its job's entry, its
entries are OPEN, and its first image is checked (log 37). -/
def Obligations.LaunchesPurgesAndSubmissionsAct : Prop :=
  ∀ (s : State) (k core die i src : Nat) (p : Packet) (d : Vec),
    (∀ id x made, s.recv k = some p → p.dst = .core core → p.msg = .launch id d x made →
      let w := s.work (id / 2 ^ 14 % 4) (id % 256)
      let nd := (s.core core).nodeDesc (fieldN d 0 20)
      let cls := if fieldN d 20 3 = 0 then ndClass nd else fieldN d 20 3 - 1
      let nslot := min (fieldN d 24 7) (32 * 2 ^ cls)
      let frame := s.allocFrame core cls nslot (fieldN d 0 20) id (mkHandle x.core x.frame x.gen) (iterVec d made) false
      let fails := fun (code : Nat) => (s.dropPkt k).logErr { unitErr 0x0D code 3 core 0 (coreInCluster core) (s.tenantOf core) with
        vnode := fieldN d 0 20, launch := id }
      (w.state ≠ .opened ∨ w.seq ≠ id / 256 % 64 → exec (.launchAtTarget k) s = .next (s.dropPkt k)) ∧
      (w.state = .opened → w.seq = id / 256 % 64 → s.coreClosed core = false →
        (64 ≤ (s.core core).ready.length → exec (.launchAtTarget k) s = .next s) ∧
        ((s.core core).ready.length < 64 → frame = .noEntry → exec (.launchAtTarget k) s = .next (fails 0x03)) ∧
        ((s.core core).ready.length < 64 → frame = .noRoom → exec (.launchAtTarget k) s = .next (fails 0x02)) ∧
        (∀ s1 n, (s.core core).ready.length < 64 → frame = .ok s1 n →
          let s2 := if bitN d 179 then s1.initSlots core n nslot (freshSlot nd) else s1.copyImage core n (fieldN d 160 19)
          (s.core core).ready.length + (s2.freshFires core n).length ≤ 64 →
          (made + 1 = launchCount d → exec (.launchAtTarget k) s = .next ((s2.fireFresh core n).dropPkt k)) ∧
          (made + 1 < launchCount d → exec (.launchAtTarget k) s =
            .next ((s2.fireFresh core n).setPkt k { p with msg := .launch id d x (made + 1) }))))) ∧
    (s.recv k = some p → p.dst = .core core → p.msg = .purge die i →
      let own := ((s.core core).frames.filter (fun e =>
        e.2.state != .free && (s.frameLevels core e.2).contains (die, i))).map (·.1)
      exec (.purge k) s = .next ((own.foldl (fun t n => t.purgeFrame core n) (s.dropPkt k)).send
        { src := .core core, dst := .work die, cls := .token, tenant := 0, msg := .purgeAck die i core, held := false })) ∧
    ((s.work die i).state ≠ .cancelling → exec (.purgeAcknowledgement die i) s = .next s) ∧
    ((s.work die i).state = .cancelling → (s.work die i).acks = [] → s.workBelow 3 die i = [] →
      s.net.any (isAck die i) = false →
      exec (.purgeAcknowledgement die i) s = .next (s.finishWork die i (s.work die i).status)) ∧
    (s.ports = [] → exec (.jobSubmission die ⟨src, d⟩) s = .next s) ∧
    (s.ports ≠ [] →
      let tag : Word := BitVec.ofNat 64 (fieldN d 64 64)
      let waiting := s.jobs.filter (fun j => j.1 == die)
      let phases := fieldN d 248 8
      (s.start.minimal = true ∨ submissionOk d = false →
        exec (.jobSubmission die ⟨src, d⟩) s = .next { s with outbox := s.outbox ++ [.reply src (replyBytes tag 2 0 0)] }) ∧
      (s.start.minimal = false → submissionOk d = true → 256 ≤ waiting.length →
        exec (.jobSubmission die ⟨src, d⟩) s = .next { s with outbox := s.outbox ++ [.reply src (replyBytes tag 1 0 0)] }) ∧
      (s.start.minimal = false → submissionOk d = true → waiting = [] → (s.freeEntries die (phases + 1)).length ≤ phases →
        exec (.jobSubmission die ⟨src, d⟩) s = .next { s with jobs := s.jobs ++ [(die, src, d)] }) ∧
      (∀ j ps, s.start.minimal = false → submissionOk d = true → waiting = [] → s.freeEntries die (phases + 1) = j :: ps →
        ps.length = phases → (s.freeKeys (fieldN d 240 8)).length = fieldN d 240 8 →
        ∃ u : State, exec (.jobSubmission die ⟨src, d⟩) s = .next (u.openImage die j) ∧ u.jobs = s.jobs ∧
          u.outbox = s.outbox ++ [.reply src (replyBytes tag 0 0 (u.workId die j))] ∧ u.mem = s.mem ∧
          (u.work die j).state = .opened ∧ (u.work die j).level = 4 ∧ (u.work die j).counter = phases ∧
          (u.work die j).image = fieldN d 128 64 ∧ (∀ q ∈ ps, (u.work die q).state = .opened ∧ (u.work die q).level = 3)))

/-! ## Events: memory homes, completions, translation, the spill engine -/

/-- HOME_ACCESS (R104, R107, R124, R128, R244 to R247, R391): a request in its turn leaves the network and is performed at its home,
which the line is brought to. A load's response carries the bytes and side-bands of HBM; a store writes exactly its bytes and is
acknowledged; an atomic returns the old value and writes the result; a request out of its turn waits, and one whose key does not fit
is refused with KEY. Here for HBM lines written under the key of the request, or never written, and requests of this device. The
results of the atomics (R245, R246): sums and logic modulo the width, signed minimum and maximum, exchange, and a compare and swap
that keeps the old value when it does not meet its operand. -/
def Obligations.HomesPerformRequests : Prop :=
  (∀ (s : State) (k : Nat) (p : Packet) (r : Req) (q : Nat),
    s.Wf → s.recv k = some p → p.msg = .access r → p.dst = .slice q → isHbm r.pa = true → r.dev = none →
    let d := s.dropPkt k
    let src := s.agentOf r.pa
    (s.orderOk r = false → exec (.homeAccess k) s = .next s) ∧
    (∀ code, s.orderOk r = true → s.keyBad (isSteward r.ctx.core) r.asid r.key = some code →
      exec (.homeAccess k) s = .next (d.sendResp src r (.refuse r 0x07 code))) ∧
    (s.orderOk r = true → s.keyBad (isSteward r.ctx.core) r.asid r.key = none → r.pa % 128 + r.size ≤ 128 → 0 < r.size →
      (∀ n, s.lineKeyNo (r.pa / 128) = some n → n = s.keyNumber r.key) → s.syncRefused r = false →
      let old := leNat (memBytes s.mem r.pa r.size)
      (r.kind = .lds → exec (.homeAccess k) s = .next
        ({ d.touchLines r.key r.pa r.size false with fresh := s.fresh + r.size / 8 + 2 }.sendResp src r
          (.loadResp r (memBytes s.mem r.pa r.size) (s.sidesFor r.pa r.size)))) ∧
      (r.kind = .st ∨ r.kind = .pst ∨ r.kind = .stt → r.size ≤ 64 →
        ∃ t : State, exec (.homeAccess k) s = .next (t.sendResp src r (.ack r)) ∧
          memBytes t.mem r.pa r.size = leBytes r.size r.data.toNat ∧
          (∀ a, a < r.pa ∨ r.pa + r.size ≤ a → memByte t.mem a = memByte s.mem a) ∧ t.net = d.net ∧ t.cores = s.cores) ∧
      (∀ op x y sc, r.kind = .atomic op x y sc → (r.size = 4 ∨ r.size = 8) →
        let res := atomResult op (8 * r.size) old x.toNat y.toNat
        ∃ (t : State) (was : Byte), exec (.homeAccess k) s = .next (t.sendResp src r (.atomResp r (BitVec.ofNat 64 old) (was ||| res.2))) ∧
          ((op ≠ 8 ∨ old = x.toNat) → leNat (memBytes t.mem r.pa r.size) = res.1 % 2 ^ (8 * r.size)) ∧
          (op = 8 → old ≠ x.toNat → t.mem = s.mem) ∧
          (∀ a, a < r.pa ∨ r.pa + r.size ≤ a → memByte t.mem a = memByte s.mem a) ∧ t.net = d.net))) ∧
  (∀ (w old x y : Nat), w = 32 ∨ w = 64 → old < 2 ^ w → x < 2 ^ w →
    atomResult 0 w old x y = ((old + x) % 2 ^ w, 0) ∧ atomResult 1 w old x y = (old &&& x, 0) ∧
    atomResult 2 w old x y = (old ||| x, 0) ∧ atomResult 3 w old x y = (old ^^^ x, 0) ∧
    (atomResult 4 w old x y = (old, 0) ↔ (BitVec.ofNat w old).toInt ≤ (BitVec.ofNat w x).toInt) ∧
    (atomResult 5 w old x y = (x, 0) ↔ (BitVec.ofNat w old).toInt ≤ (BitVec.ofNat w x).toInt) ∧
    (atomResult 4 w old x y = (old, 0) ∨ atomResult 4 w old x y = (x, 0)) ∧
    (atomResult 5 w old x y = (old, 0) ∨ atomResult 5 w old x y = (x, 0)) ∧
    atomResult 6 w old x y = (x, 0) ∧ atomResult 8 w x x y = (y, 0) ∧ (old ≠ x → atomResult 8 w old x y = (old, 0)))

/-- LOAD_COMPLETION, ATOMIC_COMPLETION, STORE_ACKNOWLEDGEMENT, REFUSAL_ACKNOWLEDGEMENT, HOST_RESPONSE (R126, R129, R239 to R246,
R334, R335, R370, R392): a response waits while its frame cannot take it; a load's goes to its part, an LDRO's from its place in the
line, which a clean one brings into the read-only cache; an acknowledgement lowers the counts of its scopes; a refused store lowers
them too; a refused load or atomic completes with zeros and NV, with one record for all its parts; the host performs the first
operation of a queue pair, as an RDMA READ or WRITE at the address and with the remote key of the region's entry. The counts of
UNACK (R129, R239, R241, R245): an acknowledged store lowers by one each field of its scopes that is not zero and no other, an STT
also those of its flag-map store while that is in translation with it (log 49), and a PST also its frame's count; the last part of a
load lowers LOAD, and so does an atomic, with the fields of its store part. -/
def Obligations.ResponsesCompleteRequests : Prop :=
  (∀ (s : State) (k : Nat) (p : Packet) (r : Req) (bytes sides data : List Byte) (old : Word) (side : Byte) (cls code : Nat),
    let d := s.dropPkt k
    let told := (s.core r.ctx.core).pend.any (fun q => q.id == r.id && q.failed)
    let e := if told then d else d.recordRefusal r cls code
    (s.recv k = some p →
      (p.msg = .loadResp r bytes sides → s.canComplete r.ctx = false → exec (.loadCompletion k) s = .next s) ∧
      (p.msg = .loadResp r bytes sides → s.canComplete r.ctx = true →
        let filled := d.modCluster (clusterOf r.ctx.core) (fun c =>
          if r.fill = 0 ∨ sides.any (fun b => b != 0) = true then c else c.install r.fill r.pa bytes)
        (r.kind ≠ .ldro → exec (.loadCompletion k) s = .next (filled.partDone r bytes sides false)) ∧
        (r.kind = .ldro → exec (.loadCompletion k) s = .next (filled.partDone r ((bytes.drop (r.pa % 128)).take r.size)
          ((sides.drop (r.pa % 128 / 8)).take (max 1 (r.size / 8))) false))) ∧
      (p.msg = .atomResp r old side → s.canComplete r.ctx = false → exec (.atomicCompletion k) s = .next s) ∧
      (p.msg = .atomResp r old side → s.canComplete r.ctx = true →
        exec (.atomicCompletion k) s = .next (d.atomicDone r old side)) ∧
      (p.msg = .ack r → exec (.storeAcknowledgement k) s = .next (d.lowerStore r)) ∧
      (p.msg = .refuse r cls code → r.kind = .st ∨ r.kind = .pst ∨ r.kind = .stt →
        exec (.refusalAcknowledgement k) s = .next (e.lowerStore r)) ∧
      (∀ op x y sc, p.msg = .refuse r cls code → r.kind = .atomic op x y sc → s.canComplete r.ctx = true →
        exec (.refusalAcknowledgement k) s = .next (e.atomicDone r 0 0x10)) ∧
      (p.msg = .refuse r cls code → r.kind = .lds ∨ r.kind = .ldro → s.canComplete r.ctx = true →
        (s.core r.ctx.core).pend.any (fun q => q.id == r.id) = true →
        exec (.refusalAcknowledgement k) s = .next (e.partDone r [] [] true))) ∧
    (s.pkt k = some p → p.dst = .host → p.held = false →
      let entry := fun (pa : Nat) => tabGet 0 s.hostTab ((pa - 0xC000000000000) / 2 ^ 40)
      let posts := fun (f : Nat → Nat → Word → Out) (pa : Nat) => ({ d with outbox := s.outbox ++
        [f (fieldN (entry pa) 8 24) (fieldN (entry pa) 32 32) (BitVec.ofNat 64 (fieldN (entry pa) 64 64 + pa % 2 ^ 40))] } : State)
      (p.msg = .access r → s.hostFirst k r.pa = true →
        (r.kind = .lds → data.length = r.size → exec (.hostResponse k data) s =
          .next ((posts (fun q rk va => .hostRead q rk va r.size) r.pa).sendResp .host r
            (.loadResp r data (List.replicate (max 1 (r.size / 8)) 0)))) ∧
        (r.kind ≠ .lds → exec (.hostResponse k data) s =
          .next ((posts (fun q rk va => .hostWrite q rk va (leBytes r.size r.data.toNat)) r.pa).sendResp .host r (.ack r)))) ∧
      (∀ jq id pa n, p.msg = .copyRead jq id pa n → s.hostFirst k pa = true → data.length = n →
        exec (.hostResponse k data) s = .next ((posts (fun q rk va => .hostRead q rk va n) pa).modJob jq id (fun j =>
          { j with hostIn := j.hostIn ++ [(pa, data)], hostOut := j.hostOut.erase pa, progress := s.cycle }))) ∧
      (∀ jq id pa bs, p.msg = .copyWrite jq id pa bs → s.hostFirst k pa = true →
        exec (.hostResponse k data) s = .next ((posts (fun q rk va => .hostWrite q rk va bs) pa).modJob jq id (fun j =>
          { j with hostOut := j.hostOut.erase pa, progress := s.cycle }))) ∧
      (∀ pa, p.msg.hostPa = some pa → s.hostFirst k pa = false → exec (.hostResponse k data) s = .next s))) ∧
  (∀ (s : State) (k : Nat) (p : Packet) (r : Req) (bytes sides : List Byte) (old : Word) (side : Byte),
    let c := r.ctx.core
    let u := (s.core c).unack
    let fr := (s.core c).frame r.ctx.frame
    let left := fun (n bit : Nat) => n - (if r.scopes.testBit bit then 1 else 0) - (if r.mapScopes.testBit bit then 1 else 0)
    let fell := fun (v : Unack) => v.clus = left u.clus 0 ∧ v.die = left u.die 1 ∧ v.pkg = left u.pkg 2 ∧ v.sys = left u.sys 3
    s.recv k = some p →
    (p.msg = .ack r →
      ∃ t, exec (.storeAcknowledgement k) s = .next t ∧ fell (t.core c).unack ∧ (t.core c).unack.load = u.load ∧
        (r.kind = .pst → fr.state ≠ .free → fr.gen = r.ctx.gen → ((t.core c).frame r.ctx.frame).npst = fr.npst - 1) ∧
        (r.kind ≠ .pst → t.mem = s.mem ∧ t.net = s.net.eraseIdx k)) ∧
    (∀ q, p.msg = .loadResp r bytes sides → s.canComplete r.ctx = true → (s.core c).pend.find? (fun e => e.id == r.id) = some q →
      ∃ t, exec (.loadCompletion k) s = .next t ∧
        (q.parts ≤ 1 → (t.core c).unack = { u with load := u.load - 1 } ∧ (t.core c).pend.all (fun e => e.id != r.id) = true) ∧
        (1 < q.parts → (t.core c).unack = u ∧ (t.core c).pend.any (fun e => e.id == r.id) = true ∧ t.mem = s.mem)) ∧
    (p.msg = .atomResp r old side → s.canComplete r.ctx = true →
      ∃ t, exec (.atomicCompletion k) s = .next t ∧ fell (t.core c).unack ∧ (t.core c).unack.load = u.load - 1 ∧
        (t.core c).atomWait = (if (s.core c).atomWait = some r.id then none else (s.core c).atomWait)))

/-- WALK_COMPLETION (R113, R335, R391, R393, R394, R396): a request that missed its L1 TLB waits while the L2 TLB is stopped, while
an earlier one of its core asks for its page, or while an earlier one may go to its host region; it parks behind a parked page; the
L2 TLB's translation serves it, or the walk does, which fills the TLBs; an absent page parks it, and a page that does not grant the
access refuses it. REPLAY_PURGE (R398) takes the requests of an address space off the queue. PUBL_HOLD_END (R141) waits for the
accesses in flight and for an L2 TLB that is stopped (R396), parks while the page of the generation word is not there (R393), then
writes the even generation, sends the arrival and lets waiting results go on. TLBINV_ACKNOWLEDGEMENT (R229): a die drops the
translations that the operand names once no access uses them and no longer holds the steward's queue. -/
def Obligations.TranslationsServeRequests : Prop :=
  (∀ (s : State) (cl n asid b : Nat) (r : Req),
    let k := s.cluster cl
    let s0 := s.modCluster cl (fun k => { k with walking := k.walking.eraseIdx n })
    let die := dieOf r.ctx.core
    let s1 := s0.walkTouch die r.asid r.va
    let page := (XReq.core r).page
    (k.walking[n]? = some (.core r) →
      (k.stop = true ∨ k.behind n r.ctx.core page = true ∨ s.hostWaits r = true → exec (.walkCompletion cl n) s = .next s) ∧
      (k.stop = false → k.behind n r.ctx.core page = false → s.hostWaits r = false →
        (k.holdsPage page = true → exec (.walkCompletion cl n) s =
          .next (s0.park cl (.core r) (s.walk die r.asid r.va).level)) ∧
        (∀ pte big, k.holdsPage page = false → servable r.kind.need (tlbFind k.tlb r.asid r.va) = some (pte, big) →
          exec (.walkCompletion cl n) s = .next ((s0.fillTlbs r.ctx.core r.asid r.va pte big).meetLeaf r pte big)) ∧
        (k.holdsPage page = false → servable r.kind.need (tlbFind k.tlb r.asid r.va) = none →
          (∀ l, s0.walk die r.asid r.va = .absent l →
            exec (.walkCompletion cl n) s = .next (s1.park (clusterOf r.ctx.core) (.core r) l)) ∧
          (∀ cls code, s0.walk die r.asid r.va = .bad cls code → exec (.walkCompletion cl n) s = .next (s1.refuseReq r cls code)) ∧
          (∀ entry pte big cls code, s0.walk die r.asid r.va = .leaf entry pte big → s0.checkLeaf r pte big = .error (cls, code) →
            exec (.walkCompletion cl n) s = .next (s1.refuseReq r cls code)) ∧
          (∀ entry pte big pa, s0.walk die r.asid r.va = .leaf entry pte big → s0.checkLeaf r pte big = .ok pa →
            let m := s1.markPte entry pte r.kind.need.write
            exec (.walkCompletion cl n) s = .next (((m.1.fillWalk die r.asid r.va).fillTlbs r.ctx.core r.asid r.va m.2 big).meetLeaf r
              m.2 big))))) ∧
    (exec (.replayPurge cl asid) s = .next ((k.parked.filter (fun x => x.page.1 == asid)).foldl (fun t x => t.endX x)
      (s.modCluster cl (fun k => { k with
        parked := k.parked.filter (fun x => x.page.1 != asid), fltbuf := k.fltbuf.filter (fun e => e.asid != asid) })))) ∧
    (∀ die d j p, s.dies.find? (fun d => d.2.publs.any (fun p => p.asid == asid && p.k == b)) = some (die, d) →
      d.publs.find? (fun p => p.asid == asid && p.k == b) = some j → d.pub asid b = some p → j.who = none →
      (s.die (dieOf j.ctx.core)).pub asid b = some p →
      let home := clusterOf j.ctx.core
      let rest := s.modDie die (fun d => { d with publs := d.publs.filter (fun p => !(p.asid == asid && p.k == b)) })
      let ends := fun (t : State) => (((t.setPub asid b (fun p => { p with gen := p.gen + 1 }) p).arrive (.core j.ctx.core) j.ctx.tenant
        (BitVec.ofNat 32 (fieldN j.op 16 32)) (fieldN j.op 8 6) 1)).retryResults
      (s.net.any (fun q => match q.msg with
        | .access r => j.waits.contains r.id
        | _ => false) = true ∨ (s.cluster home).stop = true → exec (.publHoldEnd asid b) s = .next s) ∧
      (j.waits = [] → (s.cluster home).stop = false →
        (∀ va l, j.purged = false → s.genAbsent home j.ctx.core asid p.genaddr = some (va, l) →
          (s.cluster home).parked.contains (.wait asid va j.ctx.core none) = false →
          exec (.publHoldEnd asid b) s = .next (s.park home (.wait asid va j.ctx.core none) l)) ∧
        (j.purged = false → s.genAbsent home j.ctx.core asid p.genaddr = none →
          exec (.publHoldEnd asid b) s = .next (ends (rest.genStore j.ctx.core asid p.genaddr (p.gen + 1).toNat))) ∧
        (j.purged = true → exec (.publHoldEnd asid b) s = .next (ends rest))))) ∧
  (∀ (s : State) (core die : Nat),
    let c := s.core core
    (c.tlbWait.contains die = true → s.tlbInUse die c.tlbOp = false →
      ∃ t, exec (.tlbinvAcknowledgement core die) s = .next t ∧
        (t.core core).tlbWait = c.tlbWait.filter (fun d => d != die) ∧
        (∀ q, dieOf q = die → ∀ e ∈ (t.core q).tlb, tlbMatch c.tlbOp e = false) ∧
        (∀ q, dieOf q ≠ die → (t.core q).tlb = (s.core q).tlb) ∧ t.mem = s.mem) ∧
    (c.tlbWait.contains die = true → s.tlbInUse die c.tlbOp = true → exec (.tlbinvAcknowledgement core die) s = .next s))

/-- WRITE_BACK_COMPLETE, FILL_BACK_START, FILL_BACK_COMPLETE, SPILLED_ARRIVAL (R30, R118 to R121, R403): a written back frame is
SPILLED and holds no pool run; a fill takes a free run or evicts the named idle frame; a filled frame is LOCAL, its body slot free,
its words back and its ready entry pushed; the spill engine applies an arrival to the body of a SPILLED frame. -/
def Obligations.SpillEngineMovesFrames : Prop :=
  ∀ (s : State) (core i k : Nat) (p : Packet),
    let c := s.core core
    let f := c.frame i
    (f.state ≠ .spilling → exec (.writeBackComplete core i) s = .next s) ∧
    (f.state = .spilling → f.dying = true → exec (.writeBackComplete core i) s = .next (s.freeNow core i)) ∧
    (f.state = .spilling → f.dying = false → exec (.writeBackComplete core i) s = .next
      (((s.modFrame core i (fun g => { g with state := .spilled, poolofs := noRun })).putWords core i 0 (s.frameWords core i)).tryCont
        core i)) ∧
    (f.state = .filling → f.poolofs = noRun →
      (∀ r v, c.freeRun (classUnits f.fclass) = some r → exec (.fillBackStart core i v) s =
        .next (s.modFrame core i (fun g => { g with poolofs := r }))) ∧
      (∀ v b, c.freeRun (classUnits f.fclass) = none → c.idleFrame v = true → c.freeBody = some b →
        exec (.fillBackStart core i (some v)) s = .next (s.modFrame core v (fun g => { g with state := .spilling, body := some b }))) ∧
      (c.freeRun (classUnits f.fclass) = none → exec (.fillBackStart core i none) s = .next s)) ∧
    (f.state = .filling → f.poolofs ≠ noRun → f.dying = false →
      let sp := (s.modFrame core i (fun g => { g with state := .spilled })).touchBody core i
      ∀ r, f.wake = [r] → sp.poisonedSlot core i = none → c.ready.length < 64 →
        exec (.fillBackComplete core i) s = .next (((sp.modFrame core i (fun g => { g with state := .local, body := none, wake := [] })).putWords
          core i 0 (sp.frameWords core i)).pushReady core r)) ∧
    (∀ dest slot fw am pl dt sd sn lost, s.recv k = some p → p.dst = .core core →
      p.msg = .frame dest slot fw am pl dt sd sn lost → s.frameOf core dest = some i → f.state = .spilled →
      s.coreClosed core = false → s.foreign p core = false → c.ready.length < 64 →
      (isPoison (s.fside core i slot) = false →
        exec (.spilledArrival k) s = .next ((s.dropPkt k).applyFrame core i slot fw am pl dt sd sn)) ∧
      (slot < f.nslot → isPoison (s.fside core i slot) = true →
        exec (.spilledArrival k) s = .next ((s.dropPkt k).loseFrame core i slot)))

/-! ## Events: engines, collectives, ingest, steward commands -/

/-- JOB_ISSUE (R73, R74), PRESS_JOB_RETIRE (R72, R260, R271), MXRD_TOKEN_SEND (R274), COPY_LINE_WRITE (R101, R280),
COPY_SOURCE_RELEASE and COPY_VISIBLE_COMPLETION (R139, R284, R286, R381). The sequencer issues the eligible job of the highest
priority, the first to enter that level among equals, while its unit has room; the oldest issued job of a slice is applied whole and
retires with its arrival, a drain to a channel with its last token; a copy job writes a line at a time; its record stands before its
visible arrivals leave, and before both arrivals of a job that failed or was cancelled. -/
def Obligations.EnginesRunTheirJobs : Prop :=
  ∀ (s : State) (q : JobQueue) (n core : Nat) (j : Job),
    ((s.jobsOf q)[n]? = some j → s.eligible j = true → s.issueRoom q = true → j.gang = none →
      (∀ (m : Nat) (k : Job), (s.jobsOf q)[m]? = some k → s.eligible k = true → k.prio < j.prio ∨
        (k.prio = j.prio ∧ (j.since < k.since ∨ (j.since = k.since ∧ n ≤ m)))) →
      exec (.jobIssue q) s = .next (s.issueOne q j 0)) ∧
    ((∀ k ∈ s.jobsOf q, s.eligible k = false) → exec (.jobIssue q) s = .next s) ∧
    (s.slice core = none → exec (.pressJobRetire core) s = .next s ∧ exec (.mxrdTokenSend core) s = .next s) ∧
    (s.slice core = some j → j.aux = 0 → s.stillFrame j.ctx = true →
      (j.toks = [] → ¬(j.op = .mxrd ∧ fieldN j.desc 120 2 = 2) → exec (.pressJobRetire core) s =
        .next (((((s.runClears j.ctx.core j.order).applyPress j [j]).peekWord j).retireJob j.pressQueue j).pressArrival j |>.lastClears
          j.ctx.core)) ∧
      (j.toks = [] → j.op = .mxrd → fieldN j.desc 120 2 = 2 → exec (.pressJobRetire core) s =
        .next ((s.runClears j.ctx.core j.order).applyPress j [j])) ∧
      (∀ t, j.toks = [t] → (s.core core).canSend j.ctx.vnode [fieldN j.desc 156 2] 5 = true →
        exec (.mxrdTokenSend core) s = .next ((((((s.nodeSend core j.ctx.vnode (fieldN j.desc 156 2) t).modJob j.pressQueue j.id
          (fun k => { k with toks := [] })).peekWord j).retireJob j.pressQueue j).pressArrival j).lastClears core)) ∧
      (∀ t r rest, j.toks = t :: r :: rest → (s.core core).canSend j.ctx.vnode [fieldN j.desc 156 2] 5 = true →
        exec (.mxrdTokenSend core) s = .next ((s.nodeSend core j.ctx.vnode (fieldN j.desc 156 2) t).modJob j.pressQueue j.id
          (fun k => { k with toks := r :: rest })))) ∧
    (s.jobIn q n = some j → j.working = true → (s.cluster (clusterOf j.ctx.core)).stop = false → j.op = .cpy → s.yieldsUnit q = false →
      (j.total ≤ j.line → exec (.copyLineWrite q n) s = .next s) ∧
      (∀ bs p, j.line < j.total → cpyTiled j.desc = false →
        s.lineBytes j j.line (j.memLine j.line).2 = .ok bs → s.linePlaces j (j.memLine j.line).1 (j.memLine j.line).2 = .ok [p] →
        s.publHolds (dieOf j.ctx.core) (s.jobAsid j) (j.memLine j.line).1 = false → s.syncHit p.1 (j.memLine j.line).2 = false →
        exec (.copyLineWrite q n) s = .next (((s.copyPut q j p.2 p.1 bs).touchPage j.ctx.core (s.jobAsid j) true
          (j.memLine j.line).1).lineDone q j (j.memLine j.line).2)) ∧
      (∀ b, j.srcDone = false → s.readRest j = some (.ok b) →
        exec (.copySourceRelease q n) s = .next (((s.restRead j).modJob q n (fun k =>
          { k with srcDone := true, bufAt := k.line, buf := b.map (·.1), sbuf := b.map (·.2) })).sourceArrival q j))) ∧
    (s.jobIn q n = some j → s.copyOver j = true →
      let released := (s.modJob q n (fun k => { k with srcDone := true })).sourceArrival q j
      let ends := exec (.copyVisibleCompletion q n) s
      (j.recDone = false → j.fault.isSome = true ∨ j.cancelled = true → ends = .next (s.writeRecord q j)) ∧
      (j.srcDone = false → j.recDone = true ∨ (j.fault = none ∧ j.cancelled = false) → ends = .next released) ∧
      (j.srcDone = true → j.recDone = false → ends = .next (s.writeRecord q j)) ∧
      (j.srcDone = true → j.recDone = true → s.sourceOut q j = true → ends = .next s) ∧
      (j.srcDone = true → j.recDone = true → s.sourceOut q j = false →
        (j.fault = none → ends = .next ((s.visibleArrivals q j).retireCopy q j)) ∧
        (∀ e, j.fault = some e → e.cls ≠ 0 → ends = .next (((s.copyRecord q j e.cls e.code e.addr).visibleArrivals q j).retireCopy q j)))) ∧
    (s.jobIn q n = some j → s.copyOver j = false → exec (.copyVisibleCompletion q n) s = .next s)

/-- HOOP_DECISION (R311, R312, R421, R424, R426): at an OPEN round a member's tag decides: one ahead of the round gets status 3, one
further behind than its lag limit 2, one that repeats an accepted tag 4, one for no hoop or by no member 6; any other whose checksum
holds is added, chunk by chunk; while the round is not OPEN, or another contribution is being added, it waits. That a contribution
waits for another's, that a chunk of an ended one is dropped, and the tag reported where there is no hoop, are log 62.
REDUCTION_CHUNK (R170, R305, R306, R308, R364, R421, R423): at a router of the tree a chunk of a later use waits, one of an earlier
use is dropped, one whose checksum does not hold is sent again once, and one that does is combined; once all the members below have
delivered, the partial goes to the parent in long-partial form; a retired unit forwards what it gets. That chunks wait at a unit
that holds 32 already and at one whose use has lost its tree is log 39. DEFINITION_REPORT (R303), TURN_GRANT_ARRIVAL (R316),
BLOCK_LANDING and SLOT_REGRANT (R317), ABSENCE_NOTICE, PRESENCE_NOTICE and HOLD_EXPIRY (R428): a report sends its word; a grant for
a ring not yet defined is kept; a block has landed once its tiles are READY, another device is told, and bytes that waited for a
tile land first; its slot is granted again once they are EMPTY; an absence is noted with its cycle and a presence removes it; a hold
is over at its limit, or once its member is lost, and not before; HOLD_EXPIRY then ends it and takes away the holds of that
collective that are over, no other: a ring fails with its queued turns, a hoop ends its waits. A reduction none of whose uses
collects keeps its holds (log 66). -/
def Obligations.CollectivesDecideAndMove : Prop :=
  (∀ (s : State) (k cl : Nat) (p : Packet) (c : Chunk),
    s.recv k = some p → p.dst = .router cl →
    let d := s.dropPkt k
    (p.msg = .hpput c →
      let good := c.sum = checksum (c.elems.map (fun e => longFix e 0))
      (s.hoopAt c.ref = none → c.index = 0 → exec (.hoopDecision k) s = .next (d.drawn.hpStatus (.router cl) c 6 s.freeTag)) ∧
      (∀ h, s.hoopAt c.ref = some h → c.index = 0 →
        let t := fieldN c.desc 44 16
        let ahead := (t + 65536 - h.rho) % 65536
        let behind := (h.rho + 65536 - t) % 65536
        let ends := fun st => exec (.hoopDecision k) s = .next (d.hpStatus (.router cl) c st h.rho)
        h.rho < 65536 →
        (fieldN h.desc 32 12 < c.member → ends 6) ∧
        (c.member ≤ fieldN h.desc 32 12 → h.phase ≠ .opened ∨ h.cur.isSome = true → exec (.hoopDecision k) s = .next s) ∧
        (c.member ≤ fieldN h.desc 32 12 → h.phase = .opened → h.cur = none →
          (1 ≤ ahead → ahead ≤ 32767 → ends 3) ∧
          (ahead = 0 ∨ 32767 < ahead → s.hoopLag h c.member < behind → ends 2) ∧
          (ahead = 0 ∨ 32767 < ahead → behind ≤ s.hoopLag h c.member →
            (∀ u, tabFind h.tags c.member = some u → (u + 65536 - t) % 65536 < 32768 → ends 4) ∧
            (tabFind h.tags c.member = none →
              (good → exec (.hoopDecision k) s = .next (d.addChunk h c behind h.acc)) ∧
              (¬good → c.again = false → exec (.hoopDecision k) s = .next (d.send { p with msg := .hpput { c with again := true } })) ∧
              (¬good → c.again = true → exec (.hoopDecision k) s =
                .next ((d.badChunk cl (s.sendingRouter c)).hpStatus (.router cl) c 5 h.rho)))))) ∧
      (∀ h, s.hoopAt c.ref = some h → c.index ≠ 0 →
        (h.expects c = none → exec (.hoopDecision k) s = .next d) ∧
        (∀ q, h.expects c = some q → good → exec (.hoopDecision k) s = .next (d.addChunk h c q.lag q.acc)))) ∧
    (p.msg = .redChunk c →
      (∀ u from_, s.unitAt cl c.ref = some u → (s.cluster cl).stop = false → c.forms ≠ [] → p.src = .router from_ →
        let tree := if c.alt then u.alt else u.tree
        let part := u.add c
        let known := u.parts.any (fun q => q.use == c.use && q.index == c.index)
        let up := fun (m : Chunk) (a : Agent) =>
          ({ src := .router cl, dst := a, cls := .collective, tenant := c.ctx.tenant, msg := .redChunk m, held := false } : Packet)
        (c.use < u.use → exec (.reductionChunk k) s = .next d) ∧
        (u.use < c.use → exec (.reductionChunk k) s = .next s) ∧
        (c.use = u.use → u.cutoff = true → exec (.reductionChunk k) s = .next s) ∧
        (∀ a, c.use = u.use → u.cutoff = false → bitN (s.cluster cl).health 20 = true → tree.parent = some a →
          exec (.reductionChunk k) s = .next (d.send (up c a))) ∧
        (c.use = u.use → u.cutoff = false → bitN (s.cluster cl).health 20 = false →
          (checksum (c.forms.map LongAcc.ofForm) ≠ c.sum → c.again = false →
            exec (.reductionChunk k) s = .next (d.send { p with msg := .redChunk { c with again := true } })) ∧
          (checksum (c.forms.map LongAcc.ofForm) = c.sum → 32 ≤ u.parts.length → known = false →
            exec (.reductionChunk k) s = .next s) ∧
          (∀ a, checksum (c.forms.map LongAcc.ofForm) = c.sum → u.parts.length < 32 ∨ known = true → tree.parent = some a →
            (part.count < tree.need → exec (.reductionChunk k) s = .next (d.modUnit cl c.ref (fun e => e.putPart part))) ∧
            (tree.need ≤ part.count → exec (.reductionChunk k) s = .next ((d.modUnit cl c.ref (fun e =>
              { e with parts := e.parts.filter (fun q => !(q.use == part.use && q.index == part.index)) })).send (up
                { c with member := 0, elems := [], forms := part.acc.map LongAcc.form, sum := part.sum, count := part.count, again := false } a)))))))) ∧
  (∀ (s : State) (k cl n slot : Nat) (p : Packet) (r : Ring) (who : Collective) (m : Nat),
    (∀ code mem h fw, s.recv k = some p → p.msg = .defReport code mem h slot fw →
      exec (.definitionReport k) s = .next ((s.dropPkt k).report p.src p.tenant h slot fw
        (BitVec.ofNat 64 (if code = 0 then 1 + mem * 2 ^ 16 else 2 + code * 2 ^ 8)))) ∧
    (∀ core, s.recv k = some p → p.msg = .grant n slot → p.dst = .core core →
      (s.ring (clusterOf core) n = some r → r.failed = true → exec (.turnGrantArrival k) s = .next (s.dropPkt k)) ∧
      (s.ring (clusterOf core) n = none → exec (.turnGrantArrival k) s = .next ((s.dropPkt k).modCluster (clusterOf core)
        (fun c => { c with ringHeld := c.ringHeld ++ [(n, slot)] }))) ∧
      (s.ring (clusterOf core) n = some r → r.failed = false → exec (.turnGrantArrival k) s =
        .next ((s.dropPkt k).modRing (clusterOf core) n (fun r => { r with grants := r.grants ++ [slot] })))) ∧
    (s.ring cl n = some r →
      (tabFind r.slots slot = some .landing → r.late.find? (s.canLand slot) = none →
        (r.slotTiles slot).all (fun e => ((s.core e.1).tile e.2).state == .ready) = true →
        let u := (s.modRing cl n (fun r => { r with slots := tabSet r.slots slot .landed, incoming := tabDel r.incoming slot })).report
          (.router cl) (s.tenantOf r.core) (BitVec.ofNat 32 (fieldN r.desc 164 32)) (fieldN r.desc 196 6) (fieldN r.desc 202 9)
          (BitVec.ofNat 64 ((tabGet (0, 0) r.blocks slot).1 + (tabGet (0, 0) r.blocks slot).2 * 2 ^ 6 + slot * 2 ^ 12))
        (tabFind r.incoming slot = none → exec (.blockLanding cl n slot) s = .next u) ∧
        (∀ dev src job left, tabFind r.incoming slot = some (dev, src, job, left) → exec (.blockLanding cl n slot) s = .next (u.send
          { src := .core r.core, dst := .device dev 0, cls := .collective, tenant := s.tenantOf r.core, msg := .blockDone src job, held := false }))) ∧
      (∀ e, r.late.find? (s.canLand slot) = some e → exec (.blockLanding cl n slot) s =
        .next ((s.modRing cl n (fun r => { r with late := r.late.erase e })).fillTile e.2.1 e.2.2.1 e.2.2.2.1 e.2.2.2.2)) ∧
      (tabFind r.slots slot ≠ some .landing → r.late.find? (s.canLand slot) = none → exec (.blockLanding cl n slot) s = .next s) ∧
      (tabFind r.slots slot ≠ some .releasing → exec (.slotRegrant cl n slot) s = .next s) ∧
      (tabFind r.slots slot = some .releasing → tabGet false r.fwd slot = false →
        (r.slotTiles slot).all (fun e => ((s.core e.1).tile e.2).state == .empty) = true →
        exec (.slotRegrant cl n slot) s = .next (((s.modRing cl n (fun r =>
          { r with slots := tabSet r.slots slot .granted, blocks := tabDel r.blocks slot })).modJobs (.copy cl) (fun l => l.map (fun j =>
            if releaseOf n slot j then { j with ready := true } else j))).sendGrant r slot))) ∧
    (exec (.absenceNotice who m) s = .next { s with absent := s.absent.filter (fun e => !(e.1 == who && e.2.1 == m)) ++ [(who, m, s.cycle)] }) ∧
    (exec (.presenceNotice who m) s = .next { s with absent := s.absent.filter (fun e => !(e.1 == who && e.2.1 == m)) }) ∧
    (s.absent.any (s.holdOver who) = false ∧ s.peerLost who = false ∨ s.holdIdle who = true → exec (.holdExpiry who) s = .next s) ∧
    (s.holdIdle who = false → s.absent.any (s.holdOver who) = true ∨ s.peerLost who = true →
      exec (.holdExpiry who) s = .next ({ s with absent := s.absent.filter (fun e => !s.holdOver who e) }.endHold who)) ∧
    (∀ e, e ∈ s.absent → e.1 = who → s.cycle < e.2.2 + max 1 (s.die (collDie who)).resctl.hold * 65536 → s.holdLost who e.2.1 = false →
      s.holdOver who e = false) ∧
    (∀ e, e.1 = who → e.2.2 + max 1 (s.die (collDie who)).resctl.hold * 65536 ≤ s.cycle ∨ s.holdLost who e.2.1 = true →
      s.holdOver who e = true) ∧
    (who = .ring cl n → (s.jobsOf (.copy cl)).filter (turnOf n) = [] →
      s.endHold who = (s.modRing cl n (fun r => { r with failed := true })).modJobs (.copy cl) (fun l => l.map (fun j =>
        if turnOf n j then
          { j with state := .issued, srcDone := true, parked := false, fault := some { fcode := 7, cls := 0, code := 0, addr := none } }
        else j))) ∧
    (∀ ref h, who = .hoop ref → s.hoopAt ref = some h → h.waits = [] → s.endHold who = s.modHoop ref (fun h => { h with waits := [] })))

/-- INGEST_TOKEN, QUARANTINE and INGEST_WATCHDOG (R288 to R292, R386 to R389): the first message of a channel is decoded, sends its
tokens under credit, and is complete once its marker has entered the channel; one that met an event before it decoded entries is
quarantined at once, a later one after the tokens it has decoded (the model's choice, log 63: R387 stops the message there); the
watchdog quarantines one without progress for 2^20 cycles while the unit holds a credit. -/
def Obligations.IngestMessagesMove : Prop :=
  ∀ (s : State) (die t : Nat) (m : IngMsg),
    (s.ingMsg die t = none → exec (.ingestToken die t) s = .next s ∧ exec (.quarantine die t) s = .next s ∧
      exec (.ingestWatchdog die t) s = .next s) ∧
    (s.ingMsg die t = some m → (s.die die).first m = false → exec (.ingestToken die t) s = .next s ∧
      exec (.ingestWatchdog die t) s = .next s) ∧
    (s.ingMsg die t = some m → (s.die die).first m = true →
      (m.out = none → exec (.ingestToken die t) s = .next (s.decodeMsg die m)) ∧
      (∀ k rest, m.out = some (k :: rest) → tabGet 0 (s.die die).ingCredits m.chan < (k.cost : Int) →
        exec (.ingestToken die t) s = .next s) ∧
      (∀ k rest, m.out = some (k :: rest) → (k.cost : Int) ≤ tabGet 0 (s.die die).ingCredits m.chan →
        let pkt : Packet := { src := .ingest die, dst := .core m.core, cls := .token, tenant := m.ctx.tenant,
                              msg := .chan (m.chan / 4 % 2 ^ 20) (m.chan % 4) k, held := false }
        ∃ u, exec (.ingestToken die t) s = .next u ∧
          tabGet 0 (u.die die).ingCredits m.chan = tabGet 0 (s.die die).ingCredits m.chan - (k.cost : Int) ∧
          (s.rerouting = [] → u.net = s.net ++ [pkt]) ∧ u.mem = s.mem ∧ u.cores = s.cores) ∧
      (m.out = some [] → m.closed = true → s.ingOut die m = false → exec (.ingestToken die t) s = .next (s.finishMsg die m)) ∧
      (∀ code stage ofs used, m.bad = some (code, stage, ofs, used) → stage < 2 ∨ m.out = some [] →
        exec (.quarantine die t) s = .next (s.quarantineMsg die m code stage ofs used)) ∧
      (1 ≤ tabGet 0 (s.die die).ingCredits m.chan → m.progress + 2 ^ 20 ≤ s.cycle → m.out = none →
        exec (.ingestWatchdog die t) s = .next (s.quarantineMsg die m 0x40 4 0 0)) ∧
      (s.cycle < m.progress + 2 ^ 20 → exec (.ingestWatchdog die t) s = .next s))

/-- PLACE_ARRIVAL (R231), CODESEAL_SCAN (R143, R179, R230, R372) and CFGLD_COMPLETION (R232, R382, R383): entries are written; a
block range is sealed when every word of it passes the scanner, and loses its seals with the first bad word reported otherwise; a
range or field that is not legal is reported and changes no seal; zero words unload a core; a section is applied, and its core is
then LOADED, or BLOCKED, with its first illegal word in the report. That a CFGLD of zero words gives an arrival and no report word,
and that a CODESEAL waits for code stores that are parked, are the model's choices (log 65). -/
def Obligations.StewardCommandsArrive : Prop :=
  ∀ (s : State) (k core : Nat) (p : Packet) (d : Vec),
    s.recv k = some p → p.dst = .core core →
    let u := s.dropPkt k
    (p.msg = .place d →
      let entry := fun (l : Tab Place) (e : Nat) =>
        let w : Word := BitVec.ofNat 64 (fieldN d (64 * e + 64) 64)
        tabSet l (fieldN w 34 7) { valid := bitN w 0, vnode := fieldN w 1 20, core := fieldN w 21 13 }
      exec (.placeArrival k) s = .next (u.setCore core { s.core core with
        place := (List.range (fieldN d 13 3 + 1)).foldl entry (s.core core).place })) ∧
    (∀ n, p.msg = .sealCmd d n → s.codeStoresOut p.src core n = true → exec (.codesealScan k) s = .next s) ∧
    (∀ n, p.msg = .sealCmd d n → s.codeStoresOut p.src core n = false → sealOk d = true →
      let scanned := s.scanCode core ((fieldN d 20 4 - fieldN d 16 4 + 1) * 1024) (fieldN d 16 4 * 1024)
      (scanned = none → exec (.codesealScan k) s = .next ((u.setCore core { s.core core with
        sealed := (s.core core).sealed ||| sealMask d }).report (.core core) p.tenant (BitVec.ofNat 32 (fieldN d 64 32)) (fieldN d 96 6)
          (fieldN d 102 9) 1)) ∧
      (∀ a r, scanned = some (a, r) → exec (.codesealScan k) s = .next ((u.setCore core { s.core core with
        sealed := (s.core core).sealed &&& ~~~(sealMask d) }).report (.core core) p.tenant (BitVec.ofNat 32 (fieldN d 64 32))
          (fieldN d 96 6) (fieldN d 102 9) (BitVec.ofNat 64 (2 + a * 4 + r * 2 ^ 16))))) ∧
    (∀ n, p.msg = .sealCmd d n → s.codeStoresOut p.src core n = false → sealOk d = false →
      ∃ t : State, exec (.codesealScan k) s = .next (t.report (.core core) p.tenant (BitVec.ofNat 32 (fieldN d 64 32)) (fieldN d 96 6)
        (fieldN d 102 9) (BitVec.ofNat 64 (2 + 0x0A * 2 ^ 16))) ∧ (t.core core).sealed = (s.core core).sealed ∧ t.mem = s.mem ∧ t.net = u.net) ∧
    (∀ st, p.msg = .cfgld d → p.src = .core st →
      (fieldN d 64 32 = 0 → exec (.cfgldCompletion k) s = .next ((u.modCore core CoreSt.unload).arrive (.core core) p.tenant
        (BitVec.ofNat 32 (fieldN d 96 32)) (fieldN d 128 6) 1)) ∧
      (∀ bs, fieldN d 64 32 ≠ 0 → s.readEngine st (s.core st).asid false (va48 d 16) (4 * fieldN d 64 32) = .ok bs →
        let g := (u.touchRange st (s.core st).asid (va48 d 16) (4 * fieldN d 64 32)).configure core d (bs.map (·.1))
        (g.bad = none → exec (.cfgldCompletion k) s = .next ((((g.s.modCore core (fun c => { c with cfg := .loaded })).jobFields
          core).setCredits core).cfgDone core p.tenant d 1)) ∧
        (∀ r, g.bad = some r → exec (.cfgldCompletion k) s = .next ((g.s.modCore core (fun c => { c with cfg := .blocked })).cfgDone
          core p.tenant d (BitVec.ofNat 64 (2 + r.2 % 2 ^ 24 * 2 ^ 8 + r.1 * 2 ^ 32))))))

/-! ## Events: the outside, starts, power, registers, links, errors -/

/-- The RDMA operations of the host (R141, R336, R380, R434) and the attestation flow (R343, R344). With no port up, and in minimal
mode, they leave nothing; a WRITE to a page whose writes a PUBL holds waits. A queue pair that does not exist, or a key that does
not grant the range, is refused; a WRITE writes its lines in order up to the first that is refused, and its last line's end is its
answer; a READ answers the bytes of its range; a SEND enters the network as a SEND of 8 bytes, to a frame or, by the placement
table, to a channel. A requester out of its turn gets an ERROR; a signed response takes the next leaf, and after the last leaf there
is an ERROR. The ERROR codes, and the bodies that the spec does not give, are the model's choice (log 19). -/
def Obligations.OutsideOperationsAnswer : Prop :=
  ∀ (s : State) (qpn rkey asid va len ofs : Nat) (data : List Byte) (p : BitVec 128) (nonce : Rec),
    let out := fun (t : State) (o : Out) => ({ t with outbox := t.outbox ++ [o] } : State)
    let err := Out.spdm 0x7F [0x04]
    let spans := lineSpans (BitVec.ofNat 64 va) data.length
    (s.rdmaUp = true ↔ s.ports ≠ [] ∧ s.start.minimal = false) ∧
    (s.rdmaUp = false → exec (.rdmaWrite ⟨qpn, rkey⟩ va data) s = .next s ∧ exec (.rdmaRead ⟨qpn, rkey⟩ va len) s = .next s ∧
      exec (.rdmaSend qpn p) s = .next s) ∧
    (s.rdmaUp = true →
      (s.keyAsid qpn rkey va data.length = none → exec (.rdmaWrite ⟨qpn, rkey⟩ va data) s = .next (out s (.nak 0x02))) ∧
      (s.keyAsid qpn rkey va len = none → exec (.rdmaRead ⟨qpn, rkey⟩ va len) s = .next (out s (.nak 0x02))) ∧
      (s.qpAsid qpn = none → exec (.rdmaSend qpn p) s = .next (out s (.nak 0x02))) ∧
      (s.keyAsid qpn rkey va data.length = some asid →
        let held := spans.any (fun e => s.publHolds (s.rdmaDie asid) asid e.1)
        (held = true → exec (.rdmaWrite ⟨qpn, rkey⟩ va data) s = .next s) ∧
        (held = false → exec (.rdmaWrite ⟨qpn, rkey⟩ va data) s = .next (s.rdmaLines asid data spans))) ∧
      (s.keyAsid qpn rkey va len = some asid →
        (∀ bs, s.rdmaBytes asid va len = some bs → exec (.rdmaRead ⟨qpn, rkey⟩ va len) s = .next (out (s.touchRange
          (stewardOf (s.rdmaDie asid)) asid (BitVec.ofNat 64 va) len) (.readData (bs.map (·.1))))) ∧
        (s.rdmaBytes asid va len = none → exec (.rdmaRead ⟨qpn, rkey⟩ va len) s = .next (out s (.nak 0x02)))) ∧
      (s.qpAsid qpn = some asid →
        let entry := fun (a : Agent) (m : Msg) => ({ src := .host, dst := a, cls := .token, tenant := asid, msg := m, held := false } : Packet)
        (p.getLsbD 0 = true →
          let h : Handle := p.setWidth 32
          exec (.rdmaSend qpn p) s = .next (out (s.send (entry (.core (handleCore h)) (.frame (.handle h) (fieldN p 32 6)
            (fieldN p 38 9) 1 8 (BitVec.ofNat 512 (fieldN p 64 64)) 0 0 false))) .done)) ∧
        (p.getLsbD 0 = false →
          let node := fieldN (p.setWidth 32) 3 20
          (s.resolve (stewardOf (s.rdmaDie asid)) node = none → exec (.rdmaSend qpn p) s = .next (out s (.nak 0x02))) ∧
          (∀ a, s.resolve (stewardOf (s.rdmaDie asid)) node = some a →
            exec (.rdmaSend qpn p) s = .next (out (s.send (entry a (.chan node (fieldN (p.setWidth 32) 1 2)
              { kind := .data, side := 0, colour := 0, vec := false, data := BitVec.ofNat 512 (fieldN p 64 64) }))) .done))))) ∧
    s.rdmaLines asid data [] = out s .done ∧
    (∀ (a : Word) (n : Nat) (l : List (Word × Nat)),
      (s.rdmaPlace asid true a = none → s.rdmaLines asid data ((a, n) :: l) = out s (.nak 0x02)) ∧
      (∀ pa key, s.rdmaPlace asid true a = some (pa, key) →
        (s.syncHit pa n = true → s.rdmaLines asid data ((a, n) :: l) = out s (.nak 0x02)) ∧
        (s.syncHit pa n = false → s.rdmaLines asid data ((a, n) :: l) =
          ((s.writeEngine key pa ((data.take n).map (fun b => (b, 0)))).touchPage (stewardOf (s.rdmaDie asid)) asid true a).rdmaLines asid
            (data.drop n) l))) ∧
    (s.ports.contains 0 = false →
      ∀ i ∈ [Instr.getVersion, .getCapabilities, .negotiateAlgorithms, .getCertificate ofs len, .challenge nonce,
        .getMeasurements nonce true, .getMeasurements nonce false], exec i s = .next s) ∧
    (s.ports.contains 0 = true →
      exec .getVersion s = .next (out { s with spdm := 1 } (.spdm 0x04 [1, 0x00, 0x12])) ∧
      (s.spdm = 1 → exec .getCapabilities s = .next (out { s with spdm := 2 } (.spdm 0x61 (Config.spdmBody 0x61)))) ∧
      (s.spdm ≠ 1 → exec .getCapabilities s = .next (out s err)) ∧
      (s.spdm = 2 → exec .negotiateAlgorithms s = .next (out { s with spdm := 3 } (.spdm 0x63 (Config.spdmBody 0x63)))) ∧
      (s.spdm ≠ 2 → exec .negotiateAlgorithms s = .next (out s err)) ∧
      (s.spdm ≠ 3 → exec (.getCertificate ofs len) s = .next (out s err) ∧ exec (.challenge nonce) s = .next (out s err) ∧
        exec (.getMeasurements nonce true) s = .next (out s err) ∧ exec (.getMeasurements nonce false) s = .next (out s err)) ∧
      (s.spdm = 3 →
        let signed := fun (code : Nat) (body : List Byte) =>
          out { s with boot := { s.boot with leaf := s.boot.leaf + 1 } } (.spdm code (body ++ lmsSign s.boot.leaf body))
        exec (.getCertificate ofs len) s = .next (out s (.spdm 0x02 ((List.range len).map (fun j => Config.certificateByte (ofs + j))))) ∧
        exec (.getMeasurements nonce false) s = .next (out s (.spdm 0x60 s.measurements)) ∧
        (s.boot.leaf < 1048576 →
          exec (.challenge nonce) s = .next (signed 0x03 (nonceBytes nonce ++ sha256 s.measurements)) ∧
          exec (.getMeasurements nonce true) s = .next (signed 0x60 (s.measurements ++ nonceBytes nonce))) ∧
        (1048576 ≤ s.boot.leaf → exec (.challenge nonce) s = .next (out s (.spdm 0x7F [0x05])) ∧
          exec (.getMeasurements nonce true) s = .next (out s (.spdm 0x7F [0x05])))))

/-- The management commands (R196, R293, R332, R339, R342, R365, R434) and the image checks (R436): port 0 accepts them and without
it they change nothing; each replaces exactly its part of the boot store; a halted steward core runs again from word 0, without what
its halted firing still held (log 33); MINIMAL_MODE_EXIT restarts the part with the counter at 0; VERIFY_IMAGE sets BUSY, and the
result replaces it. -/
def Obligations.ManagementCommandsAct : Prop :=
  ∀ (s : State) (die c : Nat) (key image sig : List Byte) (mask : BitVec 32) (dx dy dz dev l : Nat),
    let steward := s.core (stewardOf die)
    (s.ports.contains 0 = false →
      ∀ i ∈ [Instr.imageKeyReplace key, .firmwareReplace .security ⟨image, sig⟩, .firmwareReplace .steward ⟨image, sig⟩,
        .firmwareReplace .management ⟨image, sig⟩, .configurationRecordReplace dx dy dz dev, .healthMapClear die c mask, .stewardRestart die,
        .minimalModeExit, .linkDegradationClear (.torus c l), .linkDegradationClear (.device l)], exec i s = .next s) ∧
    (s.ports.contains 0 = true →
      exec (.imageKeyReplace key) s = .next { s with boot := { s.boot with imageKey := key } } ∧
      exec (.firmwareReplace .security ⟨image, sig⟩) s =
        .next { s with boot := { s.boot with security := image, signatures := tabSet s.boot.signatures 0 sig } } ∧
      exec (.firmwareReplace .steward ⟨image, sig⟩) s =
        .next { s with boot := { s.boot with steward := image, signatures := tabSet s.boot.signatures 1 sig } } ∧
      exec (.firmwareReplace .management ⟨image, sig⟩) s =
        .next { s with boot := { s.boot with management := image, signatures := tabSet s.boot.signatures 2 sig } } ∧
      (1 ≤ dx → dx ≤ 16 → 1 ≤ dy → dy ≤ 8 → 1 ≤ dz → dz ≤ 8 → dev < 1024 → exec (.configurationRecordReplace dx dy dz dev) s =
        .next { s with boot := { s.boot with dx := dx, dy := dy, dz := dz, device := dev } }) ∧
      (dx = 0 ∨ 16 < dx ∨ dy = 0 ∨ 8 < dy ∨ dz = 0 ∨ 8 < dz ∨ 1024 ≤ dev → exec (.configurationRecordReplace dx dy dz dev) s = .next s) ∧
      (c < 120 →
        let k := die * 120 + c
        exec (.healthMapClear die (0x1000 + 4 * c) mask) s = .next (({ s with boot := { s.boot with
          health := tabSet s.boot.health k (tabGet 0 s.boot.health k &&& ~~~mask) } }.modCluster k (fun x =>
            { x with health := x.health &&& ~~~mask })).linksBack (((List.range 4).filter (fun d => bitN mask (21 + d))).map (LinkId.torus k)))) ∧
      exec (.healthMapClear die 0x11E0 mask) s = .next ({ s with boot := { s.boot with
        dieHealth := tabSet s.boot.dieHealth die (tabGet 0 s.boot.dieHealth die &&& ~~~mask) } }.modDie die (fun d =>
          { d with health := d.health &&& ~~~mask })) ∧
      exec (.healthMapClear 0 0x11E4 mask) s = .next ({ s with
        dlinks := s.dlinks &&& ~~~mask, boot := { s.boot with dlinks := s.boot.dlinks &&& ~~~mask } }.linksBack
          (((List.range 6).filter (fun l => bitN mask l)).map LinkId.device)) ∧
      (steward.halted = false → exec (.stewardRestart die) s = .next s) ∧
      (steward.halted = true → ∃ t, exec (.stewardRestart die) s = .next t ∧ t.mem = s.mem ∧ t.net = s.net ∧
        (steward.firing = none → t.dies = s.dies ∧ t.core (stewardOf die) =
          { steward with halted := false, firing := some (firmwareFiring (stewardOf die) s.fresh) }) ∧
        (∀ f, steward.firing = some f → t.core (stewardOf die) = { steward with
          halted := false, firing := some (firmwareFiring (stewardOf die) s.fresh), queue := steward.queue.filter (fun (h : Held) => h.ended) } ∧
          t.jobsOf (copyQueueOf (stewardOf die)) = dropJobs (s.jobsOf (copyQueueOf (stewardOf die))) f.jobs)) ∧
      (s.start.minimal = false → exec .minimalModeExit s = .next s) ∧
      (s.start.minimal = true → ∃ t, exec .minimalModeExit s = .next t ∧ t.stage = 1 ∧ t.boot.fails = 0 ∧ t.start.minimal = false)) ∧
    (firmwareFiring (stewardOf die) s.fresh).pc = 0 ∧
    (s.spmbox.busy = true → exec .verifyImage s = .next s) ∧
    (s.spmbox.busy = false → exec .verifyImage s = .next { s with spmbox := { busy := true, words := tabSet s.spmbox.words 0 0x100 } }) ∧
    (s.spmbox.busy = true → exec .verifyImageResult s =
      .next { s.touchImage with spmbox := { words := tabSet s.spmbox.words 0 (BitVec.ofNat 64 (s.imageResult * 256)), busy := false } }) ∧
    (s.spmbox.busy = false → exec .verifyImageResult s = .next s)

/-- START and its stages (R340, R432 to R434): a start takes every register to its reset value, keeps the boot store and sets the
in-progress flag; a flag that still stood counts as a failed start with code 0x09; three failures select minimal mode; stages follow
each other; stages 1 and 2 go on only with signed firmware, stage 5 only with a harvest map of at most two clusters of a die; a
stage that fails, times out or misses its steward or port ends the start with its cause and clears the flag; a completed start
brings its ports up, says that it is ready and, in normal mode, zeroes the counter. That the outbox, the counters of free values and
the agenda are kept, that a failed start clears the flag, and that it is counted before the mode is chosen, are the model's choices
(log 33). -/
def Obligations.StartsRunTheirStages : Prop :=
  ∀ (s : State) (die code detail port l : Nat),
    (s.boot.inProgress = false → s.boot.fails ≤ 3 → exec .start s =
      .next { State.reset with
        boot := { s.boot with inProgress := true }, outbox := s.outbox, fresh := s.fresh, keyNo := s.keyNo, agenda := s.agenda,
        stage := 1, start := { s.start with fails := s.boot.fails, minimal := decide (s.boot.fails = 3) } }) ∧
    (s.boot.inProgress = true → s.boot.fails < 3 → ∃ t, exec .start s = .next t ∧ t.boot.fails = s.boot.fails + 1 ∧ t.start.code = 0x09 ∧
      t.start.stage = s.stage ∧ t.start.minimal = decide (s.boot.fails = 2) ∧ t.mem = [] ∧ t.stage = 1) ∧
    (s.stage = 1 → s.boot.firmwareOk 0 s.boot.security = true → exec (.startStage .completed) s = .next { s with stage := 2 }) ∧
    (s.stage = 2 → s.boot.firmwareOk 1 s.boot.steward = true → s.boot.firmwareOk 2 s.boot.management = true →
      s.start.minimal = false → exec (.startStage .completed) s = .next { s with stage := 3 }) ∧
    (s.stage = 5 → s.boot.fusedOk = true → ∃ t, exec (.startStage .completed) s = .next t ∧ t.stage = 6) ∧
    (s.stage = 6 → exec (.startStage .completed) s = .next { s with stage := 7 }) ∧
    (s.stage = 7 → s.start.minimal = false → ∃ t, exec (.startStage .completed) s = .next t ∧ t.stage = 8 ∧ t.ports = [0, 1] ∧
      t.boot.inProgress = false ∧ t.boot.fails = 0 ∧ t.outbox = s.outbox ++ [.ready]) ∧
    (s.stage = 7 → s.start.minimal = true → ∃ t, exec (.startStage .completed) s = .next t ∧ t.stage = 8 ∧ t.ports = [0] ∧
      t.boot.inProgress = false ∧ t.boot.fails = s.boot.fails ∧ t.outbox = s.outbox ++ [.ready]) ∧
    (s.start.minimal = false → s.boot.fails < 3 →
      let fails := fun (i : Instr) (d cd dt : Nat) => ∃ t, exec i s = .next t ∧ t.stage = 0 ∧ t.boot.inProgress = false ∧
        t.boot.fails = s.boot.fails + 1 ∧ t.start.stage = s.stage ∧ t.start.die = d ∧ t.start.code = cd ∧ t.start.detail = dt
      (s.stage = 1 → s.boot.firmwareOk 0 s.boot.security = false → fails (.startStage .completed) 0 0x01 0) ∧
      (s.stage = 2 → s.boot.firmwareOk 1 s.boot.steward = false ∨ s.boot.firmwareOk 2 s.boot.management = false →
        fails (.startStage .completed) 0 0x02 0) ∧
      (s.stage = 5 → s.boot.fusedOk = false → fails (.startStage .completed) 0 0x05 0) ∧
      (stageCause s.stage code = true → fails (.startStage (.failed die code detail)) die code detail) ∧
      (1 ≤ s.stage → s.stage ≤ 7 → fails .stageWatchdog 0 0x08 0) ∧
      (s.stage = 6 → die < 4 → fails (.stewardReadyTimeout die) die 0x06 0) ∧
      (s.stage = 7 → port < 2 → fails (.ethernetTimeout port) 0 0x07 port)) ∧
    (s.stage = 4 → s.links.contains l = true → exec (.startStage (.linkFailed l)) s = .next (s.retireDlink l 0x04))

/-- The power controller (R346, R348), the monitor units (R88, R89) and the throttle flag: above 105 °C or above the budget the
clock falls by a step, down to 1200 MHz; it rises again after 1 ms below 95 % of the budget; a unit that records takes an event of
its latency class as it comes, and the level of its level class at each period's end; a clear zeroes its figures. The step is the
model's choice for one measurement (log 51). -/
def Obligations.PowerAndMonitorsMeasure : Prop :=
  ∀ (s : State) (w t d core n x : Nat),
    exec .throttleFlagClear s = .next { s with power := { s.power with thr := false } } ∧
    (∃ p, exec (.powerMeasurement w t d) s = .next { s with power := p } ∧ p.watts = w ∧ p.tmax = t ∧ p.droop = d ∧
      p.budget = s.power.budget ∧
      (420 < t ∨ s.power.budget < w → p.mhz = max 1200 (s.power.mhz - 25)) ∧
      (420 < t → 1200 < s.power.mhz → p.thr = true) ∧ (s.power.thr = true → p.thr = true) ∧
      (t ≤ 400 → w ≤ s.power.budget → (100 * w ≤ 95 * s.power.budget → s.power.low + 1 < 100) → p.mhz = s.power.mhz) ∧
      (t ≤ 400 → w ≤ s.power.budget → 100 * w ≤ 95 * s.power.budget → 100 ≤ s.power.low + 1 →
        p.mhz = min 2700 (s.power.mhz + 25))) ∧
    (let c := s.core core
     let cls := fieldN c.monsel0 0 6
     let take := fun (x : Nat) => s.setCore core { c with mon0 := c.mon0.add x }
     (bitN c.monsel0 6 = true →
       (cls < 8 → exec (.monitorSample (.core core 0) x) s = .next (take x)) ∧
       (8 ≤ cls → s.cycle % 2 ^ (fieldN c.monsel0 8 4 + 4) = 0 →
         (cls = 0x10 → exec (.monitorSample (.core core 0) x) s = .next (take c.ready.length)) ∧
         (cls = 0x11 → exec (.monitorSample (.core core 0) x) s = .next (take c.occupied)) ∧
         (cls = 0x13 → exec (.monitorSample (.core core 0) x) s =
           .next (take (c.frames.filter (fun e => e.2.state == .spilled)).length)) ∧
         (cls = 0x14 ∨ cls = 0x15 → exec (.monitorSample (.core core 0) x) s = .next (take x)) ∧
         (cls < 0x10 ∨ 0x15 < cls → ∃ t, exec (.monitorSample (.core core 0) x) s = .next t ∧ (t.core core).mon0 = c.mon0)) ∧
       (8 ≤ cls → s.cycle % 2 ^ (fieldN c.monsel0 8 4 + 4) ≠ 0 → ∃ t, exec (.monitorSample (.core core 0) x) s = .next t ∧
         (t.core core).mon0 = c.mon0)) ∧
     (bitN c.monsel0 6 = false → ∃ t, exec (.monitorSample (.core core 0) x) s = .next t ∧ (t.core core).mon0 = c.mon0) ∧
     (bitN c.monsel1 6 = true → fieldN c.monsel1 0 6 < 8 → exec (.monitorSample (.core core 1) x) s =
       .next (s.setCore core { c with mon1 := c.mon1.add x }))) ∧
    exec (.monitorClear (.core core 0)) s = .next (s.setCore core { s.core core with mon0 := MonFig.zero }) ∧
    exec (.monitorClear (.core core 1)) s = .next (s.setCore core { s.core core with mon1 := MonFig.zero }) ∧
    (bitN ((s.die d).mon n).1 6 = true → unitLatency n (unitClass n ((s.die d).mon n).1) = true →
      exec (.monitorSample (.other d n) x) s = .next (s.modDie d (fun k =>
        { k with mons := tabSet k.mons n (((s.die d).mon n).1, ((s.die d).mon n).2.add x) }))) ∧
    (∀ m : MonFig, m.cnt < 2 ^ 32 - 1 → (m.add x).cnt = m.cnt + 1 ∧ (m.add x).sum = m.sum + x ∧ x ≤ (m.add x).max ∧
      m.max ≤ (m.add x).max ∧ (0 < m.cnt → (m.add x).min ≤ x ∧ (m.add x).min ≤ m.min) ∧ (m.cnt = 0 → (m.add x).min = x))

/-- The error log and the registers (R365, R367, R368, R389, R411, R420, R437): a record is appended at the tail or, when the log is
full, dropped and counted with ovf set; LOG_APPEND appends the four words of the port; ovf is cleared with the count; FIRSTX,
cluster flags, KERFREP and QRING are cleared where a 1 is written; a debug bit stops and resumes its core; a root table, a work
entry, a parked context, a region and a key id take their words. The offsets from 0x30_0000 up, and that the difference in the
counter of an entry that stays OPEN at its level travels to it, are the model's choices (log 9). -/
def Obligations.LogsAndRegistersAreWritten : Prop :=
  ∀ (s : State) (die core cl i : Nat) (v : Word) (r : Rec),
    let w := s.work die i
    (∀ l : ErrLog, l.full = false → (l.append r).recs = tabSet l.recs l.tail r ∧ (l.append r).tail = (l.tail + 1) % 256 ∧
      ((l.append r).full = true ↔ (l.tail + 1) % 256 = l.head) ∧ (l.append r).dropped = l.dropped) ∧
    (∀ l : ErrLog, l.full = true → l.dropped < 65535 → (l.append r).recs = l.recs ∧ (l.append r).tail = l.tail ∧
      (l.append r).ovf = true ∧ (l.append r).dropped = l.dropped + 1) ∧
    (∃ t, exec (.logAppend die) s = .next t ∧
      (t.die die).log = (s.die die).log.append (BitVec.ofNat 256 ((List.range 4).foldl (fun n j =>
        n + (tabGet 0 (s.die die).logPort j).toNat * 2 ^ (64 * j)) 0)) ∧ t.mem = s.mem ∧ t.cores = s.cores) ∧
    exec (.firstxEmpty core) s = .next (s.setCore core { s.core core with firstx := (s.core core).firstx &&& ~~~(0xFF#256) }) ∧
    (∃ t, exec (.logOverflowClear die) s = .next t ∧ (t.die die).log.ovf = false ∧ (t.die die).log.dropped = 0 ∧
      (t.die die).log.recs = (s.die die).log.recs ∧ (t.die die).log.tail = (s.die die).log.tail) ∧
    exec (.clusterFlagClear cl v) s = .next (s.modCluster cl (fun k => { k with flags := k.flags &&& ~~~(v.setWidth 8) })) ∧
    (∃ t, exec (.kerfrepClear die) s = .next t ∧ (t.die die).kerfrep.getLsbD 0 = false ∧ fieldN (t.die die).kerfrep 43 16 = 0) ∧
    (∃ t, exec (.qringOverflowClear die) s = .next t ∧ (t.die die).qring.ovf = false ∧ (t.die die).qring.tail = (s.die die).qring.tail) ∧
    exec (.registerWrite die 0x300 v) s = .next (s.modDie die (fun d => { d with resctl := resctlOf v })) ∧
    exec (.registerWrite die 0x2000 v) s = .next (s.modCluster (die * 120) (fun k => { k with flags := k.flags &&& ~~~(v.setWidth 8) })) ∧
    (∀ a, a < 4096 → exec (.registerWrite die (0x300000 + 8 * a) v) s =
      .next (s.modDie die (fun d => { d with roots := tabSet d.roots a (v.toNat % 2 ^ 52) }))) ∧
    (core < 2048 → v.getLsbD 3 = false →
      (v.getLsbD 0 = true → exec (.registerWrite die (0x10000 + 8 * core) v) s =
        .next (s.modCore (die * 2048 + core) (fun k => { k with dbgStop := true }))) ∧
      (v.getLsbD 0 = false → (s.core (die * 2048 + core)).dbgStop = true → exec (.registerWrite die (0x10000 + 8 * core) v) s =
        .next (s.modCore (die * 2048 + core) (fun k =>
          { k with dbgStop := false, ready := k.ready.map (s.reread (die * 2048 + core)) }))) ∧
      (v.getLsbD 0 = false → (s.core (die * 2048 + core)).dbgStop = false →
        exec (.registerWrite die (0x10000 + 8 * core) v) s = .next s)) ∧
    (i < 256 →
      (w.state = .opened → fieldN v 3 2 = 1 → fieldN v 0 3 = w.level → exec (.registerWrite die (0x308000 + 16 * i) v) s =
        .next (s.sendWork (.core (stewardOf die)) (s.workId die i) ((fieldN v 8 24 : Int) - (w.counter : Int)) 0)) ∧
      (w.state ≠ .opened ∨ fieldN v 3 2 ≠ 1 ∨ fieldN v 0 3 ≠ w.level → exec (.registerWrite die (0x308000 + 16 * i) v) s =
        .next (s.setWork die i (w.opened v))) ∧
      exec (.registerWrite die (0x308008 + 16 * i) v) s = .next (s.setWork die i { w with chandle := v.setWidth 32, cslot := fieldN v 32 6 })) ∧
    (w.opened v).level = fieldN v 0 3 ∧ (w.opened v).counter = fieldN v 8 24 ∧ (w.opened v).tenant = fieldN v 32 12 ∧
    workStateCode (w.opened v).state = fieldN v 3 2 ∧ (w.opened v).seq = w.seq ∧
    (i < 16 → ∃ t, exec (.registerWrite die (0x309000 + 8 * i) v) s = .next t ∧ t.mem = s.mem ∧ t.cores = s.cores ∧
      (t.die die).parkedCtx = (if v.getLsbD 0 = true then tabSet (s.die die).parkedCtx i (fieldN v 1 12, fieldN v 16 48)
        else tabDel (s.die die).parkedCtx i)) ∧
    (i < 256 → exec (.registerWrite die (0x30A000 + 8 * i) v) s = .next { s with
      regions := if v.getLsbD 0 = true then tabSet s.regions i (regionOf v) else tabDel s.regions i }) ∧
    (i < 512 → (v.getLsbD 0 = true → exec (.registerWrite die (0x30B000 + 8 * i) v) s = .next (s.loadKey i (fieldN v 1 12) (fieldN v 13 16))) ∧
      (v.getLsbD 0 = false → exec (.registerWrite die (0x30B000 + 8 * i) v) s = .next { s with keys := tabDel s.keys i }))

/-- Links (R412 to R416), detected errors (R362, R364, R402) and stalls (R431): a corrected replay is recorded, flagged at the
receiving cluster and counted; one that fails retires its link, and what its packets were part of is planned again; a retired link
reports nothing; an error where nothing is read leaves nothing; a corrected or retried one leaves its record and the corr flag; a
lasting one in a core's table stops and retires the core, one in HBM poisons its line; a frame or job within its threshold, or
reported already, is no stall. The unit codes of a lasting error are log 30; that the flag of a link error is set at the receiving
router is log 32. -/
def Obligations.LinksErrorsAndStallsAct : Prop :=
  ∀ (s : State) (c d core i pa : Nat) (a : ErrorArray) (q : JobQueue) (j : Job),
    (s.linkDead (c, d) = true → ∀ ok, exec (.linkReplay (.torus c d) ok) s = .next s) ∧
    (s.linkDead (c, d) = false →
      exec (.linkReplay (.torus c d) true) s = .next (((s.linkRecord (.torus c d) 0x01 5 1 true).setFlag (farRouter c d) 4).countReplay
        (.torus c d)) ∧
      exec (.linkReplay (.torus c d) false) s = .next ((((s.reroute (.torus c d)).retireBit c (21 + d)).linkRecord (.torus c d) 0x03 4 2
        false).redLost (.torus c d))) ∧
    (s.ports.contains 0 = true →
      let place := linkPlace (.torus c d)
      exec (.linkDegradationClear (.torus c d)) s = .next ((s.modDie place.1 (fun k =>
        { k with degraded := k.degraded.filter (fun x => x != place.2), replays := tabDel k.replays place.2 })).redBack (.torus c d))) ∧
    (s.errorAt a = none → ∀ how, exec (.uncorrectableError a how) s = .next s) ∧
    (∀ e, s.errorAt a = some e →
      let noted := fun (retry : Nat) => (s.logErr { e with unit := 5, retry := retry }).setFlag (clusterOf e.core) 4
      (keptByEcc a = true → exec (.uncorrectableError a .corrected) s = .next (noted 0)) ∧
      (keptByEcc a = false → exec (.uncorrectableError a .corrected) s = .next s) ∧
      exec (.uncorrectableError a .retried) s = .next (noted 1) ∧
      (a = .coreTable core → exec (.uncorrectableError a .lasting) s = .next (((s.logErr { e with unit := 2, retry := 2 }).modCore core
        (fun k => { k with stopped := true })).retireCore core)) ∧
      (a = .hbm pa → exec (.uncorrectableError a .lasting) s = .next ((s.logErr { e with unit := 1, retry := 2 }).poisonLine pa))) ∧
    (let f := (s.core core).frame i
     (f.state = .free ∨ f.reported = true ∨ s.cycle ≤ f.progress + s.stallLimit (dieOf core) →
       exec (.stallDetection (.frame core i)) s = .next s) ∧
     (∀ code slot, f.state ≠ .free → f.reported = false → f.progress + s.stallLimit (dieOf core) < s.cycle →
       s.frameStall core i = some (code, slot) →
       ∃ (u : State) (e : ErrInfo), exec (.stallDetection (.frame core i)) s = .next ((u.setFlag (clusterOf core) 7).modFrame core i
         (fun f => { f with reported := true })) ∧ u = s.logErr e ∧ e.cls = 0x14 ∧ e.code = code ∧ e.slot = slot ∧ e.core = core)) ∧
    (s.jobIn q i = some j → j.reported = true ∨ s.cycle ≤ j.progress + s.stallLimit (dieOf j.ctx.core) →
      exec (.stallDetection (.job q i)) s = .next s)

/-! ## Encoding, the step, reset, invariants, faults -/

/-- Words that the manual writes out decode to their instructions: one or more of every format (R176 to R183), CONT of R203 among
them; a word of an unassigned major, function, modifier, frame word or with an unused field set is rejected with the reason of R372.
-/
def Obligations.WrittenWordsDecode : Prop :=
  decode 0x00000001 = .ok .endf ∧ decode 0x14900001 = .ok (.addi 1 1 1) ∧ decode 0x34820000 = .ok (.fld .d 1 8) ∧
  decode 0x50A00098 = .ok (.ld .d 1 2 2) ∧ decode 0x5418D802 = .ok (.lds .d 12 3 2) ∧
  decode 0x2D300003 = .ok (.br .beq 2 3 3) ∧ decode 0x041F07C6 = .ok (.cont 0 31 0 31 6) ∧
  decode 0x7614C003 = .ok (.vfma .f32 .rne 4 1 2 3) ∧ decode 0x4020403A = .ok (.sig (some .pkg) 2 1 1) ∧
  decode 0x41304100 = .ok (.send none 2 3 1 8) ∧ decode 0x39100000 = .ok (.falloc 2 1) ∧
  decode 0x98000000 = .error .major ∧ decode 0x00000005 = .error .function ∧ decode 0x50000028 = .error .modifier ∧
  decode 0x0D000000 = .ok (.li 2 0) ∧ decode 0x0D100000 = .error .unusedField ∧ decode 0x34000100 = .error .unusedField ∧
  decode 0x34021000 = .ok (.fld .v 0 8) ∧ decode 0x34005000 = .error .frameWord ∧ decode 0x34005001 = .error .frameWord

/-- The decoder reads back every word that the encoder writes: no bit of an operand of a well-formed instruction is dropped, for
every instruction and every value of its operands (R176 to R183). -/
def Obligations.DecodeReadsEncodedWords : Prop :=
  ∀ (i : Instr) (w : IWord), i.wellFormed = true → encode i = some w → decode w = .ok i

/-- A word that decodes is the one word of a well-formed instruction, so no two words stand for one instruction and every word with
a nonzero unused field is rejected; the majors 0x26 to 0x3F are rejected as such (R178). -/
def Obligations.DecodedWordsAreEncodings : Prop :=
  ∀ (w : IWord),
    (∀ i, decode w = .ok i → i.wellFormed = true ∧ encode i = some w) ∧
    (38 ≤ (opOf w).toNat → decode w = .error .major)

/-- A step with nothing on the agenda takes one cycle and runs the instruction at the program counter of the current core: the 32
bits there, little-endian, in a sealed block, are decoded and executed. An agenda entry names the cycles that pass and the core that
issues, an event, or a packet that comes from or leaves for another device. A fetch outside a sealed block faults ILLEGAL 0x01; a
word that does not decode stops by name; a core that runs nothing, has halted or is retired does nothing. As a step begins, launch
entries that are DONE return to FREE (R448), and no other changes. The agenda is the model's own (log 1). -/
def Obligations.StepRunsTheDecodedInstruction : Prop :=
  ∀ (s : State) (m : Move) (l : List Move) (core k : Nat) (e : Instr) (p : Packet),
    let rest := State.tick { s with agenda := l } m.dt
    let live := fun (u : State) => (u.core u.cur).halted = false ∧ u.coreRetired u.cur = false
    let issues := fun (t u : State) =>
      (∀ f i, (u.core u.cur).firing = some f → live u → f.pc < 16384 →
        (u.core u.cur).sealed.getLsbD (f.pc / 1024) = true →
        decode (BitVec.ofNat 32 (leNat (memBytes u.mem (codeAddr u.cur f.pc) 4))) = .ok i → step t = exec i u) ∧
      (∀ f r, (u.core u.cur).firing = some f → live u → f.pc < 16384 →
        (u.core u.cur).sealed.getLsbD (f.pc / 1024) = true →
        decode (BitVec.ofNat 32 (leNat (memBytes u.mem (codeAddr u.cur f.pc) 4))) = .error r →
        step t = .refused (.reservedEncoding r.code)) ∧
      (∀ f, (u.core u.cur).firing = some f → live u →
        (16384 ≤ f.pc ∨ (u.core u.cur).sealed.getLsbD (f.pc / 1024) = false) →
        step t = .next (u.takeFault u.cur f 0x05 0x01 none)) ∧
      ((u.core u.cur).firing = none ∨ (u.core u.cur).halted = true ∨ u.coreRetired u.cur = true → step t = .next u)
    issues { s with agenda := [] } (State.tick { s with agenda := [] } 1) ∧
    (∀ n : Nat, (s.tick n).cycle = s.cycle + n ∧ (s.tick n).mem = s.mem ∧ (s.tick n).cores = s.cores ∧ (s.tick n).net = s.net ∧
      (∀ d i : Nat, let w := s.work d i
        (s.tick n).work d i = if w.level = 1 ∧ w.state = .done then w.freed else w)) ∧
    (m.kind = .issue core → issues { s with agenda := m :: l } { rest with cur := core }) ∧
    (m.kind = .event e → e.isEvent = true → step { s with agenda := m :: l } = exec e rest) ∧
    (m.kind = .event e → e.isEvent = false → step { s with agenda := m :: l } = .next rest) ∧
    (m.kind = .peer p → step { s with agenda := m :: l } = .next (peerArrival p rest)) ∧
    (m.kind = .depart k → step { s with agenda := m :: l } = .next (peerDepart k rest))

/-- What the manual says of the machine at reset: CYCLE and FIRINGS 0 (R206), FFLAGS 0 and DETMODE 0, FIRSTX empty (R366), the job
sequence counter 0 (R326), every frame FREE (R29), no firing, an empty commit queue, every field of UNACK 0 (R129), the error log
empty (R367), hold limit and stall threshold as reset, 2^24 and 2^28 cycles (R411). -/
def Obligations.ResetHoldsTheStatedValues : Prop :=
  ∀ (core die i n : Nat),
    let s := State.reset
    let c := s.core core
    let d := s.die die
    s.Wf ∧ s.cycle = 0 ∧ c.firings = 0 ∧ c.fflags = 0 ∧ c.detmode = false ∧ c.firstx = 0 ∧ c.more = false ∧ c.jobSeq = 0 ∧
    (c.frame i).state = .free ∧ c.firing = none ∧ c.queue = [] ∧ c.ready = [] ∧ c.halted = false ∧
    c.unack = { clus := 0, die := 0, pkg := 0, sys := 0, load := 0 } ∧ s.csrRead core 0x005 = 0 ∧
    s.csrRead core 0x002 = 0 ∧ s.csrRead core 0x003 = 0 ∧ s.csrRead core 0x004 = 0 ∧ s.csrRead core 0x006 = 0 ∧
    d.log.head = 0 ∧ d.log.tail = 0 ∧ d.log.full = false ∧ d.log.ovf = false ∧ d.log.dropped = 0 ∧ (s.work die n).state = .free ∧
    65536 * d.resctl.hold = 16777216 ∧ 2 ^ d.resctl.stallexp = 268435456

/-- Every step keeps the canonical form of memory: addresses rise strictly, and no entry equals what an unlisted address reads as.
-/
def Obligations.StepsKeepMemoryCanonical : Prop :=
  ∀ (s t : State), s.Wf → step s = .next t → t.Wf

/-- The limits of a tenant firing (R46, R51, R450): past 256 issued instructions LIMIT 0x01, past 48 held actions LIMIT 0x02, in
that order; with no room in the commit queue an instruction that holds an action waits. An instruction that only a steward core may
run is left out at a tenant core, where it stops by name before that (the model's choice, log 14). -/
def Obligations.IssueLimitsAreKept : Prop :=
  ∀ (s : State) (f : Firing) (i : Instr),
    (s.core s.cur).firing = some f → (s.core s.cur).halted = false → i.isEvent = false →
    (isSteward s.cur = false → stewardOnly i = false ∧ ∀ n, csrOf i = some n → csrTenant n = true) →
    (isSteward s.cur = false → 256 ≤ f.issued → exec i s = .next (s.takeFault s.cur f 0x02 0x01 none)) ∧
    (isSteward s.cur = false → f.issued < 256 → i.holds = true → 48 ≤ f.held →
      exec i s = .next (s.takeFault s.cur f 0x02 0x02 none)) ∧
    ((isSteward s.cur = true ∨ (f.issued < 256 ∧ f.held < 48)) → i.holds = true → 48 ≤ (s.core s.cur).occupied →
      exec i s = .next s)

/-- A fault at issue (R351 to R353, R366, R367). In tenant mode the firing ends and every action it held is discarded; FIRSTX takes
the record when it is empty and its more bit is set otherwise; the record enters the die's error log; FIRINGS and FFLAGS keep their
values and the core goes on. Unless a STREAM or MATCH slot pushed the firing, no byte of memory changes. On a steward core the
record is logged and issue stops. -/
def Obligations.FaultsEndTheFiring : Prop :=
  ∀ (s : State) (f : Firing) (cls code : Nat) (addr : Option Nat),
    let c := s.core s.cur
    let t := s.takeFault s.cur f cls code addr
    let u := t.core s.cur
    ∃ r : Rec, fieldN r 0 8 = cls % 256 ∧ fieldN r 8 8 = code % 256 ∧
      (t.die (dieOf f.ctx.core)).log = (s.die (dieOf f.ctx.core)).log.append r ∧
      (isSteward s.cur = true → u.halted = true ∧ u.firing = c.firing ∧ u.queue = c.queue ∧ t.mem = s.mem ∧ t.net = s.net) ∧
      (isSteward s.cur = false →
        u.firing = none ∧ u.queue = c.queue.filter (fun (h : Held) => h.ended) ∧ u.halted = c.halted ∧
        u.firings = c.firings ∧ u.fflags = c.fflags ∧
        (fieldN c.firstx 0 8 = 0 → u.firstx = r ∧ u.more = c.more) ∧
        (fieldN c.firstx 0 8 ≠ 0 → u.firstx = c.firstx ∧ u.more = true) ∧
        (∀ k, k ≠ s.cur → t.core k = s.core k) ∧ (f.ctx.reserved = false → t.mem = s.mem))

/-- The instructions that only read registers and compute change their destination temporary, the program counter and the count of
the firing, and, where the second component of Instr.computes is false, add bits to the firing flag set; nothing else: no other
temporary, no byte of memory, no special register, no other core. A conversion may wait for its code table instead, and then nothing
changes. -/
def Obligations.ComputingInstructionsKeepTheRest : Prop :=
  ∀ (s t : State) (f : Firing) (i : Instr) (td : Temp) (same : Bool), s.Issues f false → i.computes = some (td, same) →
    exec i s = .next t →
    t = s ∨ ∃ g : Firing, t = s.setFiring g ∧ (t.core s.cur).firing = some g ∧ (∀ u, u ≠ td → g.t u = f.t u) ∧
      g.pc = f.pc + 1 ∧ g.issued = f.issued + 1 ∧ g.held = f.held ∧ g.ctx = f.ctx ∧
      (∀ k, f.flags.getLsbD k = true → g.flags.getLsbD k = true) ∧ (same = true → g.flags = f.flags) ∧
      (∀ a, memByte t.mem a = memByte s.mem a) ∧ (t.core s.cur).queue = (s.core s.cur).queue ∧
      (t.core s.cur).fflags = (s.core s.cur).fflags ∧ (t.core s.cur).firstx = (s.core s.cur).firstx ∧
      (∀ k, k ≠ s.cur → t.core k = s.core k)
end

