-- ==== Sys2Proof/Laws/Encoding.lean ====
section
/-! SUPPORT. The fields of an instruction word: what packing and unpacking a format do to each other (R176), and the codes of the
modifiers (R180), so that no proof about encodings unfolds them. -/

namespace Sys2Proof

/-- A field of a word as a number. -/
theorem extract_toNat (w : IWord) (lo n : Nat) : (w.extractLsb' lo n).toNat = w.toNat / 2 ^ lo % 2 ^ n := by
  simp [BitVec.extractLsb'_toNat, Nat.shiftRight_eq_div_pow]

theorem opOf_packR (op : BitVec 6) (f : RForm) : opOf (packR op f) = op := by
  have h1 := op.isLt; have h2 := f.td.isLt; have h3 := f.ta.isLt; have h4 := f.tb.isLt; have h5 := f.tc.isLt
  have h6 := f.md.isLt; have h7 := f.fn.isLt
  apply BitVec.eq_of_toNat_eq
  simp only [opOf, extract_toNat, packR, BitVec.toNat_ofNat]
  omega

theorem unpackR_packR (op : BitVec 6) (f : RForm) : unpackR (packR op f) = f := by
  have h1 := op.isLt; have h2 := f.td.isLt; have h3 := f.ta.isLt; have h4 := f.tb.isLt; have h5 := f.tc.isLt
  have h6 := f.md.isLt; have h7 := f.fn.isLt
  cases f
  simp only [unpackR, RForm.mk.injEq] at *
  refine ⟨?_, ?_, ?_, ?_, ?_, ?_⟩ <;>
    (apply BitVec.eq_of_toNat_eq; simp only [extract_toNat, packR, BitVec.toNat_ofNat]; omega)

theorem opOf_packI (op : BitVec 6) (f : IForm) : opOf (packI op f) = op := by
  have h1 := op.isLt; have h2 := f.td.isLt; have h3 := f.ta.isLt; have h4 := f.im.isLt
  apply BitVec.eq_of_toNat_eq
  simp only [opOf, extract_toNat, packI, BitVec.toNat_ofNat]
  omega

theorem unpackI_packI (op : BitVec 6) (f : IForm) : unpackI (packI op f) = f := by
  have h1 := op.isLt; have h2 := f.td.isLt; have h3 := f.ta.isLt; have h4 := f.im.isLt
  cases f
  simp only [unpackI, IForm.mk.injEq] at *
  refine ⟨?_, ?_, ?_⟩ <;>
    (apply BitVec.eq_of_toNat_eq; simp only [extract_toNat, packI, BitVec.toNat_ofNat]; omega)

theorem opOf_packF (op : BitVec 6) (f : FForm) : opOf (packF op f) = op := by
  have h1 := op.isLt; have h2 := f.t.isLt; have h3 := f.fw.isLt; have h4 := f.md.isLt; have h5 := f.fn.isLt
  apply BitVec.eq_of_toNat_eq
  simp only [opOf, extract_toNat, packF, BitVec.toNat_ofNat]
  omega

theorem unpackF_packF (op : BitVec 6) (f : FForm) : unpackF (packF op f) = f := by
  have h1 := op.isLt; have h2 := f.t.isLt; have h3 := f.fw.isLt; have h4 := f.md.isLt; have h5 := f.fn.isLt
  cases f
  simp only [unpackF, FForm.mk.injEq] at *
  refine ⟨?_, ?_, ?_, ?_⟩ <;>
    (apply BitVec.eq_of_toNat_eq; simp only [extract_toNat, packF, BitVec.toNat_ofNat]; omega)

theorem opOf_packX (op : BitVec 6) (f : XForm) : opOf (packX op f) = op := by
  have h1 := op.isLt; have h2 := f.fw.isLt; have h3 := f.tb.isLt; have h4 := f.md.isLt; have h5 := f.sl.isLt
  apply BitVec.eq_of_toNat_eq
  simp only [opOf, extract_toNat, packX, BitVec.toNat_ofNat]
  omega

theorem unpackX_packX (op : BitVec 6) (f : XForm) : unpackX (packX op f) = f := by
  have h1 := op.isLt; have h2 := f.fw.isLt; have h3 := f.tb.isLt; have h4 := f.md.isLt; have h5 := f.sl.isLt
  cases f
  simp only [unpackX, XForm.mk.injEq] at *
  refine ⟨?_, ?_, ?_, ?_⟩ <;>
    (apply BitVec.eq_of_toNat_eq; simp only [extract_toNat, packX, BitVec.toNat_ofNat]; omega)

theorem opOf_packS (op : BitVec 6) (f : SForm) : opOf (packS op f) = op := by
  have h1 := op.isLt; have h2 := f.tv.isLt; have h3 := f.th.isLt; have h4 := f.sl.isLt; have h5 := f.fw.isLt
  have h6 := f.fn.isLt
  apply BitVec.eq_of_toNat_eq
  simp only [opOf, extract_toNat, packS, BitVec.toNat_ofNat]
  omega

theorem unpackS_packS (op : BitVec 6) (f : SForm) : unpackS (packS op f) = f := by
  have h1 := op.isLt; have h2 := f.tv.isLt; have h3 := f.th.isLt; have h4 := f.sl.isLt; have h5 := f.fw.isLt
  have h6 := f.fn.isLt
  cases f
  simp only [unpackS, SForm.mk.injEq] at *
  refine ⟨?_, ?_, ?_, ?_, ?_⟩ <;>
    (apply BitVec.eq_of_toNat_eq; simp only [extract_toNat, packS, BitVec.toNat_ofNat]; omega)

theorem opOf_packB (op : BitVec 6) (f : BForm) : opOf (packB op f) = op := by
  have h1 := op.isLt; have h2 := f.ta.isLt; have h3 := f.tb.isLt; have h4 := f.cc.isLt; have h5 := f.off.isLt
  apply BitVec.eq_of_toNat_eq
  simp only [opOf, extract_toNat, packB, BitVec.toNat_ofNat]
  omega

theorem unpackB_packB (op : BitVec 6) (f : BForm) : unpackB (packB op f) = f := by
  have h1 := op.isLt; have h2 := f.ta.isLt; have h3 := f.tb.isLt; have h4 := f.cc.isLt; have h5 := f.off.isLt
  cases f
  simp only [unpackB, BForm.mk.injEq] at *
  refine ⟨?_, ?_, ?_, ?_⟩ <;>
    (apply BitVec.eq_of_toNat_eq; simp only [extract_toNat, packB, BitVec.toNat_ofNat]; omega)

theorem opOf_packW (op : BitVec 6) (f : WForm) : opOf (packW op f) = op := by
  have h1 := op.isLt; have h2 := f.ld.isLt; have h3 := f.st.isLt; have h4 := f.cp.isLt; have h5 := f.tl.isLt
  have h6 := f.sl.isLt
  apply BitVec.eq_of_toNat_eq
  simp only [opOf, extract_toNat, packW, BitVec.toNat_ofNat]
  omega

theorem unpackW_packW (op : BitVec 6) (f : WForm) : unpackW (packW op f) = f := by
  have h1 := op.isLt; have h2 := f.ld.isLt; have h3 := f.st.isLt; have h4 := f.cp.isLt; have h5 := f.tl.isLt
  have h6 := f.sl.isLt
  cases f
  simp only [unpackW, WForm.mk.injEq] at *
  refine ⟨?_, ?_, ?_, ?_, ?_⟩ <;>
    (apply BitVec.eq_of_toNat_eq; simp only [extract_toNat, packW, BitVec.toNat_ofNat]; omega)

theorem opOf_packM (op : BitVec 6) (f : MForm) : opOf (packM op f) = op := by
  have h1 := op.isLt; have h2 := f.t.isLt; have h3 := f.tb.isLt; have h4 := f.off.isLt; have h5 := f.sz.isLt
  have h6 := f.fn.isLt
  apply BitVec.eq_of_toNat_eq
  simp only [opOf, extract_toNat, packM, BitVec.toNat_ofNat]
  omega

theorem unpackM_packM (op : BitVec 6) (f : MForm) : unpackM (packM op f) = f := by
  have h1 := op.isLt; have h2 := f.t.isLt; have h3 := f.tb.isLt; have h4 := f.off.isLt; have h5 := f.sz.isLt
  have h6 := f.fn.isLt
  cases f
  simp only [unpackM, MForm.mk.injEq] at *
  refine ⟨?_, ?_, ?_, ?_, ?_⟩ <;>
    (apply BitVec.eq_of_toNat_eq; simp only [extract_toNat, packM, BitVec.toNat_ofNat]; omega)

/-! ## Modifier codes -/

theorem VType.ofCode_code (t : VType) : VType.ofCode t.code = t := by cases t <;> rfl
theorem FType.ofCode_code (t : FType) : FType.ofCode t.code = .ok t := by cases t <;> rfl
theorem IType.ofCode_code (t : IType) : IType.ofCode t.code = .ok t := by cases t <;> rfl
theorem Rnd.ofCode_code (t : Rnd) : Rnd.ofCode t.code = .ok t := by cases t <;> rfl
theorem Scope.ofCode_code (t : Scope) : Scope.ofCode t.code = .ok t := by cases t <;> rfl
theorem FrameSize.ofCode_code (t : FrameSize) : FrameSize.ofCode t.code = t := by cases t <;> rfl
theorem MemSize.ofCode_code (t : MemSize) : MemSize.ofCode t.code = .ok t := by cases t <;> rfl
theorem SplitSize.ofCode_code (t : SplitSize) : SplitSize.ofCode t.code = t := by cases t <;> rfl
theorem BrCond.ofCode_code (t : BrCond) : BrCond.ofCode t.code = .ok t := by cases t <;> rfl
theorem CmpCond.ofCode_code (t : CmpCond) : CmpCond.ofCode t.code = .ok t := by cases t <;> rfl
theorem RedOp.ofCode_code (t : RedOp) : RedOp.ofCode t.code = .ok t := by cases t <;> rfl
theorem FenceKind.ofCode_code (t : FenceKind) : FenceKind.ofCode t.code = .ok t := by cases t <;> rfl

theorem mdHi_mdPair : ∀ hi lo : BitVec 3, mdHi (mdPair hi lo) = hi := by decide
theorem mdLo_mdPair : ∀ hi lo : BitVec 3, mdLo (mdPair hi lo) = lo := by decide
theorem mdPortOf_mdPort : ∀ (p : BitVec 2) (v : Bool), mdPortOf (mdPort p v) = p := by decide
theorem mdVecOf_mdPort : ∀ (p : BitVec 2) (v : Bool), mdVecOf (mdPort p v) = v := by decide

/-! ## Fields that an encoder writes and the decoder reads -/

theorem md_sat : ∀ (b : Bool) (hi : BitVec 3), (mdPair hi (satCode b)).getLsbD 0 = b ∧
    (mdPair hi (satCode b)).getLsbD 1 = false ∧ (mdPair hi (satCode b)).getLsbD 2 = false := by decide
theorem md_noSat : ∀ (hi : BitVec 3), (mdPair hi 0).getLsbD 0 = false ∧ (mdPair hi 0).getLsbD 1 = false ∧
    (mdPair hi 0).getLsbD 2 = false := by decide
theorem mdPort_low3 : ∀ (p : BitVec 2) (v : Bool), (mdPort p v).extractLsb' 0 3 = 0 := by decide
theorem mdPort_low4 : ∀ (p : BitVec 2), (mdPort p false).extractLsb' 0 4 = 0 := by decide
theorem md_frameSize : ∀ c : BitVec 2, (BitVec.ofNat 6 (c.toNat * 16)).extractLsb' 4 2 = c ∧
    (BitVec.ofNat 6 (c.toNat * 16)).extractLsb' 0 4 = 0 := by decide
theorem md_splitSize : ∀ c : BitVec 3, (BitVec.ofNat 8 (c.toNat * 32)).extractLsb' 5 3 = c ∧
    (BitVec.ofNat 8 (c.toNat * 32)).extractLsb' 0 5 = 0 := by decide
theorem md_amo (op : Nat) (h : op < 16) (wd : AWidth) (s : Scope) : AWidth.ofBit ((mdAmo op wd s).getLsbD 3) = wd ∧
    ((mdAmo op wd s).extractLsb' 4 4).toNat = op ∧ (mdAmo op wd s).extractLsb' 0 3 = s.code := by
  interval_cases op <;> cases wd <;> cases s <;> decide
theorem fn_tok (fn : Nat) (h : fn < 3) (rel : Option SendScope) :
    SendScope.ofRelCode ((BitVec.ofNat 5 (SendScope.relCode rel + fn)).extractLsb' 2 3).toNat = .ok rel ∧
      ((BitVec.ofNat 5 (SendScope.relCode rel + fn)).extractLsb' 0 2).toNat = fn := by
  interval_cases fn <;> rcases rel with _ | (_|_|_|_) <;> decide
theorem subIm_csr (sub v : Nat) (h : sub < 4) (hv : v < 4096) : ((subIm sub v).extractLsb' 18 2).toNat = sub ∧
    (subIm sub v).extractLsb' 0 12 = BitVec.ofNat 12 v ∧ (subIm sub v).extractLsb' 12 6 = 0 := by
  refine ⟨?_, ?_, ?_⟩
  · simp [subIm, BitVec.extractLsb'_toNat, Nat.shiftRight_eq_div_pow]; omega
  · apply BitVec.eq_of_toNat_eq; simp [subIm, BitVec.extractLsb'_toNat, Nat.shiftRight_eq_div_pow]; omega
  · apply BitVec.eq_of_toNat_eq; simp [subIm, BitVec.extractLsb'_toNat, Nat.shiftRight_eq_div_pow]; omega
theorem subIm_shift (sub v : Nat) (h : sub < 4) (hv : v < 64) : ((subIm sub v).extractLsb' 18 2).toNat = sub ∧
    (subIm sub v).extractLsb' 0 6 = BitVec.ofNat 6 v ∧ (subIm sub v).extractLsb' 6 12 = 0 := by
  refine ⟨?_, ?_, ?_⟩
  · simp [subIm, BitVec.extractLsb'_toNat, Nat.shiftRight_eq_div_pow]; omega
  · apply BitVec.eq_of_toNat_eq; simp [subIm, BitVec.extractLsb'_toNat, Nat.shiftRight_eq_div_pow]; omega
  · apply BitVec.eq_of_toNat_eq; simp [subIm, BitVec.extractLsb'_toNat, Nat.shiftRight_eq_div_pow]; omega
theorem md_codeTable : ∀ ct : BitVec 2, (BitVec.ofNat 6 ct.toNat).extractLsb' 0 2 = ct ∧
    (BitVec.ofNat 6 ct.toNat).extractLsb' 2 4 = 0 := by decide
theorem md_fence (k : FenceKind) (s : Scope) : ((BitVec.ofNat 6 (k.code * 16 + s.code.toNat)).extractLsb' 4 2).toNat = k.code ∧
    mdLo (BitVec.ofNat 6 (k.code * 16 + s.code.toNat)) = s.code ∧
    (BitVec.ofNat 6 (k.code * 16 + s.code.toNat)).getLsbD 3 = false := by cases k <;> cases s <;> decide

end Sys2Proof
end

