-- ==== Sys2Proof/Laws/Tables.lean ====
section
/-! SUPPORT. The laws of sparse tables and of the bytes of memory: what a read gives after a write, and that a write keeps
the canonical form. -/

namespace Sys2Proof.Machine

/-! ## Tables -/

@[simp] theorem tabGet_nil {α : Type} (d : α) (a : Nat) : tabGet d [] a = d := rfl

@[simp] theorem tabGet_tabSet_same {α : Type} (d : α) (t : Tab α) (a : Nat) (v : α) : tabGet d (tabSet t a v) a = v := by
  induction t with
  | nil => simp [tabSet, tabGet]
  | cons e t ih =>
    obtain ⟨k, w⟩ := e
    by_cases h1 : k = a
    · simp [tabSet, tabGet, h1]
    · by_cases h2 : a < k <;> simp [tabSet, tabGet, h1, h2, ih]

@[simp] theorem tabGet_tabSet_other {α : Type} (d : α) (t : Tab α) (a b : Nat) (v : α) (h : a ≠ b) :
    tabGet d (tabSet t a v) b = tabGet d t b := by
  induction t with
  | nil => simp [tabSet, tabGet, h]
  | cons e t ih =>
    obtain ⟨k, w⟩ := e
    by_cases h1 : k = a
    · subst h1; simp [tabSet, tabGet, h]
    · by_cases h2 : a < k <;> simp [tabSet, tabGet, h, h1, h2, ih]

@[simp] theorem tabSet_tabSet_same {α : Type} (t : Tab α) (a : Nat) (v w : α) :
    tabSet (tabSet t a v) a w = tabSet t a w := by
  induction t with
  | nil => simp [tabSet]
  | cons e t ih =>
    obtain ⟨k, u⟩ := e
    by_cases h1 : k = a
    · simp [tabSet, h1]
    · by_cases h2 : a < k <;> simp [tabSet, h1, h2, ih]

/-- The default of a lookup is what a key that is not listed reads as. -/
theorem tabGet_eq_getD {α : Type} (d : α) (t : Tab α) (a : Nat) : tabGet d t a = (tabFind t a).getD d := by
  induction t with
  | nil => rfl
  | cons e t ih =>
    obtain ⟨k, w⟩ := e
    by_cases h : k = a <;> simp [tabGet, tabFind, h, ih]

/-- A table whose entries are all changed alike, where the default is not. -/
theorem tabGet_map {α : Type} {d : α} (f : α → α) (hd : f d = d) (t : Tab α) (a : Nat) :
    tabGet d (t.map (fun e => (e.1, f e.2))) a = f (tabGet d t a) := by
  induction t with
  | nil => exact hd.symm
  | cons e t ih =>
    by_cases h : e.1 = a <;> simp [tabGet, h, ih]

/-! ## Memory -/

@[simp] theorem memByte_memPut_same (m : List Host.Cell) (a : Nat) (v : Byte) (h : memWf m = true) :
    memByte (memPut m a v) a = v := by
  have above : ∀ (b : Nat) (l : List Host.Cell), memAbove b l = true → ∀ c, c ≤ b → memByte l c = 0 := by
    intro b l
    induction l generalizing b with
    | nil => intro _ c _; rfl
    | cons e l ih =>
      obtain ⟨k, w⟩ := e
      intro hl c hc
      simp only [memAbove, Bool.and_eq_true, decide_eq_true_eq] at hl
      have hk : k ≠ c := by omega
      simp only [memByte, hk, if_false]
      exact ih k hl.2 c (by omega)
  have key : ∀ (l : List Host.Cell), (∀ k w t, l = (k, w) :: t → memAbove k t = true) → memByte (memPut l a v) a = v := by
    intro l
    induction l with
    | nil => intro _; by_cases hv : v = 0#8 <;> simp [memPut, memByte, hv]
    | cons e l ih =>
      obtain ⟨k, w⟩ := e
      intro hl
      have hab := hl k w l rfl
      by_cases h1 : k = a
      · subst h1
        by_cases hv : v = 0#8
        · simp [memPut, hv, above k l hab k (Nat.le_refl k)]
        · simp [memPut, memByte, hv]
      · by_cases h2 : a < k
        · by_cases hv : v = 0#8
          · simp [memPut, h1, h2, hv, memByte, above k l hab a (by omega)]
          · simp [memPut, memByte, h1, h2, hv]
        · simp only [memPut, h1, h2, if_false, memByte]
          apply ih
          intro k' w' t' e
          subst e
          simp only [memAbove, Bool.and_eq_true] at hab
          exact hab.2
  apply key
  intro k w t e
  subst e
  simp only [memWf, Bool.and_eq_true] at h
  exact h.2

@[simp] theorem memByte_memPut_other (m : List Host.Cell) (a b : Nat) (v : Byte) (h : a ≠ b) :
    memByte (memPut m a v) b = memByte m b := by
  induction m with
  | nil => by_cases hv : v = 0#8 <;> simp [memPut, memByte, hv, h]
  | cons e t ih =>
    obtain ⟨k, w⟩ := e
    by_cases h1 : k = a
    · subst h1
      by_cases hv : v = 0#8 <;> simp [memPut, memByte, hv, h]
    · by_cases h2 : a < k
      · by_cases hv : v = 0#8 <;> simp [memPut, memByte, h, h1, h2, hv]
      · simp [memPut, memByte, h1, h2, ih]

theorem memAbove_memPut (l : List Host.Cell) (b a : Nat) (v : Byte) (h : memAbove b l = true) (hb : b < a) :
    memAbove b (memPut l a v) = true := by
  induction l generalizing b with
  | nil => by_cases hv : v = 0#8 <;> simp [memPut, memAbove, hv, hb]
  | cons e t ih =>
    obtain ⟨k, w⟩ := e
    simp only [memAbove, Bool.and_eq_true, decide_eq_true_eq] at h
    obtain ⟨⟨hk, hw⟩, ht⟩ := h
    have lift : ∀ (l : List Host.Cell), memAbove k l = true → memAbove b l = true := by
      intro l hl
      cases l with
      | nil => rfl
      | cons e l =>
        simp only [memAbove, Bool.and_eq_true, decide_eq_true_eq] at hl ⊢
        exact ⟨⟨by omega, hl.1.2⟩, hl.2⟩
    by_cases h1 : k = a
    · subst h1
      by_cases hv : v = 0#8
      · simpa [memPut, hv] using lift t ht
      · simp [memPut, hv, memAbove, hk, ht]
    · by_cases h2 : a < k
      · by_cases hv : v = 0#8
        · simpa [memPut, h1, h2, hv, memAbove, hk, ht] using hw
        · simpa [memPut, h1, h2, hv, memAbove, hb, ht] using hw
      · simp only [memPut, h1, h2, if_false, memAbove, Bool.and_eq_true, decide_eq_true_eq]
        exact ⟨⟨hk, hw⟩, ih k ht (by omega)⟩

theorem memWf_of_above (b : Nat) (l : List Host.Cell) (h : memAbove b l = true) : memWf l = true := by
  cases l with
  | nil => rfl
  | cons e t =>
    simp only [memAbove, memWf, Bool.and_eq_true] at h ⊢
    exact ⟨h.1.2, h.2⟩

/-- Writing a byte keeps the canonical form of memory. -/
theorem memWf_memPut (m : List Host.Cell) (a : Nat) (v : Byte) (h : memWf m = true) : memWf (memPut m a v) = true := by
  cases m with
  | nil => by_cases hv : v = 0#8 <;> simp [memPut, memWf, hv, memAbove]
  | cons e t =>
    obtain ⟨k, w⟩ := e
    simp only [memWf, Bool.and_eq_true, decide_eq_true_eq] at h
    obtain ⟨hw, ht⟩ := h
    by_cases h1 : k = a
    · subst h1
      by_cases hv : v = 0#8
      · simpa [memPut, hv] using memWf_of_above k t ht
      · simp [memPut, hv, memWf, ht]
    · by_cases h2 : a < k
      · by_cases hv : v = 0#8
        · simpa [memPut, h1, h2, hv, memWf, ht] using hw
        · simpa [memPut, h1, h2, hv, memWf, memAbove, ht] using hw
      · simp only [memPut, h1, h2, if_false, memWf, Bool.and_eq_true, decide_eq_true_eq]
        exact ⟨hw, memAbove_memPut t k a v ht (by omega)⟩

/-- Writing bytes keeps the canonical form of memory. -/
theorem memWf_memPuts (m : List Host.Cell) (a : Nat) (bs : List Byte) (h : memWf m = true) :
    memWf (memPuts m a bs) = true := by
  induction bs generalizing m a with
  | nil => exact h
  | cons b t ih => exact ih _ _ (memWf_memPut m a b h)

/-- A byte outside the bytes written reads as before. -/
theorem memByte_memPuts_other (m : List Host.Cell) (a b : Nat) (bs : List Byte) (h : b < a ∨ a + bs.length ≤ b) :
    memByte (memPuts m a bs) b = memByte m b := by
  induction bs generalizing m a with
  | nil => rfl
  | cons x t ih =>
    simp only [List.length_cons] at h
    rw [memPuts, ih (memPut m a x) (a + 1) (by omega), memByte_memPut_other m a b x (by omega)]

/-- The byte at each place written reads as the byte written there. -/
theorem memByte_memPuts_in (m : List Host.Cell) (a i : Nat) (bs : List Byte) (hm : memWf m = true) (h : i < bs.length) :
    memByte (memPuts m a bs) (a + i) = bs[i] := by
  induction bs generalizing m a i with
  | nil => simp at h
  | cons x t ih =>
    cases i with
    | zero =>
      rw [memPuts, memByte_memPuts_other _ _ _ _ (by omega)]
      simpa using memByte_memPut_same m a x hm
    | succ j =>
      rw [memPuts, show a + (j + 1) = a + 1 + j by omega]
      rw [ih (memPut m a x) (a + 1) j (memWf_memPut m a x hm) (by simpa using h)]
      simp

end Sys2Proof.Machine
end

