-- ==== Sys2Proof/Laws/State.lean ====
section
/-! SUPPORT. The laws of the updates of the state: what each update leaves of every field, and what the accessors of cores,
clusters and dies give after it. -/

namespace Sys2Proof.Machine

/-! ## setCore -/

@[simp] theorem setCore_mem (s : State) (c : Nat) (x : CoreSt) : (s.setCore c x).mem = s.mem := rfl
@[simp] theorem setCore_side (s : State) (c : Nat) (x : CoreSt) : (s.setCore c x).side = s.side := rfl
@[simp] theorem setCore_poison (s : State) (c : Nat) (x : CoreSt) : (s.setCore c x).poison = s.poison := rfl
@[simp] theorem setCore_lineKey (s : State) (c : Nat) (x : CoreSt) : (s.setCore c x).lineKey = s.lineKey := rfl
@[simp] theorem setCore_clusters (s : State) (c : Nat) (x : CoreSt) : (s.setCore c x).clusters = s.clusters := rfl
@[simp] theorem setCore_dies (s : State) (c : Nat) (x : CoreSt) : (s.setCore c x).dies = s.dies := rfl
@[simp] theorem setCore_net (s : State) (c : Nat) (x : CoreSt) : (s.setCore c x).net = s.net := rfl
@[simp] theorem setCore_reqNo (s : State) (c : Nat) (x : CoreSt) : (s.setCore c x).reqNo = s.reqNo := rfl
@[simp] theorem setCore_keys (s : State) (c : Nat) (x : CoreSt) : (s.setCore c x).keys = s.keys := rfl
@[simp] theorem setCore_keyNo (s : State) (c : Nat) (x : CoreSt) : (s.setCore c x).keyNo = s.keyNo := rfl
@[simp] theorem setCore_regions (s : State) (c : Nat) (x : CoreSt) : (s.setCore c x).regions = s.regions := rfl
@[simp] theorem setCore_hostTab (s : State) (c : Nat) (x : CoreSt) : (s.setCore c x).hostTab = s.hostTab := rfl
@[simp] theorem setCore_drains (s : State) (c : Nat) (x : CoreSt) : (s.setCore c x).drains = s.drains := rfl
@[simp] theorem setCore_jobs (s : State) (c : Nat) (x : CoreSt) : (s.setCore c x).jobs = s.jobs := rfl
@[simp] theorem setCore_qps (s : State) (c : Nat) (x : CoreSt) : (s.setCore c x).qps = s.qps := rfl
@[simp] theorem setCore_rkeys (s : State) (c : Nat) (x : CoreSt) : (s.setCore c x).rkeys = s.rkeys := rfl
@[simp] theorem setCore_spmbox (s : State) (c : Nat) (x : CoreSt) : (s.setCore c x).spmbox = s.spmbox := rfl
@[simp] theorem setCore_power (s : State) (c : Nat) (x : CoreSt) : (s.setCore c x).power = s.power := rfl
@[simp] theorem setCore_start (s : State) (c : Nat) (x : CoreSt) : (s.setCore c x).start = s.start := rfl
@[simp] theorem setCore_stage (s : State) (c : Nat) (x : CoreSt) : (s.setCore c x).stage = s.stage := rfl
@[simp] theorem setCore_boot (s : State) (c : Nat) (x : CoreSt) : (s.setCore c x).boot = s.boot := rfl
@[simp] theorem setCore_dx (s : State) (c : Nat) (x : CoreSt) : (s.setCore c x).dx = s.dx := rfl
@[simp] theorem setCore_dy (s : State) (c : Nat) (x : CoreSt) : (s.setCore c x).dy = s.dy := rfl
@[simp] theorem setCore_dz (s : State) (c : Nat) (x : CoreSt) : (s.setCore c x).dz = s.dz := rfl
@[simp] theorem setCore_device (s : State) (c : Nat) (x : CoreSt) : (s.setCore c x).device = s.device := rfl
@[simp] theorem setCore_links (s : State) (c : Nat) (x : CoreSt) : (s.setCore c x).links = s.links := rfl
@[simp] theorem setCore_dlinks (s : State) (c : Nat) (x : CoreSt) : (s.setCore c x).dlinks = s.dlinks := rfl
@[simp] theorem setCore_ports (s : State) (c : Nat) (x : CoreSt) : (s.setCore c x).ports = s.ports := rfl
@[simp] theorem setCore_absent (s : State) (c : Nat) (x : CoreSt) : (s.setCore c x).absent = s.absent := rfl
@[simp] theorem setCore_rerouting (s : State) (c : Nat) (x : CoreSt) : (s.setCore c x).rerouting = s.rerouting := rfl
@[simp] theorem setCore_noRoutes (s : State) (c : Nat) (x : CoreSt) : (s.setCore c x).noRoutes = s.noRoutes := rfl
@[simp] theorem setCore_outbox (s : State) (c : Nat) (x : CoreSt) : (s.setCore c x).outbox = s.outbox := rfl
@[simp] theorem setCore_spdm (s : State) (c : Nat) (x : CoreSt) : (s.setCore c x).spdm = s.spdm := rfl
@[simp] theorem setCore_cycle (s : State) (c : Nat) (x : CoreSt) : (s.setCore c x).cycle = s.cycle := rfl
@[simp] theorem setCore_fresh (s : State) (c : Nat) (x : CoreSt) : (s.setCore c x).fresh = s.fresh := rfl
@[simp] theorem setCore_agenda (s : State) (c : Nat) (x : CoreSt) : (s.setCore c x).agenda = s.agenda := rfl
@[simp] theorem setCore_cur (s : State) (c : Nat) (x : CoreSt) : (s.setCore c x).cur = s.cur := rfl

/-! ## modCore -/

@[simp] theorem modCore_mem (s : State) (c : Nat) (f : CoreSt → CoreSt) : (s.modCore c f).mem = s.mem := rfl
@[simp] theorem modCore_side (s : State) (c : Nat) (f : CoreSt → CoreSt) : (s.modCore c f).side = s.side := rfl
@[simp] theorem modCore_poison (s : State) (c : Nat) (f : CoreSt → CoreSt) : (s.modCore c f).poison = s.poison := rfl
@[simp] theorem modCore_lineKey (s : State) (c : Nat) (f : CoreSt → CoreSt) : (s.modCore c f).lineKey = s.lineKey := rfl
@[simp] theorem modCore_clusters (s : State) (c : Nat) (f : CoreSt → CoreSt) : (s.modCore c f).clusters = s.clusters := rfl
@[simp] theorem modCore_dies (s : State) (c : Nat) (f : CoreSt → CoreSt) : (s.modCore c f).dies = s.dies := rfl
@[simp] theorem modCore_net (s : State) (c : Nat) (f : CoreSt → CoreSt) : (s.modCore c f).net = s.net := rfl
@[simp] theorem modCore_reqNo (s : State) (c : Nat) (f : CoreSt → CoreSt) : (s.modCore c f).reqNo = s.reqNo := rfl
@[simp] theorem modCore_keys (s : State) (c : Nat) (f : CoreSt → CoreSt) : (s.modCore c f).keys = s.keys := rfl
@[simp] theorem modCore_keyNo (s : State) (c : Nat) (f : CoreSt → CoreSt) : (s.modCore c f).keyNo = s.keyNo := rfl
@[simp] theorem modCore_regions (s : State) (c : Nat) (f : CoreSt → CoreSt) : (s.modCore c f).regions = s.regions := rfl
@[simp] theorem modCore_hostTab (s : State) (c : Nat) (f : CoreSt → CoreSt) : (s.modCore c f).hostTab = s.hostTab := rfl
@[simp] theorem modCore_drains (s : State) (c : Nat) (f : CoreSt → CoreSt) : (s.modCore c f).drains = s.drains := rfl
@[simp] theorem modCore_jobs (s : State) (c : Nat) (f : CoreSt → CoreSt) : (s.modCore c f).jobs = s.jobs := rfl
@[simp] theorem modCore_qps (s : State) (c : Nat) (f : CoreSt → CoreSt) : (s.modCore c f).qps = s.qps := rfl
@[simp] theorem modCore_rkeys (s : State) (c : Nat) (f : CoreSt → CoreSt) : (s.modCore c f).rkeys = s.rkeys := rfl
@[simp] theorem modCore_spmbox (s : State) (c : Nat) (f : CoreSt → CoreSt) : (s.modCore c f).spmbox = s.spmbox := rfl
@[simp] theorem modCore_power (s : State) (c : Nat) (f : CoreSt → CoreSt) : (s.modCore c f).power = s.power := rfl
@[simp] theorem modCore_start (s : State) (c : Nat) (f : CoreSt → CoreSt) : (s.modCore c f).start = s.start := rfl
@[simp] theorem modCore_stage (s : State) (c : Nat) (f : CoreSt → CoreSt) : (s.modCore c f).stage = s.stage := rfl
@[simp] theorem modCore_boot (s : State) (c : Nat) (f : CoreSt → CoreSt) : (s.modCore c f).boot = s.boot := rfl
@[simp] theorem modCore_dx (s : State) (c : Nat) (f : CoreSt → CoreSt) : (s.modCore c f).dx = s.dx := rfl
@[simp] theorem modCore_dy (s : State) (c : Nat) (f : CoreSt → CoreSt) : (s.modCore c f).dy = s.dy := rfl
@[simp] theorem modCore_dz (s : State) (c : Nat) (f : CoreSt → CoreSt) : (s.modCore c f).dz = s.dz := rfl
@[simp] theorem modCore_device (s : State) (c : Nat) (f : CoreSt → CoreSt) : (s.modCore c f).device = s.device := rfl
@[simp] theorem modCore_links (s : State) (c : Nat) (f : CoreSt → CoreSt) : (s.modCore c f).links = s.links := rfl
@[simp] theorem modCore_dlinks (s : State) (c : Nat) (f : CoreSt → CoreSt) : (s.modCore c f).dlinks = s.dlinks := rfl
@[simp] theorem modCore_ports (s : State) (c : Nat) (f : CoreSt → CoreSt) : (s.modCore c f).ports = s.ports := rfl
@[simp] theorem modCore_absent (s : State) (c : Nat) (f : CoreSt → CoreSt) : (s.modCore c f).absent = s.absent := rfl
@[simp] theorem modCore_rerouting (s : State) (c : Nat) (f : CoreSt → CoreSt) : (s.modCore c f).rerouting = s.rerouting := rfl
@[simp] theorem modCore_noRoutes (s : State) (c : Nat) (f : CoreSt → CoreSt) : (s.modCore c f).noRoutes = s.noRoutes := rfl
@[simp] theorem modCore_outbox (s : State) (c : Nat) (f : CoreSt → CoreSt) : (s.modCore c f).outbox = s.outbox := rfl
@[simp] theorem modCore_spdm (s : State) (c : Nat) (f : CoreSt → CoreSt) : (s.modCore c f).spdm = s.spdm := rfl
@[simp] theorem modCore_cycle (s : State) (c : Nat) (f : CoreSt → CoreSt) : (s.modCore c f).cycle = s.cycle := rfl
@[simp] theorem modCore_fresh (s : State) (c : Nat) (f : CoreSt → CoreSt) : (s.modCore c f).fresh = s.fresh := rfl
@[simp] theorem modCore_agenda (s : State) (c : Nat) (f : CoreSt → CoreSt) : (s.modCore c f).agenda = s.agenda := rfl
@[simp] theorem modCore_cur (s : State) (c : Nat) (f : CoreSt → CoreSt) : (s.modCore c f).cur = s.cur := rfl

/-! ## modCluster -/

@[simp] theorem modCluster_mem (s : State) (c : Nat) (f : Cluster → Cluster) : (s.modCluster c f).mem = s.mem := rfl
@[simp] theorem modCluster_side (s : State) (c : Nat) (f : Cluster → Cluster) : (s.modCluster c f).side = s.side := rfl
@[simp] theorem modCluster_poison (s : State) (c : Nat) (f : Cluster → Cluster) : (s.modCluster c f).poison = s.poison := rfl
@[simp] theorem modCluster_lineKey (s : State) (c : Nat) (f : Cluster → Cluster) : (s.modCluster c f).lineKey = s.lineKey := rfl
@[simp] theorem modCluster_cores (s : State) (c : Nat) (f : Cluster → Cluster) : (s.modCluster c f).cores = s.cores := rfl
@[simp] theorem modCluster_dies (s : State) (c : Nat) (f : Cluster → Cluster) : (s.modCluster c f).dies = s.dies := rfl
@[simp] theorem modCluster_net (s : State) (c : Nat) (f : Cluster → Cluster) : (s.modCluster c f).net = s.net := rfl
@[simp] theorem modCluster_reqNo (s : State) (c : Nat) (f : Cluster → Cluster) : (s.modCluster c f).reqNo = s.reqNo := rfl
@[simp] theorem modCluster_keys (s : State) (c : Nat) (f : Cluster → Cluster) : (s.modCluster c f).keys = s.keys := rfl
@[simp] theorem modCluster_keyNo (s : State) (c : Nat) (f : Cluster → Cluster) : (s.modCluster c f).keyNo = s.keyNo := rfl
@[simp] theorem modCluster_regions (s : State) (c : Nat) (f : Cluster → Cluster) : (s.modCluster c f).regions = s.regions := rfl
@[simp] theorem modCluster_hostTab (s : State) (c : Nat) (f : Cluster → Cluster) : (s.modCluster c f).hostTab = s.hostTab := rfl
@[simp] theorem modCluster_drains (s : State) (c : Nat) (f : Cluster → Cluster) : (s.modCluster c f).drains = s.drains := rfl
@[simp] theorem modCluster_jobs (s : State) (c : Nat) (f : Cluster → Cluster) : (s.modCluster c f).jobs = s.jobs := rfl
@[simp] theorem modCluster_qps (s : State) (c : Nat) (f : Cluster → Cluster) : (s.modCluster c f).qps = s.qps := rfl
@[simp] theorem modCluster_rkeys (s : State) (c : Nat) (f : Cluster → Cluster) : (s.modCluster c f).rkeys = s.rkeys := rfl
@[simp] theorem modCluster_spmbox (s : State) (c : Nat) (f : Cluster → Cluster) : (s.modCluster c f).spmbox = s.spmbox := rfl
@[simp] theorem modCluster_power (s : State) (c : Nat) (f : Cluster → Cluster) : (s.modCluster c f).power = s.power := rfl
@[simp] theorem modCluster_start (s : State) (c : Nat) (f : Cluster → Cluster) : (s.modCluster c f).start = s.start := rfl
@[simp] theorem modCluster_stage (s : State) (c : Nat) (f : Cluster → Cluster) : (s.modCluster c f).stage = s.stage := rfl
@[simp] theorem modCluster_boot (s : State) (c : Nat) (f : Cluster → Cluster) : (s.modCluster c f).boot = s.boot := rfl
@[simp] theorem modCluster_dx (s : State) (c : Nat) (f : Cluster → Cluster) : (s.modCluster c f).dx = s.dx := rfl
@[simp] theorem modCluster_dy (s : State) (c : Nat) (f : Cluster → Cluster) : (s.modCluster c f).dy = s.dy := rfl
@[simp] theorem modCluster_dz (s : State) (c : Nat) (f : Cluster → Cluster) : (s.modCluster c f).dz = s.dz := rfl
@[simp] theorem modCluster_device (s : State) (c : Nat) (f : Cluster → Cluster) : (s.modCluster c f).device = s.device := rfl
@[simp] theorem modCluster_links (s : State) (c : Nat) (f : Cluster → Cluster) : (s.modCluster c f).links = s.links := rfl
@[simp] theorem modCluster_dlinks (s : State) (c : Nat) (f : Cluster → Cluster) : (s.modCluster c f).dlinks = s.dlinks := rfl
@[simp] theorem modCluster_ports (s : State) (c : Nat) (f : Cluster → Cluster) : (s.modCluster c f).ports = s.ports := rfl
@[simp] theorem modCluster_absent (s : State) (c : Nat) (f : Cluster → Cluster) : (s.modCluster c f).absent = s.absent := rfl
@[simp] theorem modCluster_rerouting (s : State) (c : Nat) (f : Cluster → Cluster) : (s.modCluster c f).rerouting = s.rerouting := rfl
@[simp] theorem modCluster_noRoutes (s : State) (c : Nat) (f : Cluster → Cluster) : (s.modCluster c f).noRoutes = s.noRoutes := rfl
@[simp] theorem modCluster_outbox (s : State) (c : Nat) (f : Cluster → Cluster) : (s.modCluster c f).outbox = s.outbox := rfl
@[simp] theorem modCluster_spdm (s : State) (c : Nat) (f : Cluster → Cluster) : (s.modCluster c f).spdm = s.spdm := rfl
@[simp] theorem modCluster_cycle (s : State) (c : Nat) (f : Cluster → Cluster) : (s.modCluster c f).cycle = s.cycle := rfl
@[simp] theorem modCluster_fresh (s : State) (c : Nat) (f : Cluster → Cluster) : (s.modCluster c f).fresh = s.fresh := rfl
@[simp] theorem modCluster_agenda (s : State) (c : Nat) (f : Cluster → Cluster) : (s.modCluster c f).agenda = s.agenda := rfl
@[simp] theorem modCluster_cur (s : State) (c : Nat) (f : Cluster → Cluster) : (s.modCluster c f).cur = s.cur := rfl

/-! ## modDie -/

@[simp] theorem modDie_mem (s : State) (d : Nat) (f : Die → Die) : (s.modDie d f).mem = s.mem := rfl
@[simp] theorem modDie_side (s : State) (d : Nat) (f : Die → Die) : (s.modDie d f).side = s.side := rfl
@[simp] theorem modDie_poison (s : State) (d : Nat) (f : Die → Die) : (s.modDie d f).poison = s.poison := rfl
@[simp] theorem modDie_lineKey (s : State) (d : Nat) (f : Die → Die) : (s.modDie d f).lineKey = s.lineKey := rfl
@[simp] theorem modDie_cores (s : State) (d : Nat) (f : Die → Die) : (s.modDie d f).cores = s.cores := rfl
@[simp] theorem modDie_clusters (s : State) (d : Nat) (f : Die → Die) : (s.modDie d f).clusters = s.clusters := rfl
@[simp] theorem modDie_net (s : State) (d : Nat) (f : Die → Die) : (s.modDie d f).net = s.net := rfl
@[simp] theorem modDie_reqNo (s : State) (d : Nat) (f : Die → Die) : (s.modDie d f).reqNo = s.reqNo := rfl
@[simp] theorem modDie_keys (s : State) (d : Nat) (f : Die → Die) : (s.modDie d f).keys = s.keys := rfl
@[simp] theorem modDie_keyNo (s : State) (d : Nat) (f : Die → Die) : (s.modDie d f).keyNo = s.keyNo := rfl
@[simp] theorem modDie_regions (s : State) (d : Nat) (f : Die → Die) : (s.modDie d f).regions = s.regions := rfl
@[simp] theorem modDie_hostTab (s : State) (d : Nat) (f : Die → Die) : (s.modDie d f).hostTab = s.hostTab := rfl
@[simp] theorem modDie_drains (s : State) (d : Nat) (f : Die → Die) : (s.modDie d f).drains = s.drains := rfl
@[simp] theorem modDie_jobs (s : State) (d : Nat) (f : Die → Die) : (s.modDie d f).jobs = s.jobs := rfl
@[simp] theorem modDie_qps (s : State) (d : Nat) (f : Die → Die) : (s.modDie d f).qps = s.qps := rfl
@[simp] theorem modDie_rkeys (s : State) (d : Nat) (f : Die → Die) : (s.modDie d f).rkeys = s.rkeys := rfl
@[simp] theorem modDie_spmbox (s : State) (d : Nat) (f : Die → Die) : (s.modDie d f).spmbox = s.spmbox := rfl
@[simp] theorem modDie_power (s : State) (d : Nat) (f : Die → Die) : (s.modDie d f).power = s.power := rfl
@[simp] theorem modDie_start (s : State) (d : Nat) (f : Die → Die) : (s.modDie d f).start = s.start := rfl
@[simp] theorem modDie_stage (s : State) (d : Nat) (f : Die → Die) : (s.modDie d f).stage = s.stage := rfl
@[simp] theorem modDie_boot (s : State) (d : Nat) (f : Die → Die) : (s.modDie d f).boot = s.boot := rfl
@[simp] theorem modDie_dx (s : State) (d : Nat) (f : Die → Die) : (s.modDie d f).dx = s.dx := rfl
@[simp] theorem modDie_dy (s : State) (d : Nat) (f : Die → Die) : (s.modDie d f).dy = s.dy := rfl
@[simp] theorem modDie_dz (s : State) (d : Nat) (f : Die → Die) : (s.modDie d f).dz = s.dz := rfl
@[simp] theorem modDie_device (s : State) (d : Nat) (f : Die → Die) : (s.modDie d f).device = s.device := rfl
@[simp] theorem modDie_links (s : State) (d : Nat) (f : Die → Die) : (s.modDie d f).links = s.links := rfl
@[simp] theorem modDie_dlinks (s : State) (d : Nat) (f : Die → Die) : (s.modDie d f).dlinks = s.dlinks := rfl
@[simp] theorem modDie_ports (s : State) (d : Nat) (f : Die → Die) : (s.modDie d f).ports = s.ports := rfl
@[simp] theorem modDie_absent (s : State) (d : Nat) (f : Die → Die) : (s.modDie d f).absent = s.absent := rfl
@[simp] theorem modDie_rerouting (s : State) (d : Nat) (f : Die → Die) : (s.modDie d f).rerouting = s.rerouting := rfl
@[simp] theorem modDie_noRoutes (s : State) (d : Nat) (f : Die → Die) : (s.modDie d f).noRoutes = s.noRoutes := rfl
@[simp] theorem modDie_outbox (s : State) (d : Nat) (f : Die → Die) : (s.modDie d f).outbox = s.outbox := rfl
@[simp] theorem modDie_spdm (s : State) (d : Nat) (f : Die → Die) : (s.modDie d f).spdm = s.spdm := rfl
@[simp] theorem modDie_cycle (s : State) (d : Nat) (f : Die → Die) : (s.modDie d f).cycle = s.cycle := rfl
@[simp] theorem modDie_fresh (s : State) (d : Nat) (f : Die → Die) : (s.modDie d f).fresh = s.fresh := rfl
@[simp] theorem modDie_agenda (s : State) (d : Nat) (f : Die → Die) : (s.modDie d f).agenda = s.agenda := rfl
@[simp] theorem modDie_cur (s : State) (d : Nat) (f : Die → Die) : (s.modDie d f).cur = s.cur := rfl

/-! ## send -/

@[simp] theorem send_mem (s : State) (p : Packet) : (s.send p).mem = s.mem := rfl
@[simp] theorem send_side (s : State) (p : Packet) : (s.send p).side = s.side := rfl
@[simp] theorem send_poison (s : State) (p : Packet) : (s.send p).poison = s.poison := rfl
@[simp] theorem send_lineKey (s : State) (p : Packet) : (s.send p).lineKey = s.lineKey := rfl
@[simp] theorem send_cores (s : State) (p : Packet) : (s.send p).cores = s.cores := rfl
@[simp] theorem send_clusters (s : State) (p : Packet) : (s.send p).clusters = s.clusters := rfl
@[simp] theorem send_dies (s : State) (p : Packet) : (s.send p).dies = s.dies := rfl
@[simp] theorem send_reqNo (s : State) (p : Packet) : (s.send p).reqNo = s.reqNo := rfl
@[simp] theorem send_keys (s : State) (p : Packet) : (s.send p).keys = s.keys := rfl
@[simp] theorem send_keyNo (s : State) (p : Packet) : (s.send p).keyNo = s.keyNo := rfl
@[simp] theorem send_regions (s : State) (p : Packet) : (s.send p).regions = s.regions := rfl
@[simp] theorem send_hostTab (s : State) (p : Packet) : (s.send p).hostTab = s.hostTab := rfl
@[simp] theorem send_drains (s : State) (p : Packet) : (s.send p).drains = s.drains := rfl
@[simp] theorem send_jobs (s : State) (p : Packet) : (s.send p).jobs = s.jobs := rfl
@[simp] theorem send_qps (s : State) (p : Packet) : (s.send p).qps = s.qps := rfl
@[simp] theorem send_rkeys (s : State) (p : Packet) : (s.send p).rkeys = s.rkeys := rfl
@[simp] theorem send_spmbox (s : State) (p : Packet) : (s.send p).spmbox = s.spmbox := rfl
@[simp] theorem send_power (s : State) (p : Packet) : (s.send p).power = s.power := rfl
@[simp] theorem send_start (s : State) (p : Packet) : (s.send p).start = s.start := rfl
@[simp] theorem send_stage (s : State) (p : Packet) : (s.send p).stage = s.stage := rfl
@[simp] theorem send_boot (s : State) (p : Packet) : (s.send p).boot = s.boot := rfl
@[simp] theorem send_dx (s : State) (p : Packet) : (s.send p).dx = s.dx := rfl
@[simp] theorem send_dy (s : State) (p : Packet) : (s.send p).dy = s.dy := rfl
@[simp] theorem send_dz (s : State) (p : Packet) : (s.send p).dz = s.dz := rfl
@[simp] theorem send_device (s : State) (p : Packet) : (s.send p).device = s.device := rfl
@[simp] theorem send_links (s : State) (p : Packet) : (s.send p).links = s.links := rfl
@[simp] theorem send_dlinks (s : State) (p : Packet) : (s.send p).dlinks = s.dlinks := rfl
@[simp] theorem send_ports (s : State) (p : Packet) : (s.send p).ports = s.ports := rfl
@[simp] theorem send_absent (s : State) (p : Packet) : (s.send p).absent = s.absent := rfl
@[simp] theorem send_rerouting (s : State) (p : Packet) : (s.send p).rerouting = s.rerouting := rfl
@[simp] theorem send_noRoutes (s : State) (p : Packet) : (s.send p).noRoutes = s.noRoutes := rfl
@[simp] theorem send_outbox (s : State) (p : Packet) : (s.send p).outbox = s.outbox := rfl
@[simp] theorem send_spdm (s : State) (p : Packet) : (s.send p).spdm = s.spdm := rfl
@[simp] theorem send_cycle (s : State) (p : Packet) : (s.send p).cycle = s.cycle := rfl
@[simp] theorem send_fresh (s : State) (p : Packet) : (s.send p).fresh = s.fresh := rfl
@[simp] theorem send_agenda (s : State) (p : Packet) : (s.send p).agenda = s.agenda := rfl
@[simp] theorem send_cur (s : State) (p : Packet) : (s.send p).cur = s.cur := rfl

/-! ## dropPkt -/

@[simp] theorem dropPkt_mem (s : State) (k : Nat) : (s.dropPkt k).mem = s.mem := rfl
@[simp] theorem dropPkt_side (s : State) (k : Nat) : (s.dropPkt k).side = s.side := rfl
@[simp] theorem dropPkt_poison (s : State) (k : Nat) : (s.dropPkt k).poison = s.poison := rfl
@[simp] theorem dropPkt_lineKey (s : State) (k : Nat) : (s.dropPkt k).lineKey = s.lineKey := rfl
@[simp] theorem dropPkt_cores (s : State) (k : Nat) : (s.dropPkt k).cores = s.cores := rfl
@[simp] theorem dropPkt_clusters (s : State) (k : Nat) : (s.dropPkt k).clusters = s.clusters := rfl
@[simp] theorem dropPkt_dies (s : State) (k : Nat) : (s.dropPkt k).dies = s.dies := rfl
@[simp] theorem dropPkt_reqNo (s : State) (k : Nat) : (s.dropPkt k).reqNo = s.reqNo := rfl
@[simp] theorem dropPkt_keys (s : State) (k : Nat) : (s.dropPkt k).keys = s.keys := rfl
@[simp] theorem dropPkt_keyNo (s : State) (k : Nat) : (s.dropPkt k).keyNo = s.keyNo := rfl
@[simp] theorem dropPkt_regions (s : State) (k : Nat) : (s.dropPkt k).regions = s.regions := rfl
@[simp] theorem dropPkt_hostTab (s : State) (k : Nat) : (s.dropPkt k).hostTab = s.hostTab := rfl
@[simp] theorem dropPkt_drains (s : State) (k : Nat) : (s.dropPkt k).drains = s.drains := rfl
@[simp] theorem dropPkt_jobs (s : State) (k : Nat) : (s.dropPkt k).jobs = s.jobs := rfl
@[simp] theorem dropPkt_qps (s : State) (k : Nat) : (s.dropPkt k).qps = s.qps := rfl
@[simp] theorem dropPkt_rkeys (s : State) (k : Nat) : (s.dropPkt k).rkeys = s.rkeys := rfl
@[simp] theorem dropPkt_spmbox (s : State) (k : Nat) : (s.dropPkt k).spmbox = s.spmbox := rfl
@[simp] theorem dropPkt_power (s : State) (k : Nat) : (s.dropPkt k).power = s.power := rfl
@[simp] theorem dropPkt_start (s : State) (k : Nat) : (s.dropPkt k).start = s.start := rfl
@[simp] theorem dropPkt_stage (s : State) (k : Nat) : (s.dropPkt k).stage = s.stage := rfl
@[simp] theorem dropPkt_boot (s : State) (k : Nat) : (s.dropPkt k).boot = s.boot := rfl
@[simp] theorem dropPkt_dx (s : State) (k : Nat) : (s.dropPkt k).dx = s.dx := rfl
@[simp] theorem dropPkt_dy (s : State) (k : Nat) : (s.dropPkt k).dy = s.dy := rfl
@[simp] theorem dropPkt_dz (s : State) (k : Nat) : (s.dropPkt k).dz = s.dz := rfl
@[simp] theorem dropPkt_device (s : State) (k : Nat) : (s.dropPkt k).device = s.device := rfl
@[simp] theorem dropPkt_links (s : State) (k : Nat) : (s.dropPkt k).links = s.links := rfl
@[simp] theorem dropPkt_dlinks (s : State) (k : Nat) : (s.dropPkt k).dlinks = s.dlinks := rfl
@[simp] theorem dropPkt_ports (s : State) (k : Nat) : (s.dropPkt k).ports = s.ports := rfl
@[simp] theorem dropPkt_absent (s : State) (k : Nat) : (s.dropPkt k).absent = s.absent := rfl
@[simp] theorem dropPkt_rerouting (s : State) (k : Nat) : (s.dropPkt k).rerouting = s.rerouting := rfl
@[simp] theorem dropPkt_noRoutes (s : State) (k : Nat) : (s.dropPkt k).noRoutes = s.noRoutes := rfl
@[simp] theorem dropPkt_outbox (s : State) (k : Nat) : (s.dropPkt k).outbox = s.outbox := rfl
@[simp] theorem dropPkt_spdm (s : State) (k : Nat) : (s.dropPkt k).spdm = s.spdm := rfl
@[simp] theorem dropPkt_cycle (s : State) (k : Nat) : (s.dropPkt k).cycle = s.cycle := rfl
@[simp] theorem dropPkt_fresh (s : State) (k : Nat) : (s.dropPkt k).fresh = s.fresh := rfl
@[simp] theorem dropPkt_agenda (s : State) (k : Nat) : (s.dropPkt k).agenda = s.agenda := rfl
@[simp] theorem dropPkt_cur (s : State) (k : Nat) : (s.dropPkt k).cur = s.cur := rfl

/-! ## tick -/

@[simp] theorem tick_mem (s : State) (dt : Nat) : (s.tick dt).mem = s.mem := rfl
@[simp] theorem tick_side (s : State) (dt : Nat) : (s.tick dt).side = s.side := rfl
@[simp] theorem tick_poison (s : State) (dt : Nat) : (s.tick dt).poison = s.poison := rfl
@[simp] theorem tick_lineKey (s : State) (dt : Nat) : (s.tick dt).lineKey = s.lineKey := rfl
@[simp] theorem tick_cores (s : State) (dt : Nat) : (s.tick dt).cores = s.cores := rfl
@[simp] theorem tick_clusters (s : State) (dt : Nat) : (s.tick dt).clusters = s.clusters := rfl
@[simp] theorem tick_net (s : State) (dt : Nat) : (s.tick dt).net = s.net := rfl
@[simp] theorem tick_reqNo (s : State) (dt : Nat) : (s.tick dt).reqNo = s.reqNo := rfl
@[simp] theorem tick_keys (s : State) (dt : Nat) : (s.tick dt).keys = s.keys := rfl
@[simp] theorem tick_keyNo (s : State) (dt : Nat) : (s.tick dt).keyNo = s.keyNo := rfl
@[simp] theorem tick_regions (s : State) (dt : Nat) : (s.tick dt).regions = s.regions := rfl
@[simp] theorem tick_hostTab (s : State) (dt : Nat) : (s.tick dt).hostTab = s.hostTab := rfl
@[simp] theorem tick_drains (s : State) (dt : Nat) : (s.tick dt).drains = s.drains := rfl
@[simp] theorem tick_jobs (s : State) (dt : Nat) : (s.tick dt).jobs = s.jobs := rfl
@[simp] theorem tick_qps (s : State) (dt : Nat) : (s.tick dt).qps = s.qps := rfl
@[simp] theorem tick_rkeys (s : State) (dt : Nat) : (s.tick dt).rkeys = s.rkeys := rfl
@[simp] theorem tick_spmbox (s : State) (dt : Nat) : (s.tick dt).spmbox = s.spmbox := rfl
@[simp] theorem tick_power (s : State) (dt : Nat) : (s.tick dt).power = s.power := rfl
@[simp] theorem tick_start (s : State) (dt : Nat) : (s.tick dt).start = s.start := rfl
@[simp] theorem tick_stage (s : State) (dt : Nat) : (s.tick dt).stage = s.stage := rfl
@[simp] theorem tick_boot (s : State) (dt : Nat) : (s.tick dt).boot = s.boot := rfl
@[simp] theorem tick_dx (s : State) (dt : Nat) : (s.tick dt).dx = s.dx := rfl
@[simp] theorem tick_dy (s : State) (dt : Nat) : (s.tick dt).dy = s.dy := rfl
@[simp] theorem tick_dz (s : State) (dt : Nat) : (s.tick dt).dz = s.dz := rfl
@[simp] theorem tick_device (s : State) (dt : Nat) : (s.tick dt).device = s.device := rfl
@[simp] theorem tick_links (s : State) (dt : Nat) : (s.tick dt).links = s.links := rfl
@[simp] theorem tick_dlinks (s : State) (dt : Nat) : (s.tick dt).dlinks = s.dlinks := rfl
@[simp] theorem tick_ports (s : State) (dt : Nat) : (s.tick dt).ports = s.ports := rfl
@[simp] theorem tick_absent (s : State) (dt : Nat) : (s.tick dt).absent = s.absent := rfl
@[simp] theorem tick_rerouting (s : State) (dt : Nat) : (s.tick dt).rerouting = s.rerouting := rfl
@[simp] theorem tick_noRoutes (s : State) (dt : Nat) : (s.tick dt).noRoutes = s.noRoutes := rfl
@[simp] theorem tick_outbox (s : State) (dt : Nat) : (s.tick dt).outbox = s.outbox := rfl
@[simp] theorem tick_spdm (s : State) (dt : Nat) : (s.tick dt).spdm = s.spdm := rfl
@[simp] theorem tick_fresh (s : State) (dt : Nat) : (s.tick dt).fresh = s.fresh := rfl
@[simp] theorem tick_agenda (s : State) (dt : Nat) : (s.tick dt).agenda = s.agenda := rfl
@[simp] theorem tick_cur (s : State) (dt : Nat) : (s.tick dt).cur = s.cur := rfl

/-! ## turn -/

@[simp] theorem turn_mem (s : State) (c : Nat) : (s.turn c).mem = s.mem := rfl
@[simp] theorem turn_side (s : State) (c : Nat) : (s.turn c).side = s.side := rfl
@[simp] theorem turn_poison (s : State) (c : Nat) : (s.turn c).poison = s.poison := rfl
@[simp] theorem turn_lineKey (s : State) (c : Nat) : (s.turn c).lineKey = s.lineKey := rfl
@[simp] theorem turn_cores (s : State) (c : Nat) : (s.turn c).cores = s.cores := rfl
@[simp] theorem turn_clusters (s : State) (c : Nat) : (s.turn c).clusters = s.clusters := rfl
@[simp] theorem turn_dies (s : State) (c : Nat) : (s.turn c).dies = s.dies := rfl
@[simp] theorem turn_net (s : State) (c : Nat) : (s.turn c).net = s.net := rfl
@[simp] theorem turn_reqNo (s : State) (c : Nat) : (s.turn c).reqNo = s.reqNo := rfl
@[simp] theorem turn_keys (s : State) (c : Nat) : (s.turn c).keys = s.keys := rfl
@[simp] theorem turn_keyNo (s : State) (c : Nat) : (s.turn c).keyNo = s.keyNo := rfl
@[simp] theorem turn_regions (s : State) (c : Nat) : (s.turn c).regions = s.regions := rfl
@[simp] theorem turn_hostTab (s : State) (c : Nat) : (s.turn c).hostTab = s.hostTab := rfl
@[simp] theorem turn_drains (s : State) (c : Nat) : (s.turn c).drains = s.drains := rfl
@[simp] theorem turn_jobs (s : State) (c : Nat) : (s.turn c).jobs = s.jobs := rfl
@[simp] theorem turn_qps (s : State) (c : Nat) : (s.turn c).qps = s.qps := rfl
@[simp] theorem turn_rkeys (s : State) (c : Nat) : (s.turn c).rkeys = s.rkeys := rfl
@[simp] theorem turn_spmbox (s : State) (c : Nat) : (s.turn c).spmbox = s.spmbox := rfl
@[simp] theorem turn_power (s : State) (c : Nat) : (s.turn c).power = s.power := rfl
@[simp] theorem turn_start (s : State) (c : Nat) : (s.turn c).start = s.start := rfl
@[simp] theorem turn_stage (s : State) (c : Nat) : (s.turn c).stage = s.stage := rfl
@[simp] theorem turn_boot (s : State) (c : Nat) : (s.turn c).boot = s.boot := rfl
@[simp] theorem turn_dx (s : State) (c : Nat) : (s.turn c).dx = s.dx := rfl
@[simp] theorem turn_dy (s : State) (c : Nat) : (s.turn c).dy = s.dy := rfl
@[simp] theorem turn_dz (s : State) (c : Nat) : (s.turn c).dz = s.dz := rfl
@[simp] theorem turn_device (s : State) (c : Nat) : (s.turn c).device = s.device := rfl
@[simp] theorem turn_links (s : State) (c : Nat) : (s.turn c).links = s.links := rfl
@[simp] theorem turn_dlinks (s : State) (c : Nat) : (s.turn c).dlinks = s.dlinks := rfl
@[simp] theorem turn_ports (s : State) (c : Nat) : (s.turn c).ports = s.ports := rfl
@[simp] theorem turn_absent (s : State) (c : Nat) : (s.turn c).absent = s.absent := rfl
@[simp] theorem turn_rerouting (s : State) (c : Nat) : (s.turn c).rerouting = s.rerouting := rfl
@[simp] theorem turn_noRoutes (s : State) (c : Nat) : (s.turn c).noRoutes = s.noRoutes := rfl
@[simp] theorem turn_outbox (s : State) (c : Nat) : (s.turn c).outbox = s.outbox := rfl
@[simp] theorem turn_spdm (s : State) (c : Nat) : (s.turn c).spdm = s.spdm := rfl
@[simp] theorem turn_cycle (s : State) (c : Nat) : (s.turn c).cycle = s.cycle := rfl
@[simp] theorem turn_fresh (s : State) (c : Nat) : (s.turn c).fresh = s.fresh := rfl
@[simp] theorem turn_agenda (s : State) (c : Nat) : (s.turn c).agenda = s.agenda := rfl

/-! ## setFiring -/

@[simp] theorem setFiring_mem (s : State) (f : Firing) : (s.setFiring f).mem = s.mem := rfl
@[simp] theorem setFiring_side (s : State) (f : Firing) : (s.setFiring f).side = s.side := rfl
@[simp] theorem setFiring_poison (s : State) (f : Firing) : (s.setFiring f).poison = s.poison := rfl
@[simp] theorem setFiring_lineKey (s : State) (f : Firing) : (s.setFiring f).lineKey = s.lineKey := rfl
@[simp] theorem setFiring_clusters (s : State) (f : Firing) : (s.setFiring f).clusters = s.clusters := rfl
@[simp] theorem setFiring_dies (s : State) (f : Firing) : (s.setFiring f).dies = s.dies := rfl
@[simp] theorem setFiring_net (s : State) (f : Firing) : (s.setFiring f).net = s.net := rfl
@[simp] theorem setFiring_reqNo (s : State) (f : Firing) : (s.setFiring f).reqNo = s.reqNo := rfl
@[simp] theorem setFiring_keys (s : State) (f : Firing) : (s.setFiring f).keys = s.keys := rfl
@[simp] theorem setFiring_keyNo (s : State) (f : Firing) : (s.setFiring f).keyNo = s.keyNo := rfl
@[simp] theorem setFiring_regions (s : State) (f : Firing) : (s.setFiring f).regions = s.regions := rfl
@[simp] theorem setFiring_hostTab (s : State) (f : Firing) : (s.setFiring f).hostTab = s.hostTab := rfl
@[simp] theorem setFiring_drains (s : State) (f : Firing) : (s.setFiring f).drains = s.drains := rfl
@[simp] theorem setFiring_jobs (s : State) (f : Firing) : (s.setFiring f).jobs = s.jobs := rfl
@[simp] theorem setFiring_qps (s : State) (f : Firing) : (s.setFiring f).qps = s.qps := rfl
@[simp] theorem setFiring_rkeys (s : State) (f : Firing) : (s.setFiring f).rkeys = s.rkeys := rfl
@[simp] theorem setFiring_spmbox (s : State) (f : Firing) : (s.setFiring f).spmbox = s.spmbox := rfl
@[simp] theorem setFiring_power (s : State) (f : Firing) : (s.setFiring f).power = s.power := rfl
@[simp] theorem setFiring_start (s : State) (f : Firing) : (s.setFiring f).start = s.start := rfl
@[simp] theorem setFiring_stage (s : State) (f : Firing) : (s.setFiring f).stage = s.stage := rfl
@[simp] theorem setFiring_boot (s : State) (f : Firing) : (s.setFiring f).boot = s.boot := rfl
@[simp] theorem setFiring_dx (s : State) (f : Firing) : (s.setFiring f).dx = s.dx := rfl
@[simp] theorem setFiring_dy (s : State) (f : Firing) : (s.setFiring f).dy = s.dy := rfl
@[simp] theorem setFiring_dz (s : State) (f : Firing) : (s.setFiring f).dz = s.dz := rfl
@[simp] theorem setFiring_device (s : State) (f : Firing) : (s.setFiring f).device = s.device := rfl
@[simp] theorem setFiring_links (s : State) (f : Firing) : (s.setFiring f).links = s.links := rfl
@[simp] theorem setFiring_dlinks (s : State) (f : Firing) : (s.setFiring f).dlinks = s.dlinks := rfl
@[simp] theorem setFiring_ports (s : State) (f : Firing) : (s.setFiring f).ports = s.ports := rfl
@[simp] theorem setFiring_absent (s : State) (f : Firing) : (s.setFiring f).absent = s.absent := rfl
@[simp] theorem setFiring_rerouting (s : State) (f : Firing) : (s.setFiring f).rerouting = s.rerouting := rfl
@[simp] theorem setFiring_noRoutes (s : State) (f : Firing) : (s.setFiring f).noRoutes = s.noRoutes := rfl
@[simp] theorem setFiring_outbox (s : State) (f : Firing) : (s.setFiring f).outbox = s.outbox := rfl
@[simp] theorem setFiring_spdm (s : State) (f : Firing) : (s.setFiring f).spdm = s.spdm := rfl
@[simp] theorem setFiring_cycle (s : State) (f : Firing) : (s.setFiring f).cycle = s.cycle := rfl
@[simp] theorem setFiring_fresh (s : State) (f : Firing) : (s.setFiring f).fresh = s.fresh := rfl
@[simp] theorem setFiring_agenda (s : State) (f : Firing) : (s.setFiring f).agenda = s.agenda := rfl
@[simp] theorem setFiring_cur (s : State) (f : Firing) : (s.setFiring f).cur = s.cur := rfl

/-! ## hold -/

@[simp] theorem hold_mem (s : State) (f : Firing) (a : Act) : (s.hold f a).mem = s.mem := rfl
@[simp] theorem hold_side (s : State) (f : Firing) (a : Act) : (s.hold f a).side = s.side := rfl
@[simp] theorem hold_poison (s : State) (f : Firing) (a : Act) : (s.hold f a).poison = s.poison := rfl
@[simp] theorem hold_lineKey (s : State) (f : Firing) (a : Act) : (s.hold f a).lineKey = s.lineKey := rfl
@[simp] theorem hold_clusters (s : State) (f : Firing) (a : Act) : (s.hold f a).clusters = s.clusters := rfl
@[simp] theorem hold_dies (s : State) (f : Firing) (a : Act) : (s.hold f a).dies = s.dies := rfl
@[simp] theorem hold_net (s : State) (f : Firing) (a : Act) : (s.hold f a).net = s.net := rfl
@[simp] theorem hold_reqNo (s : State) (f : Firing) (a : Act) : (s.hold f a).reqNo = s.reqNo := rfl
@[simp] theorem hold_keys (s : State) (f : Firing) (a : Act) : (s.hold f a).keys = s.keys := rfl
@[simp] theorem hold_keyNo (s : State) (f : Firing) (a : Act) : (s.hold f a).keyNo = s.keyNo := rfl
@[simp] theorem hold_regions (s : State) (f : Firing) (a : Act) : (s.hold f a).regions = s.regions := rfl
@[simp] theorem hold_hostTab (s : State) (f : Firing) (a : Act) : (s.hold f a).hostTab = s.hostTab := rfl
@[simp] theorem hold_drains (s : State) (f : Firing) (a : Act) : (s.hold f a).drains = s.drains := rfl
@[simp] theorem hold_jobs (s : State) (f : Firing) (a : Act) : (s.hold f a).jobs = s.jobs := rfl
@[simp] theorem hold_qps (s : State) (f : Firing) (a : Act) : (s.hold f a).qps = s.qps := rfl
@[simp] theorem hold_rkeys (s : State) (f : Firing) (a : Act) : (s.hold f a).rkeys = s.rkeys := rfl
@[simp] theorem hold_spmbox (s : State) (f : Firing) (a : Act) : (s.hold f a).spmbox = s.spmbox := rfl
@[simp] theorem hold_power (s : State) (f : Firing) (a : Act) : (s.hold f a).power = s.power := rfl
@[simp] theorem hold_start (s : State) (f : Firing) (a : Act) : (s.hold f a).start = s.start := rfl
@[simp] theorem hold_stage (s : State) (f : Firing) (a : Act) : (s.hold f a).stage = s.stage := rfl
@[simp] theorem hold_boot (s : State) (f : Firing) (a : Act) : (s.hold f a).boot = s.boot := rfl
@[simp] theorem hold_dx (s : State) (f : Firing) (a : Act) : (s.hold f a).dx = s.dx := rfl
@[simp] theorem hold_dy (s : State) (f : Firing) (a : Act) : (s.hold f a).dy = s.dy := rfl
@[simp] theorem hold_dz (s : State) (f : Firing) (a : Act) : (s.hold f a).dz = s.dz := rfl
@[simp] theorem hold_device (s : State) (f : Firing) (a : Act) : (s.hold f a).device = s.device := rfl
@[simp] theorem hold_links (s : State) (f : Firing) (a : Act) : (s.hold f a).links = s.links := rfl
@[simp] theorem hold_dlinks (s : State) (f : Firing) (a : Act) : (s.hold f a).dlinks = s.dlinks := rfl
@[simp] theorem hold_ports (s : State) (f : Firing) (a : Act) : (s.hold f a).ports = s.ports := rfl
@[simp] theorem hold_absent (s : State) (f : Firing) (a : Act) : (s.hold f a).absent = s.absent := rfl
@[simp] theorem hold_rerouting (s : State) (f : Firing) (a : Act) : (s.hold f a).rerouting = s.rerouting := rfl
@[simp] theorem hold_noRoutes (s : State) (f : Firing) (a : Act) : (s.hold f a).noRoutes = s.noRoutes := rfl
@[simp] theorem hold_outbox (s : State) (f : Firing) (a : Act) : (s.hold f a).outbox = s.outbox := rfl
@[simp] theorem hold_spdm (s : State) (f : Firing) (a : Act) : (s.hold f a).spdm = s.spdm := rfl
@[simp] theorem hold_cycle (s : State) (f : Firing) (a : Act) : (s.hold f a).cycle = s.cycle := rfl
@[simp] theorem hold_fresh (s : State) (f : Firing) (a : Act) : (s.hold f a).fresh = s.fresh := rfl
@[simp] theorem hold_agenda (s : State) (f : Firing) (a : Act) : (s.hold f a).agenda = s.agenda := rfl
@[simp] theorem hold_cur (s : State) (f : Firing) (a : Act) : (s.hold f a).cur = s.cur := rfl

/-! ## setSide -/

@[simp] theorem setSide_mem (s : State) (pa : Nat) (b : Byte) : (s.setSide pa b).mem = s.mem := rfl
@[simp] theorem setSide_poison (s : State) (pa : Nat) (b : Byte) : (s.setSide pa b).poison = s.poison := rfl
@[simp] theorem setSide_lineKey (s : State) (pa : Nat) (b : Byte) : (s.setSide pa b).lineKey = s.lineKey := rfl
@[simp] theorem setSide_cores (s : State) (pa : Nat) (b : Byte) : (s.setSide pa b).cores = s.cores := rfl
@[simp] theorem setSide_clusters (s : State) (pa : Nat) (b : Byte) : (s.setSide pa b).clusters = s.clusters := rfl
@[simp] theorem setSide_dies (s : State) (pa : Nat) (b : Byte) : (s.setSide pa b).dies = s.dies := rfl
@[simp] theorem setSide_net (s : State) (pa : Nat) (b : Byte) : (s.setSide pa b).net = s.net := rfl
@[simp] theorem setSide_reqNo (s : State) (pa : Nat) (b : Byte) : (s.setSide pa b).reqNo = s.reqNo := rfl
@[simp] theorem setSide_keys (s : State) (pa : Nat) (b : Byte) : (s.setSide pa b).keys = s.keys := rfl
@[simp] theorem setSide_keyNo (s : State) (pa : Nat) (b : Byte) : (s.setSide pa b).keyNo = s.keyNo := rfl
@[simp] theorem setSide_regions (s : State) (pa : Nat) (b : Byte) : (s.setSide pa b).regions = s.regions := rfl
@[simp] theorem setSide_hostTab (s : State) (pa : Nat) (b : Byte) : (s.setSide pa b).hostTab = s.hostTab := rfl
@[simp] theorem setSide_drains (s : State) (pa : Nat) (b : Byte) : (s.setSide pa b).drains = s.drains := rfl
@[simp] theorem setSide_jobs (s : State) (pa : Nat) (b : Byte) : (s.setSide pa b).jobs = s.jobs := rfl
@[simp] theorem setSide_qps (s : State) (pa : Nat) (b : Byte) : (s.setSide pa b).qps = s.qps := rfl
@[simp] theorem setSide_rkeys (s : State) (pa : Nat) (b : Byte) : (s.setSide pa b).rkeys = s.rkeys := rfl
@[simp] theorem setSide_spmbox (s : State) (pa : Nat) (b : Byte) : (s.setSide pa b).spmbox = s.spmbox := rfl
@[simp] theorem setSide_power (s : State) (pa : Nat) (b : Byte) : (s.setSide pa b).power = s.power := rfl
@[simp] theorem setSide_start (s : State) (pa : Nat) (b : Byte) : (s.setSide pa b).start = s.start := rfl
@[simp] theorem setSide_stage (s : State) (pa : Nat) (b : Byte) : (s.setSide pa b).stage = s.stage := rfl
@[simp] theorem setSide_boot (s : State) (pa : Nat) (b : Byte) : (s.setSide pa b).boot = s.boot := rfl
@[simp] theorem setSide_dx (s : State) (pa : Nat) (b : Byte) : (s.setSide pa b).dx = s.dx := rfl
@[simp] theorem setSide_dy (s : State) (pa : Nat) (b : Byte) : (s.setSide pa b).dy = s.dy := rfl
@[simp] theorem setSide_dz (s : State) (pa : Nat) (b : Byte) : (s.setSide pa b).dz = s.dz := rfl
@[simp] theorem setSide_device (s : State) (pa : Nat) (b : Byte) : (s.setSide pa b).device = s.device := rfl
@[simp] theorem setSide_links (s : State) (pa : Nat) (b : Byte) : (s.setSide pa b).links = s.links := rfl
@[simp] theorem setSide_dlinks (s : State) (pa : Nat) (b : Byte) : (s.setSide pa b).dlinks = s.dlinks := rfl
@[simp] theorem setSide_ports (s : State) (pa : Nat) (b : Byte) : (s.setSide pa b).ports = s.ports := rfl
@[simp] theorem setSide_absent (s : State) (pa : Nat) (b : Byte) : (s.setSide pa b).absent = s.absent := rfl
@[simp] theorem setSide_rerouting (s : State) (pa : Nat) (b : Byte) : (s.setSide pa b).rerouting = s.rerouting := rfl
@[simp] theorem setSide_noRoutes (s : State) (pa : Nat) (b : Byte) : (s.setSide pa b).noRoutes = s.noRoutes := rfl
@[simp] theorem setSide_outbox (s : State) (pa : Nat) (b : Byte) : (s.setSide pa b).outbox = s.outbox := rfl
@[simp] theorem setSide_spdm (s : State) (pa : Nat) (b : Byte) : (s.setSide pa b).spdm = s.spdm := rfl
@[simp] theorem setSide_cycle (s : State) (pa : Nat) (b : Byte) : (s.setSide pa b).cycle = s.cycle := rfl
@[simp] theorem setSide_fresh (s : State) (pa : Nat) (b : Byte) : (s.setSide pa b).fresh = s.fresh := rfl
@[simp] theorem setSide_agenda (s : State) (pa : Nat) (b : Byte) : (s.setSide pa b).agenda = s.agenda := rfl
@[simp] theorem setSide_cur (s : State) (pa : Nat) (b : Byte) : (s.setSide pa b).cur = s.cur := rfl

/-! ## Accessors -/

@[simp] theorem setCore_core_same (s : State) (c : Nat) (x : CoreSt) : (s.setCore c x).core c = x := by
  simp [State.setCore, State.core]

@[simp] theorem setCore_core_other (s : State) (c e : Nat) (x : CoreSt) (h : c ≠ e) : (s.setCore c x).core e = s.core e := by
  simp [State.setCore, State.core, h]

@[simp] theorem modCore_core_same (s : State) (c : Nat) (f : CoreSt → CoreSt) : (s.modCore c f).core c = f (s.core c) := by
  simp [State.modCore]

@[simp] theorem modCore_core_other (s : State) (c e : Nat) (f : CoreSt → CoreSt) (h : c ≠ e) :
    (s.modCore c f).core e = s.core e := by
  simp [State.modCore, h]

@[simp] theorem modCluster_cluster_same (s : State) (c : Nat) (f : Cluster → Cluster) :
    (s.modCluster c f).cluster c = f (s.cluster c) := by
  simp [State.modCluster, State.cluster]

@[simp] theorem modCluster_cluster_other (s : State) (c e : Nat) (f : Cluster → Cluster) (h : c ≠ e) :
    (s.modCluster c f).cluster e = s.cluster e := by
  simp [State.modCluster, State.cluster, h]

@[simp] theorem modDie_die_same (s : State) (d : Nat) (f : Die → Die) : (s.modDie d f).die d = f (s.die d) := by
  simp [State.modDie, State.die]

@[simp] theorem modDie_die_other (s : State) (d e : Nat) (f : Die → Die) (h : d ≠ e) : (s.modDie d f).die e = s.die e := by
  simp [State.modDie, State.die, h]

@[simp] theorem setCore_setCore (s : State) (c : Nat) (x y : CoreSt) : (s.setCore c x).setCore c y = s.setCore c y := by
  simp [State.setCore]

@[simp] theorem modCore_modCore (s : State) (c : Nat) (f g : CoreSt → CoreSt) :
    (s.modCore c f).modCore c g = s.modCore c (fun x => g (f x)) := by
  simp [State.modCore]

@[simp] theorem setFiring_setFiring (s : State) (f g : Firing) : (s.setFiring f).setFiring g = s.setFiring g := by
  simp [State.setFiring]

@[simp] theorem setFiring_firing (s : State) (f : Firing) : ((s.setFiring f).core s.cur).firing = some f := by
  simp [State.setFiring]


@[simp] theorem setCore_cluster_read (s : State) (c : Nat) (x : CoreSt) (n : Nat) : (s.setCore c x).cluster n = s.cluster n := rfl
@[simp] theorem setCore_die_read (s : State) (c : Nat) (x : CoreSt) (n : Nat) : (s.setCore c x).die n = s.die n := rfl
@[simp] theorem modCore_cluster_read (s : State) (c : Nat) (f : CoreSt → CoreSt) (n : Nat) : (s.modCore c f).cluster n = s.cluster n := rfl
@[simp] theorem modCore_die_read (s : State) (c : Nat) (f : CoreSt → CoreSt) (n : Nat) : (s.modCore c f).die n = s.die n := rfl
@[simp] theorem modCluster_core_read (s : State) (c : Nat) (f : Cluster → Cluster) (n : Nat) : (s.modCluster c f).core n = s.core n := rfl
@[simp] theorem modCluster_die_read (s : State) (c : Nat) (f : Cluster → Cluster) (n : Nat) : (s.modCluster c f).die n = s.die n := rfl
@[simp] theorem modDie_core_read (s : State) (d : Nat) (f : Die → Die) (n : Nat) : (s.modDie d f).core n = s.core n := rfl
@[simp] theorem modDie_cluster_read (s : State) (d : Nat) (f : Die → Die) (n : Nat) : (s.modDie d f).cluster n = s.cluster n := rfl
@[simp] theorem send_core_read (s : State) (p : Packet) (n : Nat) : (s.send p).core n = s.core n := rfl
@[simp] theorem send_cluster_read (s : State) (p : Packet) (n : Nat) : (s.send p).cluster n = s.cluster n := rfl
@[simp] theorem send_die_read (s : State) (p : Packet) (n : Nat) : (s.send p).die n = s.die n := rfl
@[simp] theorem dropPkt_core_read (s : State) (k : Nat) (n : Nat) : (s.dropPkt k).core n = s.core n := rfl
@[simp] theorem dropPkt_cluster_read (s : State) (k : Nat) (n : Nat) : (s.dropPkt k).cluster n = s.cluster n := rfl
@[simp] theorem dropPkt_die_read (s : State) (k : Nat) (n : Nat) : (s.dropPkt k).die n = s.die n := rfl
@[simp] theorem tick_core_read (s : State) (dt : Nat) (n : Nat) : (s.tick dt).core n = s.core n := rfl
@[simp] theorem tick_cluster_read (s : State) (dt : Nat) (n : Nat) : (s.tick dt).cluster n = s.cluster n := rfl
@[simp] theorem turn_core_read (s : State) (c : Nat) (n : Nat) : (s.turn c).core n = s.core n := rfl
@[simp] theorem turn_cluster_read (s : State) (c : Nat) (n : Nat) : (s.turn c).cluster n = s.cluster n := rfl
@[simp] theorem turn_die_read (s : State) (c : Nat) (n : Nat) : (s.turn c).die n = s.die n := rfl
@[simp] theorem setFiring_cluster_read (s : State) (f : Firing) (n : Nat) : (s.setFiring f).cluster n = s.cluster n := rfl
@[simp] theorem setFiring_die_read (s : State) (f : Firing) (n : Nat) : (s.setFiring f).die n = s.die n := rfl
@[simp] theorem hold_cluster_read (s : State) (f : Firing) (a : Act) (n : Nat) : (s.hold f a).cluster n = s.cluster n := rfl
@[simp] theorem hold_die_read (s : State) (f : Firing) (a : Act) (n : Nat) : (s.hold f a).die n = s.die n := rfl
@[simp] theorem setSide_core_read (s : State) (pa : Nat) (b : Byte) (n : Nat) : (s.setSide pa b).core n = s.core n := rfl
@[simp] theorem setSide_cluster_read (s : State) (pa : Nat) (b : Byte) (n : Nat) : (s.setSide pa b).cluster n = s.cluster n := rfl
@[simp] theorem setSide_die_read (s : State) (pa : Nat) (b : Byte) (n : Nat) : (s.setSide pa b).die n = s.die n := rfl

/-! ## Firings -/

@[simp] theorem Firing.setT_ctx (g : Firing) (t : Temp) (v : Vec) : (g.setT t v).ctx = g.ctx := rfl
@[simp] theorem Firing.setT_pc (g : Firing) (t : Temp) (v : Vec) : (g.setT t v).pc = g.pc := rfl
@[simp] theorem Firing.setT_flags (g : Firing) (t : Temp) (v : Vec) : (g.setT t v).flags = g.flags := rfl
@[simp] theorem Firing.setT_issued (g : Firing) (t : Temp) (v : Vec) : (g.setT t v).issued = g.issued := rfl
@[simp] theorem Firing.setT_held (g : Firing) (t : Temp) (v : Vec) : (g.setT t v).held = g.held := rfl
@[simp] theorem Firing.setT_pops (g : Firing) (t : Temp) (v : Vec) : (g.setT t v).pops = g.pops := rfl
@[simp] theorem Firing.setT_allocs (g : Firing) (t : Temp) (v : Vec) : (g.setT t v).allocs = g.allocs := rfl
@[simp] theorem Firing.setT_jobs (g : Firing) (t : Temp) (v : Vec) : (g.setT t v).jobs = g.jobs := rfl
@[simp] theorem Firing.setT_launches (g : Firing) (t : Temp) (v : Vec) : (g.setT t v).launches = g.launches := rfl
@[simp] theorem Firing.setT_purged (g : Firing) (t : Temp) (v : Vec) : (g.setT t v).purged = g.purged := rfl
@[simp] theorem Firing.setW_ctx (g : Firing) (t : Temp) (v : Word) : (g.setW t v).ctx = g.ctx := rfl
@[simp] theorem Firing.setW_pc (g : Firing) (t : Temp) (v : Word) : (g.setW t v).pc = g.pc := rfl
@[simp] theorem Firing.setW_flags (g : Firing) (t : Temp) (v : Word) : (g.setW t v).flags = g.flags := rfl
@[simp] theorem Firing.setW_issued (g : Firing) (t : Temp) (v : Word) : (g.setW t v).issued = g.issued := rfl
@[simp] theorem Firing.setW_held (g : Firing) (t : Temp) (v : Word) : (g.setW t v).held = g.held := rfl
@[simp] theorem Firing.setW_pops (g : Firing) (t : Temp) (v : Word) : (g.setW t v).pops = g.pops := rfl
@[simp] theorem Firing.setW_allocs (g : Firing) (t : Temp) (v : Word) : (g.setW t v).allocs = g.allocs := rfl
@[simp] theorem Firing.setW_jobs (g : Firing) (t : Temp) (v : Word) : (g.setW t v).jobs = g.jobs := rfl
@[simp] theorem Firing.setW_launches (g : Firing) (t : Temp) (v : Word) : (g.setW t v).launches = g.launches := rfl
@[simp] theorem Firing.setW_purged (g : Firing) (t : Temp) (v : Word) : (g.setW t v).purged = g.purged := rfl
@[simp] theorem Firing.orFlags_ctx (g : Firing) (b : Byte) : (g.orFlags b).ctx = g.ctx := rfl
@[simp] theorem Firing.orFlags_pc (g : Firing) (b : Byte) : (g.orFlags b).pc = g.pc := rfl
@[simp] theorem Firing.orFlags_temps (g : Firing) (b : Byte) : (g.orFlags b).temps = g.temps := rfl
@[simp] theorem Firing.orFlags_issued (g : Firing) (b : Byte) : (g.orFlags b).issued = g.issued := rfl
@[simp] theorem Firing.orFlags_held (g : Firing) (b : Byte) : (g.orFlags b).held = g.held := rfl
@[simp] theorem Firing.orFlags_pops (g : Firing) (b : Byte) : (g.orFlags b).pops = g.pops := rfl
@[simp] theorem Firing.orFlags_allocs (g : Firing) (b : Byte) : (g.orFlags b).allocs = g.allocs := rfl
@[simp] theorem Firing.orFlags_jobs (g : Firing) (b : Byte) : (g.orFlags b).jobs = g.jobs := rfl
@[simp] theorem Firing.orFlags_launches (g : Firing) (b : Byte) : (g.orFlags b).launches = g.launches := rfl
@[simp] theorem Firing.orFlags_purged (g : Firing) (b : Byte) : (g.orFlags b).purged = g.purged := rfl

@[simp] theorem Firing.setT_same (g : Firing) (t : Temp) (v : Vec) : (g.setT t v).t t = v := by
  change (g.temps.set t.toNat v t.isLt)[t.toNat] = v
  simp

@[simp] theorem Firing.setT_other (g : Firing) (t u : Temp) (v : Vec) (h : t ≠ u) : (g.setT t v).t u = g.t u := by
  have h2 : t.toNat ≠ u.toNat := fun e => h (BitVec.eq_of_toNat_eq e)
  change (g.temps.set t.toNat v t.isLt)[u.toNat] = g.temps[u.toNat]
  simp [h2]

@[simp] theorem Firing.setW_same (g : Firing) (t : Temp) (v : Word) : (g.setW t v).w t = v := by
  simp [Firing.w, Firing.setW, zx]

@[simp] theorem Firing.setW_other (g : Firing) (t u : Temp) (v : Word) (h : t ≠ u) : (g.setW t v).t u = g.t u := by
  simp [Firing.setW, h]


/-- What a step's beginning leaves of a die: its DONE launch entries are FREE (R448). -/
@[simp] theorem tick_die (s : State) (n d : Nat) : (s.tick n).die d = (s.die d).freeDone := by
  unfold State.die State.tick
  exact tabGet_map Die.freeDone rfl s.dies d

/-- An update of a core's side leaves the reads of memory bytes. -/
@[simp] theorem modCore_readByte (s : State) (c : Nat) (f : CoreSt → CoreSt) (key pa : Nat) :
    (s.modCore c f).readByte key pa = s.readByte key pa := rfl

@[simp] theorem setFiring_readByte (s : State) (f : Firing) (key pa : Nat) :
    (s.setFiring f).readByte key pa = s.readByte key pa := rfl

end Sys2Proof.Machine
end

