-- ==== Sys2Proof/Laws/Issue.lean ====
section
/-! SUPPORT. What the issue of an instruction can do, said once: its limits hold and the body is applied, or it faults or
waits. -/

namespace Sys2Proof.Machine

/-- With the issue limits met, an instruction does what its body says. -/
theorem issue_eq (held : Bool) (body : Firing → State → Body) (s : State) (f : Firing) (h : s.Issues f held) :
    issue held body s = .next ((body f s).apply held f s) := by
  obtain ⟨hf, hh, hl, hq⟩ := h
  have h1 : ¬(isSteward s.cur = false ∧ 256 ≤ f.issued) := by
    rintro ⟨a, b⟩
    cases hl with
    | inl c => simp [a] at c
    | inr c => omega
  unfold issue
  rw [hf]
  cases held with
  | false => simp [hh, h1]
  | true =>
    obtain ⟨h2, h3⟩ := hq rfl
    have h4 : ¬(isSteward s.cur = false ∧ 48 ≤ f.held) := by
      rintro ⟨a, b⟩
      cases h2 with
      | inl c => simp [a] at c
      | inr c => omega
    have h5 : ¬(48 ≤ (s.core s.cur).occupied) := by omega
    simp [hh, h1, h4, h5]

/-- Every way in which an issue can end: no firing, or a next state that is the state itself (halted, or waiting for room in the
commit queue), a LIMIT fault, or the effect of the body. -/
theorem issue_cases (held : Bool) (body : Firing → State → Body) (s t : State) (h : issue held body s = .next t) :
    ∃ f, (s.core s.cur).firing = some f ∧
      (t = s ∨ t = s.takeFault s.cur f 0x02 0x01 none ∨ t = s.takeFault s.cur f 0x02 0x02 none ∨
        t = (body f s).apply held f s) := by
  unfold issue at h
  split at h
  · cases h
  · next f hf =>
    refine ⟨f, hf, ?_⟩
    split at h
    · cases h; exact .inl rfl
    · split at h
      · cases h; exact .inr (.inl rfl)
      · split at h
        · cases h; exact .inr (.inr (.inl rfl))
        · split at h
          · cases h; exact .inl rfl
          · cases h; exact .inr (.inr (.inr rfl))

/-- The issue of an instruction whose body is performed. -/
theorem issue_done (held : Bool) (body : Firing → State → Body) (s s' : State) (f g : Firing) (h : s.Issues f held)
    (hb : body f s = .done s') (hg : (s'.core s'.cur).firing = some g) :
    issue held body s = .next (s'.setFiring { g with pc := f.pc + 1, issued := g.issued + 1, held := g.held + b2n held }) := by
  rw [issue_eq _ _ _ _ h, hb]
  simp [Body.apply, State.advance, hg]

/-- The issue of an instruction whose body is performed and places no action. -/
theorem issue_bare (held : Bool) (body : Firing → State → Body) (s s' : State) (f g : Firing) (h : s.Issues f held)
    (hb : body f s = .bare s') (hg : (s'.core s'.cur).firing = some g) :
    issue held body s = .next (s'.setFiring { g with pc := f.pc + 1, issued := g.issued + 1 }) := by
  rw [issue_eq _ _ _ _ h, hb]
  simp [Body.apply, State.advance, hg, b2n]

/-- The issue of an instruction whose body traps: the fault is taken. -/
theorem issue_trap (held : Bool) (body : Firing → State → Body) (s : State) (f : Firing) (cls code : Nat) (addr : Option Nat)
    (h : s.Issues f held) (hb : body f s = .trap cls code addr) :
    issue held body s = .next (s.takeFault s.cur f cls code addr) := by
  rw [issue_eq _ _ _ _ h, hb]
  simp [Body.apply]

/-- The issue of an instruction whose body waits changes nothing. -/
theorem issue_wait (held : Bool) (body : Firing → State → Body) (s : State) (f : Firing) (h : s.Issues f held)
    (hb : body f s = .wait) : issue held body s = .next s := by
  rw [issue_eq _ _ _ _ h, hb]
  simp [Body.apply]

/-- An instruction that changes its firing and holds an action. -/
theorem issue_hold (held : Bool) (body : Firing → State → Body) (s : State) (f g : Firing) (a : Act) (h : s.Issues f held)
    (hb : body f s = .done ((s.setFiring g).hold f a)) (hpc : g.pc = f.pc) :
    issue held body s = .next (if held then s.ranHeld f g a else s.ranMark f g a) := by
  rw [issue_done _ _ _ _ _ g h hb (by simp [State.hold, State.setFiring])]
  cases held <;> simp [State.ranHeld, State.ranMark, Firing.nextHeld, Firing.next, b2n, State.hold, State.modCore, State.setFiring,
    hpc]

/-- An instruction that holds an action and leaves its firing. -/
theorem issue_hold_same (held : Bool) (body : Firing → State → Body) (s : State) (f : Firing) (a : Act) (h : s.Issues f held)
    (hb : body f s = .done (s.hold f a)) :
    issue held body s = .next (if held then s.ranHeld f f a else s.ranMark f f a) := by
  rw [issue_done _ _ _ _ _ f h hb (by simp [State.hold, h.1])]
  cases held <;> simp [State.ranHeld, State.ranMark, Firing.nextHeld, Firing.next, b2n, State.hold, State.modCore, State.setFiring]

/-- An instruction whose body writes only its firing. -/
theorem issue_ran (held : Bool) (body : Firing → State → Body) (s : State) (f g : Firing) (h : s.Issues f held)
    (hb : body f s = .done (s.setFiring g)) (hpc : g.pc = f.pc) (hh : held = false) :
    issue held body s = .next (s.ran g) := by
  subst hh
  rw [issue_done _ _ _ _ _ g h hb (by simp)]
  simp [State.ran, Firing.next, b2n, hpc]

/-- An instruction that only changes its firing. -/
theorem issue_onlyFiring (g : Firing → State → Firing) (s : State) (f : Firing) (h : s.Issues f false)
    (hpc : (g f s).pc = f.pc) : issue false (onlyFiring g) s = .next (s.ran (g f s)) := by
  rw [issue_eq _ _ _ _ h]
  simp [onlyFiring, Body.apply, State.advance, State.ran, Firing.next, b2n, hpc]

/-- An instruction that only holds an action. -/
theorem issue_onlyHold (a : Firing → State → Act) (s : State) (f : Firing) (h : s.Issues f true) :
    issue true (onlyHold a) s = .next (s.ranHeld f f (a f s)) := by
  rw [issue_eq _ _ _ _ h]
  have hf := h.1
  simp [onlyHold, Body.apply, State.advance, State.ranHeld, Firing.nextHeld, b2n, State.hold, State.modCore,
    State.setFiring, hf]

end Sys2Proof.Machine
end

