-- ==== Sys2Proof/Laws/PerInstr.lean ====
section
/-! SUPPORT. A statement for every instruction as syntax: a word of its own has a major opcode of the opcode map (R182), and an event
has no word; one lemma for each constructor. -/

namespace Sys2Proof.Laws.Encodes

set_option Elab.async false

/-- The major opcode of an instruction's word is an assigned one, 0x00 to 0x25 (R182). -/
def Statement (i : Instr) : Prop := ∀ w, encode i = some w → (opOf w).toNat ≤ 0x25

theorem of_some {i : Instr} {x : IWord} (e : encode i = some x) (h : (opOf x).toNat ≤ 0x25) : Statement i := by
  intro w hw
  rw [e] at hw
  cases hw
  exact h

theorem of_none {i : Instr} (e : encode i = none) : Statement i := by
  intro w hw
  rw [e] at hw
  cases hw

theorem nop : Statement .nop := of_some rfl ((congrArg BitVec.toNat (opOf_packR _ _)).trans_le (by decide))
theorem endf : Statement .endf := of_some rfl ((congrArg BitVec.toNat (opOf_packR _ _)).trans_le (by decide))
theorem trap : ∀ code, Statement (.trap code) := fun _ =>
  of_some rfl ((congrArg BitVec.toNat (opOf_packR _ _)).trans_le (by decide))
theorem halt : Statement .halt := of_some rfl ((congrArg BitVec.toNat (opOf_packR _ _)).trans_le (by decide))
theorem roinv : Statement .roinv := of_some rfl ((congrArg BitVec.toNat (opOf_packR _ _)).trans_le (by decide))
theorem cont : ∀ ld st cp tl sl, Statement (.cont ld st cp tl sl) := fun _ _ _ _ _ =>
  of_some rfl ((congrArg BitVec.toNat (opOf_packW _ _)).trans_le (by decide))
theorem csrr : ∀ td csr, Statement (.csrr td csr) := fun _ _ =>
  of_some rfl ((congrArg BitVec.toNat (opOf_packI _ _)).trans_le (by decide))
theorem csrw : ∀ ta csr, Statement (.csrw ta csr) := fun _ _ =>
  of_some rfl ((congrArg BitVec.toNat (opOf_packI _ _)).trans_le (by decide))
theorem csrs : ∀ td ta csr, Statement (.csrs td ta csr) := fun _ _ _ =>
  of_some rfl ((congrArg BitVec.toNat (opOf_packI _ _)).trans_le (by decide))
theorem li : ∀ td im, Statement (.li td im) := fun _ _ =>
  of_some rfl ((congrArg BitVec.toNat (opOf_packI _ _)).trans_le (by decide))
theorem lih : ∀ td ta im, Statement (.lih td ta im) := fun _ _ _ =>
  of_some rfl ((congrArg BitVec.toNat (opOf_packI _ _)).trans_le (by decide))
theorem addi : ∀ td ta im, Statement (.addi td ta im) := fun _ _ _ =>
  of_some rfl ((congrArg BitVec.toNat (opOf_packI _ _)).trans_le (by decide))
theorem andi : ∀ td ta im, Statement (.andi td ta im) := fun _ _ _ =>
  of_some rfl ((congrArg BitVec.toNat (opOf_packI _ _)).trans_le (by decide))
theorem ori : ∀ td ta im, Statement (.ori td ta im) := fun _ _ _ =>
  of_some rfl ((congrArg BitVec.toNat (opOf_packI _ _)).trans_le (by decide))
theorem xori : ∀ td ta im, Statement (.xori td ta im) := fun _ _ _ =>
  of_some rfl ((congrArg BitVec.toNat (opOf_packI _ _)).trans_le (by decide))
theorem shli : ∀ td ta amt, Statement (.shli td ta amt) := fun _ _ _ =>
  of_some rfl ((congrArg BitVec.toNat (opOf_packI _ _)).trans_le (by decide))
theorem shri : ∀ td ta amt, Statement (.shri td ta amt) := fun _ _ _ =>
  of_some rfl ((congrArg BitVec.toNat (opOf_packI _ _)).trans_le (by decide))
theorem srai : ∀ td ta amt, Statement (.srai td ta amt) := fun _ _ _ =>
  of_some rfl ((congrArg BitVec.toNat (opOf_packI _ _)).trans_le (by decide))
theorem add : ∀ td ta tb, Statement (.add td ta tb) := fun _ _ _ =>
  of_some rfl ((congrArg BitVec.toNat (opOf_packR _ _)).trans_le (by decide))
theorem sub : ∀ td ta tb, Statement (.sub td ta tb) := fun _ _ _ =>
  of_some rfl ((congrArg BitVec.toNat (opOf_packR _ _)).trans_le (by decide))
theorem mul : ∀ td ta tb, Statement (.mul td ta tb) := fun _ _ _ =>
  of_some rfl ((congrArg BitVec.toNat (opOf_packR _ _)).trans_le (by decide))
theorem mulh : ∀ td ta tb, Statement (.mulh td ta tb) := fun _ _ _ =>
  of_some rfl ((congrArg BitVec.toNat (opOf_packR _ _)).trans_le (by decide))
theorem div : ∀ td ta tb, Statement (.div td ta tb) := fun _ _ _ =>
  of_some rfl ((congrArg BitVec.toNat (opOf_packR _ _)).trans_le (by decide))
theorem divu : ∀ td ta tb, Statement (.divu td ta tb) := fun _ _ _ =>
  of_some rfl ((congrArg BitVec.toNat (opOf_packR _ _)).trans_le (by decide))
theorem rem : ∀ td ta tb, Statement (.rem td ta tb) := fun _ _ _ =>
  of_some rfl ((congrArg BitVec.toNat (opOf_packR _ _)).trans_le (by decide))
theorem and : ∀ td ta tb, Statement (.and td ta tb) := fun _ _ _ =>
  of_some rfl ((congrArg BitVec.toNat (opOf_packR _ _)).trans_le (by decide))
theorem or : ∀ td ta tb, Statement (.or td ta tb) := fun _ _ _ =>
  of_some rfl ((congrArg BitVec.toNat (opOf_packR _ _)).trans_le (by decide))
theorem xor : ∀ td ta tb, Statement (.xor td ta tb) := fun _ _ _ =>
  of_some rfl ((congrArg BitVec.toNat (opOf_packR _ _)).trans_le (by decide))
theorem shl : ∀ td ta tb, Statement (.shl td ta tb) := fun _ _ _ =>
  of_some rfl ((congrArg BitVec.toNat (opOf_packR _ _)).trans_le (by decide))
theorem shr : ∀ td ta tb, Statement (.shr td ta tb) := fun _ _ _ =>
  of_some rfl ((congrArg BitVec.toNat (opOf_packR _ _)).trans_le (by decide))
theorem sra : ∀ td ta tb, Statement (.sra td ta tb) := fun _ _ _ =>
  of_some rfl ((congrArg BitVec.toNat (opOf_packR _ _)).trans_le (by decide))
theorem min : ∀ td ta tb, Statement (.min td ta tb) := fun _ _ _ =>
  of_some rfl ((congrArg BitVec.toNat (opOf_packR _ _)).trans_le (by decide))
theorem max : ∀ td ta tb, Statement (.max td ta tb) := fun _ _ _ =>
  of_some rfl ((congrArg BitVec.toNat (opOf_packR _ _)).trans_le (by decide))
theorem slt : ∀ td ta tb, Statement (.slt td ta tb) := fun _ _ _ =>
  of_some rfl ((congrArg BitVec.toNat (opOf_packR _ _)).trans_le (by decide))
theorem sltu : ∀ td ta tb, Statement (.sltu td ta tb) := fun _ _ _ =>
  of_some rfl ((congrArg BitVec.toNat (opOf_packR _ _)).trans_le (by decide))
theorem clz : ∀ td ta, Statement (.clz td ta) := fun _ _ =>
  of_some rfl ((congrArg BitVec.toNat (opOf_packR _ _)).trans_le (by decide))
theorem popc : ∀ td ta, Statement (.popc td ta) := fun _ _ =>
  of_some rfl ((congrArg BitVec.toNat (opOf_packR _ _)).trans_le (by decide))
theorem sel : ∀ td ta tb tc, Statement (.sel td ta tb tc) := fun _ _ _ _ =>
  of_some rfl ((congrArg BitVec.toNat (opOf_packR _ _)).trans_le (by decide))
theorem br : ∀ cc ta tb off, Statement (.br cc ta tb off) := fun _ _ _ _ =>
  of_some rfl ((congrArg BitVec.toNat (opOf_packB _ _)).trans_le (by decide))
theorem jmpi : ∀ ta, Statement (.jmpi ta) := fun _ =>
  of_some rfl ((congrArg BitVec.toNat (opOf_packR _ _)).trans_le (by decide))
theorem fld : ∀ size t k, Statement (.fld size t k) := fun _ _ _ =>
  of_some rfl ((congrArg BitVec.toNat (opOf_packF _ _)).trans_le (by decide))
theorem fst : ∀ size t k, Statement (.fst size t k) := fun _ _ _ =>
  of_some rfl ((congrArg BitVec.toNat (opOf_packF _ _)).trans_le (by decide))
theorem falloc : ∀ td ta, Statement (.falloc td ta) := fun _ _ =>
  of_some rfl ((congrArg BitVec.toNat (opOf_packR _ _)).trans_le (by decide))
theorem ffree : ∀ ta, Statement (.ffree ta) := fun _ =>
  of_some rfl ((congrArg BitVec.toNat (opOf_packR _ _)).trans_le (by decide))
theorem fself : ∀ td, Statement (.fself td) := fun _ =>
  of_some rfl ((congrArg BitVec.toNat (opOf_packR _ _)).trans_le (by decide))
theorem fidx : ∀ td ta, Statement (.fidx td ta) := fun _ _ =>
  of_some rfl ((congrArg BitVec.toNat (opOf_packR _ _)).trans_le (by decide))
theorem slotset : ∀ n ta, Statement (.slotset n ta) := fun _ _ =>
  of_some rfl ((congrArg BitVec.toNat (opOf_packR _ _)).trans_le (by decide))
theorem slotarm : ∀ n ta, Statement (.slotarm n ta) := fun _ _ =>
  of_some rfl ((congrArg BitVec.toNat (opOf_packR _ _)).trans_le (by decide))
theorem slotrd : ∀ td n, Statement (.slotrd td n) := fun _ _ =>
  of_some rfl ((congrArg BitVec.toNat (opOf_packR _ _)).trans_le (by decide))
theorem slotdis : ∀ n, Statement (.slotdis n) := fun _ =>
  of_some rfl ((congrArg BitVec.toNat (opOf_packR _ _)).trans_le (by decide))
theorem send : ∀ rel tv th n k, Statement (.send rel tv th n k) := fun _ _ _ _ _ =>
  of_some rfl ((congrArg BitVec.toNat (opOf_packS _ _)).trans_le (by decide))
theorem sendv : ∀ rel tv th n k, Statement (.sendv rel tv th n k) := fun _ _ _ _ _ =>
  of_some rfl ((congrArg BitVec.toNat (opOf_packS _ _)).trans_le (by decide))
theorem sig : ∀ rel th n amount, Statement (.sig rel th n amount) := fun _ _ _ _ =>
  of_some rfl ((congrArg BitVec.toNat (opOf_packS _ _)).trans_le (by decide))
theorem sigReg : ∀ rel tv th n, Statement (.sigReg rel tv th n) := fun _ _ _ _ =>
  of_some rfl ((congrArg BitVec.toNat (opOf_packS _ _)).trans_le (by decide))
theorem chpop : ∀ vec td p, Statement (.chpop vec td p) := fun _ _ _ =>
  of_some rfl ((congrArg BitVec.toNat (opOf_packR _ _)).trans_le (by decide))
theorem chpeek : ∀ vec td p, Statement (.chpeek vec td p) := fun _ _ _ =>
  of_some rfl ((congrArg BitVec.toNat (opOf_packR _ _)).trans_le (by decide))
theorem chpush : ∀ vec ta p, Statement (.chpush vec ta p) := fun _ _ _ =>
  of_some rfl ((congrArg BitVec.toNat (opOf_packR _ _)).trans_le (by decide))
theorem chend : ∀ p, Statement (.chend p) := fun _ =>
  of_some rfl ((congrArg BitVec.toNat (opOf_packR _ _)).trans_le (by decide))
theorem chrcfg : ∀ ta p, Statement (.chrcfg ta p) := fun _ _ =>
  of_some rfl ((congrArg BitVec.toNat (opOf_packR _ _)).trans_le (by decide))
theorem lgen : ∀ td ta, Statement (.lgen td ta) := fun _ _ =>
  of_some rfl ((congrArg BitVec.toNat (opOf_packR _ _)).trans_le (by decide))
theorem lgstop : ∀ g, Statement (.lgstop g) := fun _ =>
  of_some rfl ((congrArg BitVec.toNat (opOf_packR _ _)).trans_le (by decide))
theorem launch : ∀ td ta, Statement (.launch td ta) := fun _ _ =>
  of_some rfl ((congrArg BitVec.toNat (opOf_packR _ _)).trans_le (by decide))
theorem ld : ∀ size t tb off, Statement (.ld size t tb off) := fun _ _ _ _ =>
  of_some rfl ((congrArg BitVec.toNat (opOf_packM _ _)).trans_le (by decide))
theorem st : ∀ size t tb off, Statement (.st size t tb off) := fun _ _ _ _ =>
  of_some rfl ((congrArg BitVec.toNat (opOf_packM _ _)).trans_le (by decide))
theorem stt : ∀ size t tb off, Statement (.stt size t tb off) := fun _ _ _ _ =>
  of_some rfl ((congrArg BitVec.toNat (opOf_packM _ _)).trans_le (by decide))
theorem pst : ∀ size t tb off, Statement (.pst size t tb off) := fun _ _ _ _ =>
  of_some rfl ((congrArg BitVec.toNat (opOf_packM _ _)).trans_le (by decide))
theorem lds : ∀ size k tb sl, Statement (.lds size k tb sl) := fun _ _ _ _ =>
  of_some rfl ((congrArg BitVec.toNat (opOf_packX _ _)).trans_le (by decide))
theorem ldro : ∀ size k tb sl, Statement (.ldro size k tb sl) := fun _ _ _ _ =>
  of_some rfl ((congrArg BitVec.toNat (opOf_packX _ _)).trans_le (by decide))
theorem aadd : ∀ wd scope k tb sl, Statement (.aadd wd scope k tb sl) := fun _ _ _ _ _ =>
  of_some rfl ((congrArg BitVec.toNat (opOf_packX _ _)).trans_le (by decide))
theorem aand : ∀ wd scope k tb sl, Statement (.aand wd scope k tb sl) := fun _ _ _ _ _ =>
  of_some rfl ((congrArg BitVec.toNat (opOf_packX _ _)).trans_le (by decide))
theorem aor : ∀ wd scope k tb sl, Statement (.aor wd scope k tb sl) := fun _ _ _ _ _ =>
  of_some rfl ((congrArg BitVec.toNat (opOf_packX _ _)).trans_le (by decide))
theorem axor : ∀ wd scope k tb sl, Statement (.axor wd scope k tb sl) := fun _ _ _ _ _ =>
  of_some rfl ((congrArg BitVec.toNat (opOf_packX _ _)).trans_le (by decide))
theorem amin : ∀ wd scope k tb sl, Statement (.amin wd scope k tb sl) := fun _ _ _ _ _ =>
  of_some rfl ((congrArg BitVec.toNat (opOf_packX _ _)).trans_le (by decide))
theorem amax : ∀ wd scope k tb sl, Statement (.amax wd scope k tb sl) := fun _ _ _ _ _ =>
  of_some rfl ((congrArg BitVec.toNat (opOf_packX _ _)).trans_le (by decide))
theorem aswap : ∀ wd scope k tb sl, Statement (.aswap wd scope k tb sl) := fun _ _ _ _ _ =>
  of_some rfl ((congrArg BitVec.toNat (opOf_packX _ _)).trans_le (by decide))
theorem afadd : ∀ scope k tb sl, Statement (.afadd scope k tb sl) := fun _ _ _ _ =>
  of_some rfl ((congrArg BitVec.toNat (opOf_packX _ _)).trans_le (by decide))
theorem acas : ∀ wd scope k tb sl, Statement (.acas wd scope k tb sl) := fun _ _ _ _ _ =>
  of_some rfl ((congrArg BitVec.toNat (opOf_packX _ _)).trans_le (by decide))
theorem fence : ∀ kind scope, Statement (.fence kind scope) := fun _ _ =>
  of_some rfl ((congrArg BitVec.toNat (opOf_packR _ _)).trans_le (by decide))
theorem hpdef : ∀ td ta, Statement (.hpdef td ta) := fun _ _ =>
  of_some rfl ((congrArg BitVec.toNat (opOf_packR _ _)).trans_le (by decide))
theorem hpput : ∀ td ta, Statement (.hpput td ta) := fun _ _ =>
  of_some rfl ((congrArg BitVec.toNat (opOf_packR _ _)).trans_le (by decide))
theorem hpwait : ∀ td ta, Statement (.hpwait td ta) := fun _ _ =>
  of_some rfl ((congrArg BitVec.toNat (opOf_packR _ _)).trans_le (by decide))
theorem turndef : ∀ td ta, Statement (.turndef td ta) := fun _ _ =>
  of_some rfl ((congrArg BitVec.toNat (opOf_packR _ _)).trans_le (by decide))
theorem turngo : ∀ td ta, Statement (.turngo td ta) := fun _ _ =>
  of_some rfl ((congrArg BitVec.toNat (opOf_packR _ _)).trans_le (by decide))
theorem reddef : ∀ td ta, Statement (.reddef td ta) := fun _ _ =>
  of_some rfl ((congrArg BitVec.toNat (opOf_packR _ _)).trans_le (by decide))
theorem redput : ∀ td ta, Statement (.redput td ta) := fun _ _ =>
  of_some rfl ((congrArg BitVec.toNat (opOf_packR _ _)).trans_le (by decide))
theorem pbdef : ∀ td ta, Statement (.pbdef td ta) := fun _ _ =>
  of_some rfl ((congrArg BitVec.toNat (opOf_packR _ _)).trans_le (by decide))
theorem publ : ∀ scope ta, Statement (.publ scope ta) := fun _ _ =>
  of_some rfl ((congrArg BitVec.toNat (opOf_packR _ _)).trans_le (by decide))
theorem vadd : ∀ ty rm td ta tb, Statement (.vadd ty rm td ta tb) := fun _ _ _ _ _ =>
  of_some rfl ((congrArg BitVec.toNat (opOf_packR _ _)).trans_le (by decide))
theorem vsub : ∀ ty rm td ta tb, Statement (.vsub ty rm td ta tb) := fun _ _ _ _ _ =>
  of_some rfl ((congrArg BitVec.toNat (opOf_packR _ _)).trans_le (by decide))
theorem vmul : ∀ ty rm td ta tb, Statement (.vmul ty rm td ta tb) := fun _ _ _ _ _ =>
  of_some rfl ((congrArg BitVec.toNat (opOf_packR _ _)).trans_le (by decide))
theorem vfma : ∀ ty rm td ta tb tc, Statement (.vfma ty rm td ta tb tc) := fun _ _ _ _ _ _ =>
  of_some rfl ((congrArg BitVec.toNat (opOf_packR _ _)).trans_le (by decide))
theorem vfms : ∀ ty rm td ta tb tc, Statement (.vfms ty rm td ta tb tc) := fun _ _ _ _ _ _ =>
  of_some rfl ((congrArg BitVec.toNat (opOf_packR _ _)).trans_le (by decide))
theorem vmin : ∀ ty rm td ta tb, Statement (.vmin ty rm td ta tb) := fun _ _ _ _ _ =>
  of_some rfl ((congrArg BitVec.toNat (opOf_packR _ _)).trans_le (by decide))
theorem vmax : ∀ ty rm td ta tb, Statement (.vmax ty rm td ta tb) := fun _ _ _ _ _ =>
  of_some rfl ((congrArg BitVec.toNat (opOf_packR _ _)).trans_le (by decide))
theorem vdiv : ∀ ty rm td ta tb, Statement (.vdiv ty rm td ta tb) := fun _ _ _ _ _ =>
  of_some rfl ((congrArg BitVec.toNat (opOf_packR _ _)).trans_le (by decide))
theorem vsqrt : ∀ ty rm td ta, Statement (.vsqrt ty rm td ta) := fun _ _ _ _ =>
  of_some rfl ((congrArg BitVec.toNat (opOf_packR _ _)).trans_le (by decide))
theorem vrcp : ∀ ty rm td ta, Statement (.vrcp ty rm td ta) := fun _ _ _ _ =>
  of_some rfl ((congrArg BitVec.toNat (opOf_packR _ _)).trans_le (by decide))
theorem vrsq : ∀ ty rm td ta, Statement (.vrsq ty rm td ta) := fun _ _ _ _ =>
  of_some rfl ((congrArg BitVec.toNat (opOf_packR _ _)).trans_le (by decide))
theorem vexp2 : ∀ ty rm td ta, Statement (.vexp2 ty rm td ta) := fun _ _ _ _ =>
  of_some rfl ((congrArg BitVec.toNat (opOf_packR _ _)).trans_le (by decide))
theorem vlog2 : ∀ ty rm td ta, Statement (.vlog2 ty rm td ta) := fun _ _ _ _ =>
  of_some rfl ((congrArg BitVec.toNat (opOf_packR _ _)).trans_le (by decide))
theorem viadd : ∀ ty sat td ta tb, Statement (.viadd ty sat td ta tb) := fun _ _ _ _ _ =>
  of_some rfl ((congrArg BitVec.toNat (opOf_packR _ _)).trans_le (by decide))
theorem visub : ∀ ty sat td ta tb, Statement (.visub ty sat td ta tb) := fun _ _ _ _ _ =>
  of_some rfl ((congrArg BitVec.toNat (opOf_packR _ _)).trans_le (by decide))
theorem vimul : ∀ ty sat td ta tb, Statement (.vimul ty sat td ta tb) := fun _ _ _ _ _ =>
  of_some rfl ((congrArg BitVec.toNat (opOf_packR _ _)).trans_le (by decide))
theorem vand : ∀ ty td ta tb, Statement (.vand ty td ta tb) := fun _ _ _ _ =>
  of_some rfl ((congrArg BitVec.toNat (opOf_packR _ _)).trans_le (by decide))
theorem vor : ∀ ty td ta tb, Statement (.vor ty td ta tb) := fun _ _ _ _ =>
  of_some rfl ((congrArg BitVec.toNat (opOf_packR _ _)).trans_le (by decide))
theorem vxor : ∀ ty td ta tb, Statement (.vxor ty td ta tb) := fun _ _ _ _ =>
  of_some rfl ((congrArg BitVec.toNat (opOf_packR _ _)).trans_le (by decide))
theorem vshl : ∀ ty sat td ta tb, Statement (.vshl ty sat td ta tb) := fun _ _ _ _ _ =>
  of_some rfl ((congrArg BitVec.toNat (opOf_packR _ _)).trans_le (by decide))
theorem vshr : ∀ ty td ta tb, Statement (.vshr ty td ta tb) := fun _ _ _ _ =>
  of_some rfl ((congrArg BitVec.toNat (opOf_packR _ _)).trans_le (by decide))
theorem vsra : ∀ ty td ta tb, Statement (.vsra ty td ta tb) := fun _ _ _ _ =>
  of_some rfl ((congrArg BitVec.toNat (opOf_packR _ _)).trans_le (by decide))
theorem vcmp : ∀ ty cond td ta tb, Statement (.vcmp ty cond td ta tb) := fun _ _ _ _ _ =>
  of_some rfl ((congrArg BitVec.toNat (opOf_packR _ _)).trans_le (by decide))
theorem vsel : ∀ ty td ta tb tc, Statement (.vsel ty td ta tb tc) := fun _ _ _ _ _ =>
  of_some rfl ((congrArg BitVec.toNat (opOf_packR _ _)).trans_le (by decide))
theorem vperm : ∀ ty td ta tb, Statement (.vperm ty td ta tb) := fun _ _ _ _ =>
  of_some rfl ((congrArg BitVec.toNat (opOf_packR _ _)).trans_le (by decide))
theorem vbcast : ∀ ty td ta, Statement (.vbcast ty td ta) := fun _ _ _ =>
  of_some rfl ((congrArg BitVec.toNat (opOf_packR _ _)).trans_le (by decide))
theorem vext : ∀ ty td ta tb, Statement (.vext ty td ta tb) := fun _ _ _ _ =>
  of_some rfl ((congrArg BitVec.toNat (opOf_packR _ _)).trans_le (by decide))
theorem vins : ∀ ty td ta tb, Statement (.vins ty td ta tb) := fun _ _ _ _ =>
  of_some rfl ((congrArg BitVec.toNat (opOf_packR _ _)).trans_le (by decide))
theorem vred : ∀ ty op td ta, Statement (.vred ty op td ta) := fun _ _ _ _ =>
  of_some rfl ((congrArg BitVec.toNat (opOf_packR _ _)).trans_le (by decide))
theorem vcvt : ∀ src dst r part td ta, Statement (.vcvt src dst r part td ta) := fun _ _ _ _ _ _ =>
  of_some rfl ((congrArg BitVec.toNat (opOf_packR _ _)).trans_le (by decide))
theorem vdec : ∀ ct part td ta, Statement (.vdec ct part td ta) := fun _ _ _ _ =>
  of_some rfl ((congrArg BitVec.toNat (opOf_packR _ _)).trans_le (by decide))
theorem venc : ∀ ct part td ta, Statement (.venc ct part td ta) := fun _ _ _ _ =>
  of_some rfl ((congrArg BitVec.toNat (opOf_packR _ _)).trans_le (by decide))
theorem ctld : ∀ ct ta, Statement (.ctld ct ta) := fun _ _ =>
  of_some rfl ((congrArg BitVec.toNat (opOf_packR _ _)).trans_le (by decide))
theorem tdef : ∀ tile ta, Statement (.tdef tile ta) := fun _ _ =>
  of_some rfl ((congrArg BitVec.toNat (opOf_packR _ _)).trans_le (by decide))
theorem tstat : ∀ td tile, Statement (.tstat td tile) := fun _ _ =>
  of_some rfl ((congrArg BitVec.toNat (opOf_packR _ _)).trans_le (by decide))
theorem trel : ∀ tile, Statement (.trel tile) := fun _ =>
  of_some rfl ((congrArg BitVec.toNat (opOf_packR _ _)).trans_le (by decide))
theorem mxfmt : ∀ td ta, Statement (.mxfmt td ta) := fun _ _ =>
  of_some rfl ((congrArg BitVec.toNat (opOf_packR _ _)).trans_le (by decide))
theorem mxldw : ∀ td ta, Statement (.mxldw td ta) := fun _ _ =>
  of_some rfl ((congrArg BitVec.toNat (opOf_packR _ _)).trans_le (by decide))
theorem mxstrm : ∀ td ta, Statement (.mxstrm td ta) := fun _ _ =>
  of_some rfl ((congrArg BitVec.toNat (opOf_packR _ _)).trans_le (by decide))
theorem mxgang : ∀ td ta, Statement (.mxgang td ta) := fun _ _ =>
  of_some rfl ((congrArg BitVec.toNat (opOf_packR _ _)).trans_le (by decide))
theorem mxrd : ∀ td ta, Statement (.mxrd td ta) := fun _ _ =>
  of_some rfl ((congrArg BitVec.toNat (opOf_packR _ _)).trans_le (by decide))
theorem mxepi : ∀ td ta, Statement (.mxepi td ta) := fun _ _ =>
  of_some rfl ((congrArg BitVec.toNat (opOf_packR _ _)).trans_le (by decide))
theorem mxclr : ∀ td ta, Statement (.mxclr td ta) := fun _ _ =>
  of_some rfl ((congrArg BitVec.toNat (opOf_packR _ _)).trans_le (by decide))
theorem mxscan : ∀ td ta, Statement (.mxscan td ta) := fun _ _ =>
  of_some rfl ((congrArg BitVec.toNat (opOf_packR _ _)).trans_le (by decide))
theorem cpy : ∀ td ta, Statement (.cpy td ta) := fun _ _ =>
  of_some rfl ((congrArg BitVec.toNat (opOf_packR _ _)).trans_le (by decide))
theorem cpym : ∀ td ta, Statement (.cpym td ta) := fun _ _ =>
  of_some rfl ((congrArg BitVec.toNat (opOf_packR _ _)).trans_le (by decide))
theorem cpyx : ∀ td ta, Statement (.cpyx td ta) := fun _ _ =>
  of_some rfl ((congrArg BitVec.toNat (opOf_packR _ _)).trans_le (by decide))
theorem gath : ∀ td ta, Statement (.gath td ta) := fun _ _ =>
  of_some rfl ((congrArg BitVec.toNat (opOf_packR _ _)).trans_le (by decide))
theorem jstat : ∀ td ta, Statement (.jstat td ta) := fun _ _ =>
  of_some rfl ((congrArg BitVec.toNat (opOf_packR _ _)).trans_le (by decide))
theorem jcan : ∀ ta, Statement (.jcan ta) := fun _ =>
  of_some rfl ((congrArg BitVec.toNat (opOf_packR _ _)).trans_le (by decide))
theorem ings : ∀ td ta, Statement (.ings td ta) := fun _ _ =>
  of_some rfl ((congrArg BitVec.toNat (opOf_packR _ _)).trans_le (by decide))
theorem ingq : ∀ td, Statement (.ingq td) := fun _ =>
  of_some rfl ((congrArg BitVec.toNat (opOf_packR _ _)).trans_le (by decide))
theorem rplay : Statement .rplay := of_some rfl ((congrArg BitVec.toNat (opOf_packR _ _)).trans_le (by decide))
theorem tlbinv : ∀ ta, Statement (.tlbinv ta) := fun _ =>
  of_some rfl ((congrArg BitVec.toNat (opOf_packR _ _)).trans_le (by decide))
theorem codeseal : ∀ td ta, Statement (.codeseal td ta) := fun _ _ =>
  of_some rfl ((congrArg BitVec.toNat (opOf_packR _ _)).trans_le (by decide))
theorem place : ∀ td ta, Statement (.place td ta) := fun _ _ =>
  of_some rfl ((congrArg BitVec.toNat (opOf_packR _ _)).trans_le (by decide))
theorem cfgld : ∀ td ta, Statement (.cfgld td ta) := fun _ _ =>
  of_some rfl ((congrArg BitVec.toNat (opOf_packR _ _)).trans_le (by decide))
theorem cancel : ∀ ta, Statement (.cancel ta) := fun _ =>
  of_some rfl ((congrArg BitVec.toNat (opOf_packR _ _)).trans_le (by decide))
theorem commitQueueRelease : ∀ core, Statement (.commitQueueRelease core) := fun _ => of_none rfl
theorem dispatch : ∀ core, Statement (.dispatch core) := fun _ => of_none rfl
theorem ageing : ∀ obj, Statement (.ageing obj) := fun _ => of_none rfl
theorem frameTokenArrival : ∀ pkt, Statement (.frameTokenArrival pkt) := fun _ => of_none rfl
theorem channelTokenArrival : ∀ pkt, Statement (.channelTokenArrival pkt) := fun _ => of_none rfl
theorem creditReturn : ∀ pkt, Statement (.creditReturn pkt) := fun _ => of_none rfl
theorem homeAccess : ∀ pkt, Statement (.homeAccess pkt) := fun _ => of_none rfl
theorem loadCompletion : ∀ pkt, Statement (.loadCompletion pkt) := fun _ => of_none rfl
theorem atomicCompletion : ∀ pkt, Statement (.atomicCompletion pkt) := fun _ => of_none rfl
theorem storeAcknowledgement : ∀ pkt, Statement (.storeAcknowledgement pkt) := fun _ => of_none rfl
theorem hostResponse : ∀ pkt data, Statement (.hostResponse pkt data) := fun _ _ => of_none rfl
theorem continuationPush : ∀ core frame, Statement (.continuationPush core frame) := fun _ _ => of_none rfl
theorem spilledArrival : ∀ pkt, Statement (.spilledArrival pkt) := fun _ => of_none rfl
theorem writeBackComplete : ∀ core frame, Statement (.writeBackComplete core frame) := fun _ _ => of_none rfl
theorem fillBackStart : ∀ core frame victim, Statement (.fillBackStart core frame victim) := fun _ _ _ => of_none rfl
theorem fillBackComplete : ∀ core frame, Statement (.fillBackComplete core frame) := fun _ _ => of_none rfl
theorem generatorEmit : ∀ core gen, Statement (.generatorEmit core gen) := fun _ _ => of_none rfl
theorem lgenArrival : ∀ pkt, Statement (.lgenArrival pkt) := fun _ => of_none rfl
theorem launchAtTarget : ∀ pkt, Statement (.launchAtTarget pkt) := fun _ => of_none rfl
theorem workCounterUpdate : ∀ pkt, Statement (.workCounterUpdate pkt) := fun _ => of_none rfl
theorem purge : ∀ pkt, Statement (.purge pkt) := fun _ => of_none rfl
theorem purgeAcknowledgement : ∀ die index, Statement (.purgeAcknowledgement die index) := fun _ _ => of_none rfl
theorem descriptorFetchComplete : ∀ core vnode, Statement (.descriptorFetchComplete core vnode) := fun _ _ => of_none rfl
theorem jobIssue : ∀ queue, Statement (.jobIssue queue) := fun _ => of_none rfl
theorem pressJobRetire : ∀ core, Statement (.pressJobRetire core) := fun _ => of_none rfl
theorem copyLineWrite : ∀ queue id, Statement (.copyLineWrite queue id) := fun _ _ => of_none rfl
theorem copySourceRelease : ∀ queue id, Statement (.copySourceRelease queue id) := fun _ _ => of_none rfl
theorem copyVisibleCompletion : ∀ queue id, Statement (.copyVisibleCompletion queue id) := fun _ _ => of_none rfl
theorem mxrdTokenSend : ∀ core, Statement (.mxrdTokenSend core) := fun _ => of_none rfl
theorem reconfigRelocation : ∀ core channel, Statement (.reconfigRelocation core channel) := fun _ _ => of_none rfl
theorem checkpointPass : ∀ core vnode, Statement (.checkpointPass core vnode) := fun _ _ => of_none rfl
theorem spillRingAppend : ∀ pkt, Statement (.spillRingAppend pkt) := fun _ => of_none rfl
theorem monitorSample : ∀ unit value, Statement (.monitorSample unit value) := fun _ _ => of_none rfl
theorem publHoldEnd : ∀ asid k, Statement (.publHoldEnd asid k) := fun _ _ => of_none rfl
theorem walkCompletion : ∀ cluster index, Statement (.walkCompletion cluster index) := fun _ _ => of_none rfl
theorem placeArrival : ∀ pkt, Statement (.placeArrival pkt) := fun _ => of_none rfl
theorem codesealScan : ∀ pkt, Statement (.codesealScan pkt) := fun _ => of_none rfl
theorem cfgldCompletion : ∀ pkt, Statement (.cfgldCompletion pkt) := fun _ => of_none rfl
theorem tlbinvAcknowledgement : ∀ core die, Statement (.tlbinvAcknowledgement core die) := fun _ _ => of_none rfl
theorem definitionReport : ∀ pkt, Statement (.definitionReport pkt) := fun _ => of_none rfl
theorem reductionChunk : ∀ pkt, Statement (.reductionChunk pkt) := fun _ => of_none rfl
theorem hoopDecision : ∀ pkt, Statement (.hoopDecision pkt) := fun _ => of_none rfl
theorem turnGrantArrival : ∀ pkt, Statement (.turnGrantArrival pkt) := fun _ => of_none rfl
theorem blockLanding : ∀ cluster ring slot, Statement (.blockLanding cluster ring slot) := fun _ _ _ => of_none rfl
theorem slotRegrant : ∀ cluster ring slot, Statement (.slotRegrant cluster ring slot) := fun _ _ _ => of_none rfl
theorem absenceNotice : ∀ who member, Statement (.absenceNotice who member) := fun _ _ => of_none rfl
theorem presenceNotice : ∀ who member, Statement (.presenceNotice who member) := fun _ _ => of_none rfl
theorem holdExpiry : ∀ who, Statement (.holdExpiry who) := fun _ => of_none rfl
theorem ingestToken : ∀ die msg, Statement (.ingestToken die msg) := fun _ _ => of_none rfl
theorem quarantine : ∀ die msg, Statement (.quarantine die msg) := fun _ _ => of_none rfl
theorem ingestWatchdog : ∀ die msg, Statement (.ingestWatchdog die msg) := fun _ _ => of_none rfl
theorem rdmaWrite : ∀ key va data, Statement (.rdmaWrite key va data) := fun _ _ _ => of_none rfl
theorem rdmaRead : ∀ key va len, Statement (.rdmaRead key va len) := fun _ _ _ => of_none rfl
theorem rdmaSend : ∀ qpn payload, Statement (.rdmaSend qpn payload) := fun _ _ => of_none rfl
theorem jobSubmission : ∀ die sub, Statement (.jobSubmission die sub) := fun _ _ => of_none rfl
theorem getVersion : Statement .getVersion := of_none rfl
theorem getCapabilities : Statement .getCapabilities := of_none rfl
theorem negotiateAlgorithms : Statement .negotiateAlgorithms := of_none rfl
theorem getCertificate : ∀ offset len, Statement (.getCertificate offset len) := fun _ _ => of_none rfl
theorem challenge : ∀ nonce, Statement (.challenge nonce) := fun _ => of_none rfl
theorem getMeasurements : ∀ nonce signed, Statement (.getMeasurements nonce signed) := fun _ _ => of_none rfl
theorem stewardRestart : ∀ die, Statement (.stewardRestart die) := fun _ => of_none rfl
theorem healthMapClear : ∀ die offset mask, Statement (.healthMapClear die offset mask) := fun _ _ _ => of_none rfl
theorem imageKeyReplace : ∀ key, Statement (.imageKeyReplace key) := fun _ => of_none rfl
theorem configurationRecordReplace : ∀ dx dy dz device, Statement (.configurationRecordReplace dx dy dz device) := fun _ _ _ _ => of_none rfl
theorem firmwareReplace : ∀ which image, Statement (.firmwareReplace which image) := fun _ _ => of_none rfl
theorem minimalModeExit : Statement .minimalModeExit := of_none rfl
theorem start : Statement .start := of_none rfl
theorem startStage : ∀ result, Statement (.startStage result) := fun _ => of_none rfl
theorem stageWatchdog : Statement .stageWatchdog := of_none rfl
theorem stewardReadyTimeout : ∀ die, Statement (.stewardReadyTimeout die) := fun _ => of_none rfl
theorem ethernetTimeout : ∀ port, Statement (.ethernetTimeout port) := fun _ => of_none rfl
theorem powerMeasurement : ∀ watts tmax droop, Statement (.powerMeasurement watts tmax droop) := fun _ _ _ => of_none rfl
theorem verifyImage : Statement .verifyImage := of_none rfl
theorem verifyImageResult : Statement .verifyImageResult := of_none rfl
theorem logAppend : ∀ die, Statement (.logAppend die) := fun _ => of_none rfl
theorem firstxEmpty : ∀ core, Statement (.firstxEmpty core) := fun _ => of_none rfl
theorem logOverflowClear : ∀ die, Statement (.logOverflowClear die) := fun _ => of_none rfl
theorem clusterFlagClear : ∀ cluster mask, Statement (.clusterFlagClear cluster mask) := fun _ _ => of_none rfl
theorem kerfrepClear : ∀ die, Statement (.kerfrepClear die) := fun _ => of_none rfl
theorem qringOverflowClear : ∀ die, Statement (.qringOverflowClear die) := fun _ => of_none rfl
theorem throttleFlagClear : Statement .throttleFlagClear := of_none rfl
theorem monitorClear : ∀ unit, Statement (.monitorClear unit) := fun _ => of_none rfl
theorem replayPurge : ∀ cluster asid, Statement (.replayPurge cluster asid) := fun _ _ => of_none rfl
theorem debugStop : ∀ core, Statement (.debugStop core) := fun _ => of_none rfl
theorem debugStep : ∀ core, Statement (.debugStep core) := fun _ => of_none rfl
theorem debugResume : ∀ core, Statement (.debugResume core) := fun _ => of_none rfl
theorem registerWrite : ∀ die offset value, Statement (.registerWrite die offset value) := fun _ _ _ => of_none rfl
theorem stallDetection : ∀ obj, Statement (.stallDetection obj) := fun _ => of_none rfl
theorem drainTimeout : ∀ asid, Statement (.drainTimeout asid) := fun _ => of_none rfl
theorem linkReplay : ∀ link corrected, Statement (.linkReplay link corrected) := fun _ _ => of_none rfl
theorem heldPacketRelease : ∀ pkt, Statement (.heldPacketRelease pkt) := fun _ => of_none rfl
theorem kerfGuardDrop : ∀ pkt, Statement (.kerfGuardDrop pkt) := fun _ => of_none rfl
theorem noRouteDrop : ∀ pkt, Statement (.noRouteDrop pkt) := fun _ => of_none rfl
theorem refusalAcknowledgement : ∀ pkt, Statement (.refusalAcknowledgement pkt) := fun _ => of_none rfl
theorem voteDecision : ∀ core vnode, Statement (.voteDecision core vnode) := fun _ _ => of_none rfl
theorem uncorrectableError : ∀ array how, Statement (.uncorrectableError array how) := fun _ _ => of_none rfl
theorem checkpointInjection : ∀ asid, Statement (.checkpointInjection asid) := fun _ => of_none rfl
theorem linkDegradationClear : ∀ link, Statement (.linkDegradationClear link) := fun _ => of_none rfl

end Sys2Proof.Laws.Encodes
end

