-- ==== Sys2Proof/Tests/Slice0.lean ====
section
/-! SUPPORT. Checks of the model on fixed values: words written out from the encoding tables, terms that are no instructions, a witness
for the hypotheses of each statement, and single steps of the manual's worked examples. -/

open Sys2Proof Sys2Proof.Machine

set_option Elab.async false

/-! ## Words of every instruction, from the tables of R176 to R183 -/

/-- R200: fn; R203: CONT. -/
theorem test_decode_system :
    ∀ e ∈ ([
      (0x00000000, .nop), (0x00000001, .endf), (0x00003F02, .trap 63), (0x00000003, .halt), (0x00000004, .roinv),
      (0x047F3845, .cont 3 31 7 1 5)] : List (IWord × Instr)), decode e.1 = .ok e.2 ∧ encode e.2 = some e.1 := by decide

/-- R204: sub-op in im[19:18]. -/
theorem test_decode_csr :
    ∀ e ∈ ([
      (0x0A800004, .csrr 5 4), (0x08340042, .csrw 3 0x42), (0x08A80FFF, .csrs 1 2 0xFFF)] : List (IWord × Instr)), decode e.1 = .ok e.2 ∧ encode e.2 = some e.1 := by decide

/-- R207, R208. -/
theorem test_decode_immediates :
    ∀ e ∈ ([
      (0x0F8FFFFF, .li 7 0xFFFFF), (0x10A00003, .lih 1 2 3), (0x14A80000, .addi 1 2 0x80000), (0x1B500001, .andi 6 5 1),
      (0x1F500002, .ori 6 5 2), (0x23500004, .xori 6 5 4), (0x24A0003F, .shli 1 2 63), (0x24A40001, .shri 1 2 1),
      (0x24A80020, .srai 1 2 32)] : List (IWord × Instr)), decode e.1 = .ok e.2 ∧ encode e.2 = some e.1 := by decide

/-- R209: fn; td, ta, tb from bit 25 down. -/
theorem test_decode_int :
    ∀ e ∈ ([
      (0x28A80000, .add 1 2 4), (0x28A80001, .sub 1 2 4), (0x28A80002, .mul 1 2 4), (0x28A80003, .mulh 1 2 4),
      (0x28A80004, .div 1 2 4), (0x28A80005, .divu 1 2 4), (0x28A80006, .rem 1 2 4), (0x28A80008, .and 1 2 4),
      (0x28A80009, .or 1 2 4), (0x28A8000A, .xor 1 2 4), (0x28A8000C, .shl 1 2 4), (0x28A8000D, .shr 1 2 4),
      (0x28A8000E, .sra 1 2 4), (0x28A80010, .min 1 2 4), (0x28A80011, .max 1 2 4), (0x28A80012, .slt 1 2 4),
      (0x28A80013, .sltu 1 2 4), (0x28A00014, .clz 1 2), (0x28A00015, .popc 1 2), (0x28A9C016, .sel 1 2 4 7)] : List (IWord × Instr)), decode e.1 = .ok e.2 ∧ encode e.2 = some e.1 := by decide

/-- R210: cc in [19:17]; R211. -/
theorem test_decode_branch :
    ∀ e ∈ ([
      (0x2D31FFFF, .br .beq 2 3 0x1FFFF), (0x2D33FFFF, .br .bne 2 3 0x1FFFF), (0x2D35FFFF, .br .blt 2 3 0x1FFFF),
      (0x2D37FFFF, .br .bge 2 3 0x1FFFF), (0x2D39FFFF, .br .bltu 2 3 0x1FFFF), (0x2D3BFFFF, .br .bgeu 2 3 0x1FFFF),
      (0x2C0C0005, .br .bra 0 0 5), (0x30400000, .jmpi 4)] : List (IWord × Instr)), decode e.1 = .ok e.2 ∧ encode e.2 = some e.1 := by decide

/-- R212: size in [13:12]; R214 to R216; R217: slot in md. -/
theorem test_decode_frame :
    ∀ e ∈ ([
      (0x35FFC000, .fld .d 3 511), (0x35821000, .fld .v 3 8), (0x35826000, .fld .w 3 9), (0x35827000, .fld .ws 3 9),
      (0x37041001, .fst .v 6 16), (0x38A00000, .falloc 1 2), (0x38200001, .ffree 2), (0x38800002, .fself 1),
      (0x38A00003, .fidx 1 2), (0x3C203F00, .slotset 63 2), (0x3C200501, .slotarm 5 2), (0x3E000502, .slotrd 4 5),
      (0x3C000503, .slotdis 5)] : List (IWord × Instr)), decode e.1 = .ok e.2 ∧ encode e.2 = some e.1 := by decide

/-- R218, R219, R134: REL in fn[4], its scope in fn[3:2]. -/
theorem test_decode_token :
    ∀ e ∈ ([
      (0x41304100, .send none 2 3 1 8), (0x41304110, .send (some .clus) 2 3 1 8), (0x41304115, .sendv (some .die) 2 3 1 8),
      (0x403FFFFE, .sig (some .sys) 3 63 511), (0x4230401A, .sigReg (some .pkg) 4 3 1)] : List (IWord × Instr)), decode e.1 = .ok e.2 ∧ encode e.2 = some e.1 := by decide

/-- R222: port in [13:12], V in [11]; R224 to R226. -/
theorem test_decode_channel :
    ∀ e ∈ ([
      (0x44803800, .chpop true 1 3), (0x44802001, .chpeek false 1 2), (0x44101802, .chpush true 1 1), (0x44002003, .chend 2),
      (0x44601004, .chrcfg 6 1), (0x48A00000, .lgen 1 2), (0x48003001, .lgstop 3), (0x4CA00000, .launch 1 2)] : List (IWord × Instr)), decode e.1 = .ok e.2 ∧ encode e.2 = some e.1 := by decide

/-- R236: offset in [19:6], size in [5:3]; R241. -/
theorem test_decode_memory :
    ∀ e ∈ ([
      (0x50AFFFC0, .ld .b 1 2 0x3FFF), (0x50A00049, .st .h 1 2 1), (0x50A00062, .stt .v 1 2 1), (0x50A00053, .pst .w 1 2 1),
      (0x5402C002, .lds .b 1 3 2), (0x5404C802, .lds .h 2 3 2), (0x5406D002, .lds .w 3 3 2), (0x57FED802, .lds .d 511 3 2),
      (0x5410E002, .lds .v64 8 3 2), (0x5420E802, .lds .v128 16 3 2), (0x5440F002, .lds .v256 32 3 2),
      (0x5480F802, .lds .v512 64 3 2), (0x5820A004, .ldro .v64 16 2 4)] : List (IWord × Instr)), decode e.1 = .ok e.2 ∧ encode e.2 = some e.1 := by decide

/-- R244: operation in [13:10], width in [9], scope in [8:6]. -/
theorem test_decode_atomic :
    ∀ e ∈ ([
      (0x5C290003, .aadd .w .core 20 4 3), (0x5C290643, .aand .d .clus 20 4 3), (0x5C290883, .aor .w .die 20 4 3),
      (0x5C290EC3, .axor .d .pkg 20 4 3), (0x5C291103, .amin .w .sys 20 4 3), (0x5C291603, .amax .d .core 20 4 3),
      (0x5C291843, .aswap .w .clus 20 4 3), (0x5C291C83, .afadd .die 20 4 3), (0x5C3CA2C5, .acas .d .pkg 30 2 5)] : List (IWord × Instr)), decode e.1 = .ok e.2 ∧ encode e.2 = some e.1 := by decide

/-- R133: kind in [13:12]; R302, R319, R321. -/
theorem test_decode_collective :
    ∀ e ∈ ([
      (0x60001300, .fence .rel .pkg), (0x60002200, .fence .full .die), (0x60000400, .fence .acq .sys),
      (0x64A00000, .hpdef 1 2), (0x64A00001, .hpput 1 2), (0x64A00002, .hpwait 1 2), (0x68A00000, .turndef 1 2),
      (0x68A00001, .turngo 1 2), (0x6CA00000, .reddef 1 2), (0x6CA00001, .redput 1 2), (0x70A00000, .pbdef 1 2),
      (0x70200401, .publ .sys 2)] : List (IWord × Instr)), decode e.1 = .ok e.2 ∧ encode e.2 = some e.1 := by decide

/-- R249: type in [13:11], rounding in [10:8]. -/
theorem test_decode_varith :
    ∀ e ∈ ([
      (0x74A80000, .vadd .f32 .rne 1 2 4), (0x74A80901, .vsub .b16 .rtz 1 2 4), (0x74A81202, .vmul .h16 .rdn 1 2 4),
      (0x74A94303, .vfma .f32 .rup 1 2 4 5), (0x74A94C04, .vfms .b16 .rna 1 2 4 5), (0x74A81705, .vmin .h16 .dyn 1 2 4),
      (0x74A80006, .vmax .f32 .rne 1 2 4), (0x74A80907, .vdiv .b16 .rtz 1 2 4), (0x74A01208, .vsqrt .h16 .rdn 1 2),
      (0x74A00309, .vrcp .f32 .rup 1 2), (0x74A00C0A, .vrsq .b16 .rna 1 2), (0x74A0170B, .vexp2 .h16 .dyn 1 2),
      (0x74A0000C, .vlog2 .f32 .rne 1 2)] : List (IWord × Instr)), decode e.1 = .ok e.2 ∧ encode e.2 = some e.1 := by decide

/-- R251: type in [13:11], SAT in [8]. -/
theorem test_decode_vint :
    ∀ e ∈ ([
      (0x78A82100, .viadd .i32 true 1 2 4), (0x78A82801, .visub .i16 false 1 2 4), (0x78A83002, .vimul .i8 false 1 2 4),
      (0x78A83803, .vand .ub 1 2 4), (0x78A82004, .vor .i32 1 2 4), (0x78A82805, .vxor .i16 1 2 4),
      (0x78A83106, .vshl .i8 true 1 2 4), (0x78A83807, .vshr .ub 1 2 4), (0x78A82008, .vsra .i32 1 2 4)] : List (IWord × Instr)), decode e.1 = .ok e.2 ∧ encode e.2 = some e.1 := by decide

/-- R252: type in [13:11], condition or operation in [10:8]. -/
theorem test_decode_vperm :
    ∀ e ∈ ([
      (0x7CA81600, .vcmp .h16 .un 1 2 4), (0x7CA95801, .vsel .c8 1 2 4 5), (0x7CA83802, .vperm .ub 1 2 4),
      (0x7CA00803, .vbcast .b16 1 2), (0x7CA82804, .vext .i16 1 2 4), (0x7CA83005, .vins .i8 1 2 4),
      (0x7F100006, .vred .f32 .sum 6 1)] : List (IWord × Instr)), decode e.1 = .ok e.2 ∧ encode e.2 = some e.1 := by decide

/-- R255, R257, R258. -/
theorem test_decode_convert :
    ∀ e ∈ ([
      (0x81104100, .vcvt .f32 .b16 0 1 2 1), (0x81941800, .vcvt .c8 .f32 2 0 3 1), (0x80A08101, .vdec 1 2 1 2),
      (0x81C0C202, .venc 2 3 3 4), (0x80400303, .ctld 3 4)] : List (IWord × Instr)), decode e.1 = .ok e.2 ∧ encode e.2 = some e.1 := by decide

/-- R262, R263, R279: td, ta or the tile in md. -/
theorem test_decode_engine :
    ∀ e ∈ ([
      (0x84203F00, .tdef 63 2), (0x85800901, .tstat 3 9), (0x84000902, .trel 9), (0x88A00000, .mxfmt 1 2),
      (0x88A00001, .mxldw 1 2), (0x88A00002, .mxstrm 1 2), (0x88A00003, .mxgang 1 2), (0x88A00004, .mxrd 1 2),
      (0x88A00005, .mxepi 1 2), (0x88A00006, .mxclr 1 2), (0x88A00007, .mxscan 1 2), (0x8CA00000, .cpy 1 2),
      (0x8CA00001, .cpym 1 2), (0x8CA00002, .cpyx 1 2), (0x8CA00003, .gath 1 2), (0x8CA00004, .jstat 1 2),
      (0x8C200005, .jcan 2), (0x90A00000, .ings 1 2), (0x90800001, .ingq 1)] : List (IWord × Instr)), decode e.1 = .ok e.2 ∧ encode e.2 = some e.1 := by decide

/-- R227. -/
theorem test_decode_privileged :
    ∀ e ∈ ([
      (0x94000000, .rplay), (0x94200001, .tlbinv 2), (0x94A00002, .codeseal 1 2), (0x94A00003, .place 1 2),
      (0x94A00004, .cfgld 1 2), (0x94200005, .cancel 2)] : List (IWord × Instr)), decode e.1 = .ok e.2 ∧ encode e.2 = some e.1 := by decide


/-! ## Small machines -/

/-- A firing of core 0 on frame 0 with these temporaries. -/
def tFiring (l : List (Temp × Vec)) : Firing := l.foldl (fun f e => f.setT e.1 e.2) (placedFiring 0)
/-- Core 0, LOADED, with a frame of 512 words and 64 slots and a running firing. -/
def tCore (f : Firing) : CoreSt :=
  { CoreSt.reset with firing := some f, frames := [(0, placedFrame)], fpool := 1024, sealed := 0xFFFF, cfg := .loaded }
/-- The machine in which core 0 issues next. -/
def tState (f : Firing) : State := { State.reset with cores := [(0, tCore f)], cur := 0 }
/-- The machine in which core 0, changed, issues next. -/
def tWith (g : CoreSt → CoreSt) (f : Firing) : State := { State.reset with cores := [(0, g (tCore f))], cur := 0 }
/-- The machine in which the steward core of die 0 issues next. -/
def sWith (g : CoreSt → CoreSt) (f : Firing) : State := { State.reset with cores := [(0x7FF, g (tCore f))], cur := 0x7FF }
/-- A firing of the steward core of die 0. -/
def sFiring (l : List (Temp × Vec)) : Firing := l.foldl (fun f e => f.setT e.1 e.2) (placedFiring 0x7FF)
/-- A held NOP-like action, ended or not. -/
def tHeld (a : Act) (e : Bool) : Held := { act := a, ctx := (placedFiring 0).ctx, pc := 0, ended := e }
/-- A node descriptor with input port 0 scalar, input port 1 vector, output port 0 scalar and output port 1 vector (R25). -/
def tNode : Rec := BitVec.ofNat 256 (2 ^ 96 + 2 ^ 97 + 2 ^ 105 + 2 ^ 100 + 2 ^ 101 + 2 ^ 109)
/-- A DATA token. -/
def tTok (vec : Bool) (side : Byte) : Token := { kind := .data, side := side, colour := 0, vec := vec, data := 77 }
/-- Channels of node 0's input ports, with tokens. -/
def tChan (port : Nat) (l : List Token) : Chan :=
  { base := 0, depth := 16, en := true, head := 0, tail := 0, occ := 0, port := port, vnode := 0, pcore := 0, pport := 0, rcfg := false,
    toks := l, times := l.map (fun _ => 0) }
/-- Core 0 with the node's descriptor and its two input channels. -/
def tPorts (l0 l1 : List Token) (c : CoreSt) : CoreSt :=
  { c with descs := [(0, tNode)], chans := [(0, tChan 0 l0), (1, tChan 1 l1)] }
/-- The 64 bits of the self window at an offset. -/
def tSelf (o : Nat) : Vec := BitVec.ofNat 512 (2 ^ 64 - 2 ^ 20 + o)

/-! ## Terms that are no instructions -/

theorem test_illFormed_bra : (Instr.br .bra 1 0 4).wellFormed = false ∧ (Instr.br .beq 1 0 4).wellFormed = true := by decide
theorem test_illFormed_fld : (Instr.fld .v 0 4).wellFormed = false ∧ (Instr.fld .v 0 8).wellFormed = true := by decide
theorem test_illFormed_fst : (Instr.fst .v 0 511).wellFormed = false ∧ (Instr.fst .d 0 511).wellFormed = true := by decide
theorem test_illFormed_sig : (Instr.sig none 0 0 0).wellFormed = false ∧ (Instr.sig none 0 0 511).wellFormed = true := by decide
theorem test_illFormed_lds : (Instr.lds .v128 8 0 0).wellFormed = false ∧ (Instr.lds .v128 16 0 0).wellFormed = true := by decide
theorem test_illFormed_ldro : (Instr.ldro .v512 32 0 0).wellFormed = false ∧ (Instr.ldro .v512 64 0 0).wellFormed = true := by decide
theorem test_illFormed_vcmp : (Instr.vcmp .c8 .eq 0 0 0).wellFormed = false ∧ (Instr.vcmp .ub .eq 0 0 0).wellFormed = true := by decide
theorem test_illFormed_vred : (Instr.vred .c8 .sum 0 0).wellFormed = false ∧ (Instr.vred .i8 .sum 0 0).wellFormed = true := by decide
theorem test_illFormed_vcvt : (Instr.vcvt .c8 .c8 0 0 0 0).wellFormed = false ∧ (Instr.vcvt .f32 .b16 5 0 0 0).wellFormed = false ∧
    (Instr.vcvt .f32 .b16 0 2 0 0).wellFormed = false ∧ (Instr.vcvt .f32 .b16 0 1 0 0).wellFormed = true ∧
    (Instr.vcvt .c8 .f32 4 0 0 0).wellFormed = false ∧ (Instr.vcvt .c8 .f32 3 3 0 0).wellFormed = true := by decide
theorem test_illFormed_vdec : (Instr.vdec 0 4 0 0).wellFormed = false ∧ (Instr.vdec 0 3 0 0).wellFormed = true := by decide
theorem test_illFormed_venc : (Instr.venc 0 7 0 0).wellFormed = false ∧ (Instr.venc 3 0 0 0).wellFormed = true := by decide


/-! ## A witness for the hypotheses of each statement -/
/-! ## Witnesses: for every statement, machines and operands that meet the hypotheses of its clauses -/

theorem witness_SystemInstructionsTakeEffect : (tState (tFiring [])).Issues (tFiring []) false ∧
    (tState (tFiring [])).Issues (tFiring []) true ∧ isSteward (tState (tFiring [])).cur = false ∧
    (sWith id (sFiring [])).Issues (sFiring []) false ∧ (sWith id (sFiring [])).Issues (sFiring []) true ∧
    isSteward (sWith id (sFiring [])).cur = true ∧ ((sWith id (sFiring [])).core 0x7FF).queue = [] ∧
    (let s := sWith (fun c => { c with queue := [tHeld .roinv true] }) (sFiring [])
     s.Issues (sFiring []) false ∧ (s.core s.cur).queue ≠ []) := by
  simp only [State.Issues]; decide +kernel

theorem witness_EndAndContEndTheFiring : (tState (tFiring [])).Issues (tFiring []) false ∧ (tFiring []).purged = false ∧
    (63 : Slot).toNat < (((tState (tFiring [])).core 0).frame 0).nslot ∧
    (let s := tWith (fun c => { c with frames := [(0, { placedFrame with nslot := 4 })] }) (tFiring [])
     s.Issues (tFiring []) false ∧ ((s.core s.cur).frame 0).nslot ≤ (4 : Slot).toNat ∧ (3 : Slot).toNat < ((s.core s.cur).frame 0).nslot) := by
  simp only [State.Issues]; decide +kernel

theorem witness_CsrInstructionsReadAndWrite : (tState (tFiring [])).Issues (tFiring []) false ∧ csrTenant 0x004 = true ∧
    csrTenant 0x040 = false ∧ csrTenant 0x00B = true ∧ csrTenant 0x017 = false ∧ (sWith id (sFiring [])).Issues (sFiring []) false := by
  simp only [State.Issues]; decide +kernel

theorem witness_ImmediateInstructionsCompute : (tState (tFiring [(1, 5)])).Issues (tFiring [(1, 5)]) false := by
  simp only [State.Issues]; decide +kernel

theorem witness_IntegerInstructionsCompute : (let f := tFiring [(1, BitVec.ofNat 512 (2 ^ 63)), (2, BitVec.ofNat 512 (2 ^ 64 - 1))]
    (tState f).Issues f false ∧ (f.w 1).getLsbD 63 = true ∧ (∀ i, i < 64 → (f.w 3).getLsbD (63 - i) = false)) := by
  simp only [State.Issues]; decide +kernel

theorem witness_BranchesSetTheProgramCounter : (let f := tFiring [(1, 5)]
    (tState f).Issues f false ∧ f.w 1 ≠ f.w 2 ∧ 0 ≤ (f.pc : Int) + (8191 : BitVec 17).toInt ∧
    (f.pc : Int) + (8191 : BitVec 17).toInt ≤ 16383) ∧ (sWith id (sFiring [])).Issues (sFiring []) false := by
  simp only [State.Issues]; decide +kernel

theorem witness_FrameLoadsAndStores : (let f := tFiring []
    (tState f).Issues f false ∧ (511 : FWord).toNat + 1 ≤ (((tState f).core 0).frame 0).words ∧
    (504 : FWord).toNat + 8 ≤ (((tState f).core 0).frame 0).words ∧ (tState f).armedIn 0 0 504 8 = false ∧
    ((tState f).fside 0 0 511).getLsbD 5 = false) ∧
    (let s := tWith (fun c => { c with frames := [(0, { placedFrame with fclass := 0, nslot := 4 })] }) (tFiring [])
     s.Issues (tFiring []) false ∧ ((s.core s.cur).frame 0).words < 25 + 8 ∧ ((s.core s.cur).frame 0).words < 32 + 1) ∧
    (let s := (tState (tFiring [])).setFword 0 0 3 (BitVec.ofNat 64 (2 ^ 24)) 0
     s.Issues (tFiring []) false ∧ s.armedIn 0 0 3 1 = true ∧ s.armedIn 0 0 0 8 = true) ∧
    (let s := (tState (tFiring [])).setFword 0 0 100 0 0x20
     s.Issues (tFiring []) false ∧ (s.fside 0 0 100).getLsbD 5 = true) := by
  simp only [State.Issues]; decide +kernel

theorem witness_FrameWordReadsBack : (let s := tState (tFiring [])
    memWf s.mem = true ∧ ((s.core 0).frame 0).state = .local ∧ 256 * ((s.core 0).frame 0).poolofs + 8 * 511 + 8 ≤ sramSize) ∧
    (let s := tWith (fun c => { c with frames := [(0, { placedFrame with poolofs := 1535 })] }) (tFiring [])
     256 * ((s.core 0).frame 0).poolofs + 8 * 31 + 8 = sramSize) := by decide +kernel

theorem witness_FrameTableInstructions :
    (let f := tFiring [(1, BitVec.ofNat 512 (2 + 128)), (2, BitVec.ofNat 512 (7 * 128)), (3, 3 * 512 + 1)]
     let s := tState f
     s.Issues f false ∧ s.Issues f true ∧ (s.core 0).freeEntry = some 1 ∧ (s.core 0).freeRun 1 = some 16 ∧
     (f.w 1).toNat / 128 % 8 < 6 ∧ (f.w 1).toNat % 128 ≤ 64 ∧ ¬(f.w 2).toNat / 128 % 8 < 6 ∧
     ((f.w 3).setWidth 32 : Handle).getLsbD 0 = true ∧ handleCore ((f.w 3).setWidth 32) = 0 ∧ handleCore (BitVec.ofNat 32 (2 ^ 19 + 1)) ≠ 0) ∧
    (let s := tWith (fun c => { c with fpool := 16, frames := [(0, placedFrame), (3, { placedFrame with static := false })] }) (tFiring [])
     (s.core 0).freeRun 1 = none ∧ ((s.core 0).frame 3).static = false ∧ (s.core 0).freeBody = some 0) ∧
    (tWith (fun c => { c with fpool := 16, spillk := 0, frames := [(0, placedFrame), (1, { placedFrame with body := some 0 })] })
      (tFiring []) |>.core 0).freeBody = none := by
  simp only [State.Issues]; decide +kernel

theorem witness_FrameTableInstructions_allocates : (let f := tFiring [(1, BitVec.ofNat 512 (2 + 128))]
    (let s := tWith (fun c => { c with fpool := 16 }) f
     s.Issues f false ∧ (s.core 0).freeEntry = some 1 ∧ (s.core 0).freeRun 1 = none ∧ (s.core 0).freeBody = some 0) ∧
    (let s := tWith (fun c => { c with fpool := 16, spillk := 0, frames := [(0, placedFrame), (1, { placedFrame with body := some 0 })] }) f
     s.Issues f false ∧ (s.core 0).freeEntry ≠ none ∧ (s.core 0).freeRun 1 = none ∧ (s.core 0).freeBody = none)) := by
  simp only [State.Issues]; decide +kernel

theorem tabGet_map_placed (i : Nat) (l : List Nat) (h : i ∈ l) :
    tabGet Frame.zero (l.map (fun i => (i, placedFrame))) i = placedFrame := by
  induction l with
  | nil => cases h
  | cons a t ih =>
    by_cases e : a = i
    · simp [tabGet, e]
    · have := ih (by cases h with | head => exact absurd rfl e | tail _ h => exact h)
      simp only [List.map_cons, tabGet]
      simp [e, this]

theorem witness_FrameTableInstructions_full : ∃ c : CoreSt, c.freeEntry = none := by
  refine ⟨{ CoreSt.reset with frames := (List.range 1024).map (fun i => (i, placedFrame)) }, ?_⟩
  unfold CoreSt.freeEntry
  rw [List.find?_eq_none]
  intro i hi
  simp only [CoreSt.frame]
  rw [tabGet_map_placed i _ hi]
  decide

theorem witness_SlotInstructions : (let s := tWith (fun c => { c with frames := [(0, { placedFrame with nslot := 4 })] }) (tFiring [])
    s.Issues (tFiring []) true ∧ s.Issues (tFiring []) false ∧ (3 : Slot).toNat < ((s.core s.cur).frame 0).nslot ∧
    ¬(4 : Slot).toNat < ((s.core s.cur).frame 0).nslot) := by simp only [State.Issues]; decide +kernel

theorem witness_TokenSendsAreHeld :
    (let f := tFiring [(1, 2 ^ 19 + 1), (2, 7 * 8), (3, 7 * 8 + 2)]
     let s := tWith (tPorts [] []) f
     s.Issues f true ∧ ((f.w 1).setWidth 32 : Handle).getLsbD 0 = true ∧ ((f.w 2).setWidth 32 : Handle).getLsbD 0 = false ∧
     ((f.w 2).setWidth 32 : Handle).toNat / 2 % 4 = 0 ∧ ((f.w 3).setWidth 32 : Handle).toNat / 2 % 4 = 1 ∧
     ¬(∃ p, p < 4 ∧ ndOutEn (s.ndOf f) p = true ∧ routeWord (s.ndOf f) p = 7 * 8)) ∧
    (let f := tFiring [(2, BitVec.ofNat 512 (routeWord tNode 0))]
     let s := tWith (tPorts [] []) f
     s.Issues f true ∧ (0 < 4 ∧ ndOutEn (s.ndOf f) 0 = true ∧ routeWord (s.ndOf f) 0 = ((f.w 2).setWidth 32 : Handle).toNat)) := by
  simp only [State.Issues]; decide +kernel

theorem witness_ChannelInstructions :
    (let f := tFiring [(1, 8192), (2, 8193)]
     let s := tWith (tPorts [tTok false 0] [tTok true 0x20]) f
     s.Issues f true ∧ s.Issues f false ∧ ndInEn (s.ndOf f) 0 = true ∧ ndInVec (s.ndOf f) 0 = false ∧ ndInVec (s.ndOf f) 1 = true ∧
     s.tokenAt f 0 = some (tTok false 0) ∧ tokPoison s (tTok false 0) = false ∧ s.tokenAt f 1 = some (tTok true 0x20) ∧
     tokPoison s (tTok true 0x20) = true ∧ ndInEn (s.ndOf f) 2 = false ∧ ndOutEn (s.ndOf f) 0 = true ∧ ndOutVec (s.ndOf f) 1 = true ∧
     ndOutEn (s.ndOf f) 3 = false ∧ (f.w 1).toNat % 2 ^ 14 = 8192 ∧ 8192 < (f.w 2).toNat % 2 ^ 14 ∧ (f.w 3).toNat % 2 ^ 14 = 0) ∧
    (let s := tWith (tPorts [] [tTok true 0]) (tFiring [])
     s.tokenAt (tFiring []) 0 = none ∧ s.tokenAt (tFiring []) 1 = some (tTok true 0)) := by simp only [State.Issues]; decide +kernel

theorem witness_GeneratorAndLaunchInstructions :
    (let f := tFiring [(1, 1), (2, BitVec.ofNat 512 (2 ^ 13)), (3, BitVec.ofNat 512 (2 ^ 23)), (4, BitVec.ofNat 512 (2 ^ 160))]
     let s := tState f
     s.Issues f true ∧ lgenOk (f.t 1) = true ∧ lgenOk (f.t 2) = false ∧ launchOk (f.t 1) = true ∧ launchOk (f.t 3) = false ∧
     s.freeWork 0 = some 0) ∧
    (let s := { tState (tFiring []) with dies := [(0, { Die.reset with work := (List.range 256).map (fun i => (i, { Work.zero with state := .opened })) })] }
     s.freeWork 0 = none) := by simp only [State.Issues]; decide +kernel

theorem witness_LoadsReadMemory :
    (let f := tFiring [(1, tSelf 0), (2, tSelf 0x5FFF8), (3, tSelf 4), (4, tSelf 0x60000)]
     let s := tWith (fun c => { c with poolKiB := 1 }) f
     s.Issues f false ∧ s.loadOut 0 = false ∧ selfBase ≤ (memAddr f .d 1 0).toNat ∧ (memAddr f .d 1 0).toNat % 8 = 0 ∧ s.poolRange 0 0 8 = false ∧
     (ldSides s 0 0 8).getLsbD 5 = false ∧ s.poolRange 0 ((memAddr f .d 2 0).toNat - selfBase) 8 = true ∧
     (memAddr f .d 3 0).toNat % 8 ≠ 0 ∧ ¬(memAddr f .d 4 0).toNat < selfBase + sramSize ∧ s.fwdStores 0 = []) := by
  simp only [State.Issues]; decide +kernel

theorem witness_StoresAndFencesAreHeld :
    (let f := tFiring [(1, tSelf 0x1000), (2, tSelf 0x1001), (3, BitVec.ofNat 512 (2 ^ 47)), (4, tSelf 0x5FFF8)]
     let s := (tWith (fun c => { c with poolKiB := 1 }) f).setFword 0 0 0 (BitVec.ofNat 64 (2 ^ 24)) 0
     s.Issues f true ∧ s.Issues f false ∧ xlatFault false false (memAddr f .d 1 0) = none ∧ (memAddr f .d 1 0).toNat % 8 = 0 ∧
     s.syncFault 0 (memAddr f .d 1 0) 8 = none ∧ xlatFault false false (memAddr f .d 3 0) = some 1 ∧
     (memAddr f .d 2 0).toNat % 8 ≠ 0 ∧ xlatFault false false (memAddr f .d 2 0) = none ∧
     s.syncFault 0 (memAddr f .d 4 0) 8 = some 2 ∧ s.syncFault 0 (BitVec.ofNat 64 selfBase) 8 = some 1 ∧
     xlatFault false true (memAddr f .d 1 0) = some 2) := by simp only [State.Issues]; decide +kernel

theorem witness_AddressChecksAtIssue : (2 ^ 47 - 1 < 2 ^ 47 ∧ ¬(2 ^ 47 < 2 ^ 47 ∨ 2 ^ 64 - 2 ^ 47 ≤ 2 ^ 47)) ∧
    (2 ^ 64 - 2 ^ 47 ≤ 2 ^ 64 - 2 ^ 20 + 0x60000) ∧ (2 ^ 64 - 2 ^ 20 + 0x5FFFF < 2 ^ 64 - 2 ^ 20 + 0x60000) ∧
    ¬(2 ^ 64 - 2 ^ 20 ≤ 2 ^ 64 - 2 ^ 20 - 1) := by decide

theorem witness_SplitLoadsAndAtomicsAreHeld :
    (let f := tFiring [(1, tSelf 0x1000), (2, tSelf 0x1004)]
     let s := tWith (fun c => { c with frames := [(0, { placedFrame with fclass := 0, nslot := 4 })] }) f
     s.Issues f true ∧ (31 : FWord).toNat + 1 = ((s.core 0).frame 0).words ∧ (30 : FWord).toNat + 2 = ((s.core 0).frame 0).words ∧
     (3 : Slot).toNat < ((s.core 0).frame 0).nslot ∧ ¬(4 : Slot).toNat < ((s.core 0).frame 0).nslot ∧
     xlatFault false false (f.w 1) = none ∧ (f.w 1).toNat % 8 = 0 ∧ (f.w 2).toNat % 8 ≠ 0 ∧ s.syncFault 0 (f.w 1) 8 = none ∧
     ((s.core 0).frame 0).words < (32 : FWord).toNat + 1 ∧ ((s.core 0).frame 0).words < (31 : FWord).toNat + 2) ∧
    (let f := tFiring [(1, 4096)]
     xlatFault false true (f.w 1) = none) := by simp only [State.Issues]; decide +kernel

theorem witness_CollectiveCommandsAreHeld : (let f := tFiring [(1, 0x3FFF), (2, 0x4000), (3, BitVec.ofNat 512 (2 ^ 48))]
    (tState f).Issues f true ∧ (f.w 1).toNat / 2 ^ 14 % 4 = 0 ∧ (f.w 1).toNat / 2 ^ 48 = 0 ∧ ¬(f.w 2).toNat / 2 ^ 14 % 4 = 0 ∧
    ¬(f.w 3).toNat / 2 ^ 48 = 0) := by simp only [State.Issues]; decide +kernel

theorem witness_VectorArithmeticComputes : (tState (tFiring [])).Issues (tFiring []) false := by simp only [State.Issues]; decide +kernel

theorem witness_VectorIntegersCompute : (let f := tFiring [(1, 0x7F), (2, 1)]
    (tState f).Issues f false ∧ (127 : Int) < itVal .i8 (laneN 8 (f.t 1) 0) + itVal .i8 (laneN 8 (f.t 2) 0)) := by
  simp only [State.Issues]; decide +kernel

theorem witness_VectorPermutesMoveLanes : (tState (tFiring [(1, 3)])).Issues (tFiring [(1, 3)]) false := by
  simp only [State.Issues]; decide +kernel

theorem witness_ConversionsComplete :
    (let f := tFiring [(1, 8), (2, 10)]
     let s := tState f
     s.Issues f false ∧ s.Issues f true ∧ s.ctldBusy 3 = false ∧ ctldOk (f.w 1) = true ∧ ctldOk (f.w 2) = false) ∧
    (let s := tWith (fun c => { c with queue := [tHeld (.ctld 2 0) true] }) (tFiring [])
     s.Issues (tFiring []) false ∧ s.ctldBusy 2 = true) := by simp only [State.Issues]; decide +kernel

theorem witness_TileAndPressCommands : (let f := tFiring [(1, 0), (2, 3), (3, BitVec.ofNat 512 (2 ^ 24)), (4, BitVec.ofNat 512 (2 ^ 33))]
    (tState f).Issues f true ∧ (tState f).Issues f false ∧ tdefOk (f.t 1) = true ∧ tdefOk (f.t 2) = false ∧ mxfmtOk (f.t 1) = true ∧
    mxfmtOk (f.t 4) = false ∧ (f.t 1).toNat / 2 ^ 24 = 0 ∧ ¬(f.t 3).toNat / 2 ^ 24 = 0) ∧
    (∃ d, mxepiOk d = true) ∧ (∃ d, mxepiOk d = false) := by
  simp only [State.Issues]
  refine ⟨by decide +kernel, ⟨0, by decide +kernel⟩, ⟨BitVec.allOnes 512, by decide +kernel⟩⟩

theorem witness_StatusAndCommandInstructions : (let f := tFiring [(1, 0x8000), (2, BitVec.ofNat 512 (2 ^ 511))]
    let s := tState f
    s.Issues f false ∧ s.Issues f true ∧ s.jobNamed 0 0x8000 = none ∧ (ingsCheck s (f.t 2)).isSome = true) ∧
    (sWith id (sFiring [])).Issues (sFiring []) true := by simp only [State.Issues]; decide +kernel

/-- Core 0 with a W tile 0, an A tile 1 and a C tile 2 of 16 rows and 16 columns, elements of two bytes. -/
def tTiles (c : CoreSt) : CoreSt :=
  { c with tiles := [(0, { Tile.zero with buf := 0, esize := 1, rows := 15, cols := 15, state := .ready }),
                     (1, { Tile.zero with buf := 1, esize := 1, rows := 15, cols := 15, state := .ready }),
                     (2, { Tile.zero with buf := 2, rows := 15, cols := 15, state := .ready })] }

theorem witness_EngineJobsAreReserved :
    (let f := tFiring [(1, 0), (2, BitVec.ofNat 512 (2 ^ 72 + 2 * 2 ^ 110)), (3, BitVec.ofNat 512 (2 * 2 ^ 72 + 2 ^ 120 + 2 ^ 140)),
       (4, BitVec.ofNat 512 (2 ^ 110)), (5, BitVec.ofNat 512 (2 ^ 511)), (6, BitVec.ofNat 512 (2 ^ 110 + 0xFFFFFFF00000 * 2 ^ 164))]
     let s := tWith tTiles f
     s.Issues f true ∧ s.quotaUsed (.press 0) 0 < 8 ∧ s.quotaUsed (.copy 0) 0 < 8 ∧ mxldwCheck f s (f.t 1) = none ∧
     kstepCheck false f s (f.t 2) = none ∧ kstepCheck true f s (f.t 2) = none ∧ mxrdCheck f s (f.t 3) = none ∧
     mxscanCheck f s (f.t 2) = none ∧ copyCheck .cpy f s (f.t 4) = none ∧ copyCheck .cpym f s (f.t 6) = none ∧
     copyCheck .cpyx f s (f.t 4) = none ∧ copyCheck .gath f s (f.t 4) = none ∧ turngoCheck f s (f.t 1) = none ∧
     mxldwCheck f s (f.t 5) = some 1 ∧ copyCheck .cpy f s (f.t 5) = some 1 ∧ turngoCheck f s (f.t 5) = some 1) := by
  simp only [State.Issues]; decide +kernel

theorem witness_EngineJobsAreReserved_full :
    (let j (k : Nat) : Job := newJob k .cpy (placedFiring 0).ctx 0 0 FmtCtx.reset 0
     let s := { tState (tFiring []) with clusters := [(0, { Cluster.reset with copyQ := (List.range 8).map j, pressQ := (List.range 8).map j })] }
     s.Issues (tFiring []) true ∧ 8 ≤ s.quotaUsed (.copy 0) 0 ∧ 8 ≤ s.quotaUsed (.press 0) 0) := by
  simp only [State.Issues]; decide +kernel

theorem witness_StatusAndCommandInstructions_ings : (let f := tFiring [(1, BitVec.ofNat 512 (2 ^ 64))]
    (tState f).Issues f true ∧ ingsCheck (tState f) (f.t 1) = none) := by simp only [State.Issues]; decide +kernel

/-- Core 0 without a firing, changed, and these packets in the network. -/
def eWith (g : CoreSt → CoreSt) (l : List Packet) : State :=
  { State.reset with cores := [(0, g { tCore (tFiring []) with firing := none })], net := l }
/-- A packet from core 1. -/
def tPkt (dst : Agent) (m : Msg) : Packet := { src := .core 1, dst := dst, cls := .token, tenant := 0, msg := m, held := false }
/-- One credit on the output ports of node 0. -/
def tCredits : Tab Int := [(portKey 0 0, 1), (portKey 0 1, 1)]
/-- One token on input port 0 of node 0. -/
def tOne : Tab Chan := [(0, tChan 0 [tTok false 0])]
/-- A ready entry of frame 0. -/
def tReady (prio : Nat) : Ready := newReady 0 0 prio 0 false

theorem witness_DispatchStartsTheBestReadyEntry :
    (let s := eWith (fun c => { c with ready := [tReady 1, tReady 3, tReady 3], descs := [(0, tNode)] }) []
     s.mayDispatch 0 = true ∧ (s.core 0).ready[1]? = some (tReady 3) ∧ CoreSt.eligibleEntry 0 (s.core 0) (tReady 3) = true ∧
     (∀ m, m < 3 → ∀ q, (s.core 0).ready[m]? = some q → q.prio < 3 ∨ (q.prio = 3 ∧ 1 ≤ m)) ∧ (s.core 0).dbgStop = false) ∧
    (eWith (fun c => { c with dbgStop := true }) [] |>.core 0).dbgStop = true ∧ ((tState (tFiring [])).core 0).firing ≠ none ∧
    (eWith (fun c => { c with halted := true }) [] |>.core 0).halted = true ∧
    (eWith (fun c => { c with cfg := .blocked }) [] |>.core 0).cfg = .blocked ∧
    State.coreRetired { eWith id [] with clusters := [(0, { Cluster.reset with health := 1 })] } 0 = true := by
  refine ⟨⟨by decide +kernel, rfl, by decide +kernel, ?_, rfl⟩, rfl, by decide +kernel, rfl, rfl, by decide +kernel⟩
  intro m hm q hq
  have h : m = 0 ∨ m = 1 ∨ m = 2 := by omega
  rcases h with rfl | rfl | rfl <;> (cases hq; decide)

theorem witness_SchedulerEventsHappen :
    (let s := { eWith (fun c => { c with ready := [tReady 2] }) [] with cycle := 4097 }
     (s.core 0).ready[0]? = some (tReady 2) ∧ (tReady 2).prio < 3 ∧ 4096 < s.cycle - (tReady 2).since) ∧
    (let s := eWith (fun c => { c with dbgStop := true }) []
     (s.core 0).dbgStop = true) ∧
    (let s := eWith (fun c => { c with frames := [(0, { placedFrame with contwait := true })] }) []
     let f := (s.core 0).frame 0
     f.contwait = true ∧ f.state = .local ∧ (s.core 0).ready.length < 64 ∧ f.nld ≤ f.limits.ld ∧ f.npst ≤ f.limits.st ∧
     f.ncpy ≤ f.limits.cp ∧ f.ntile ≤ f.limits.tl) ∧
    (let s := eWith (fun c => { c with fetching := [5], dareaTab := [(5, tNode)] }) []
     (s.core 0).fetching.contains 5 = true ∧ (s.core 0).descs.length < 64 ∧ tabFind (s.cluster 0).dcache 5 = none ∧
     tabFind (s.core 0).dareaTab 5 = some tNode) ∧
    (let s := { eWith (fun c => { c with fetching := [5] }) [] with clusters := [(0, { Cluster.reset with dcache := [(5, tNode)] })] }
     tabFind (s.cluster 0).dcache 5 = some tNode) := by decide +kernel

/-- A full descriptor store, whose nodes have the numbers 10 to 73, on core 0 with a firing of the vnode. -/
def tFullStore (running : Bool) : CoreSt :=
  let c := { tCore (tFiring []) with fetching := [5], dareaTab := [(5, tNode)] }
  let r := if running then (List.range 64).map tReadyOf else []
  { c with descs := (List.range 64).map (fun i => (i + 10, tNode)), ready := r, frames := (List.range 64).map tFrameOf }
where
  tReadyOf (i : Nat) : Ready := newReady i 0 0 0 false
  tFrameOf (i : Nat) : Nat × Frame := (i, { placedFrame with vnode := i + 10 })

theorem witness_SchedulerEventsHappen_full :
    (64 ≤ (tFullStore false).descs.length ∧
      (tFullStore false).descs.find? (fun e => (tFullStore false).evictable e.1) = some (10, tNode)) ∧
    (tFullStore true).fetching.contains 5 = true ∧ 64 ≤ (tFullStore true).descs.length ∧
    (tFullStore true).descs.find? (fun e => (tFullStore true).evictable e.1) = none := by decide +kernel

/-- Core 0 with one ended action at the head of its commit queue. -/
def tHead (a : Act) : State := eWith (fun c => { c with queue := [tHeld a true] }) []
/-- The head waits for nothing: its firing has ended, and no acknowledgement is out. -/
def tFree (s : State) (core : Nat) (h : Held) : Bool :=
  (h.ended || isSteward core) && (s.core core).tlbWait == [] && (s.core core).atomWait == none && (s.core core).queue.head? == some h

theorem witness_CommitQueueReleasesItsHead :
    (let s := tHead (.fence .rel .clus)
     tFree s 0 (tHeld (.fence .rel .clus) true) = true ∧ (s.core 0).unack.fenceOk .rel .clus = true ∧ s.ownStoreOut 0 = false ∧
     (tHeld (.fence .rel .clus) true).ctx.core = 0) ∧
    (let a : Act := .send (some .pkg) 1 0 0 1 0 0 0
     let s := eWith (fun c => { c with queue := [tHeld a true], unack := { c.unack with load := 1 } }) []
     (s.core 0).unack.pkg = 0 ∧ (s.core 0).unack.load ≠ 0 ∧ tFree (tHead a) 0 (tHeld a true) = true ∧ (tHead a).ownStoreOut 0 = false) ∧
    (let s := eWith (fun c => { c with unack := { c.unack with clus := 1, die := 1, sys := 1 }, atomWait := some 3, tlbWait := [0] }) []
     (s.core 0).unack.clus ≠ 0 ∧ (s.core 0).unack.die ≠ 0 ∧ (s.core 0).unack.sys ≠ 0 ∧ (s.core 0).atomWait.isSome = true ∧
     (s.core 0).tlbWait ≠ []) ∧
    (1 : Handle).getLsbD 0 = true ∧ (tHeld .roinv false).ended = false ∧ isSteward 0 = false ∧ isSteward 0x7FF = true ∧
    (∀ a ∈ [Act.ffree 1, .chPop 0, .lgstop 2, .place 0, .tlbinv 0, .roinv, .endMark, .send none 1 0 0 1 0 0 0],
      tFree (tHead a) 0 (tHeld a true) = true) ∧
    handleCore (BitVec.ofNat 32 (1 + 2 * placedFrame.gen)) = 0 ∧
    handleGen (BitVec.ofNat 32 (1 + 2 * placedFrame.gen)) = ((tHead .roinv).core 0 |>.frame 0).gen ∧
    ((tHead (.lgstop 2)).orderedOut (tHeld (.lgstop 2) true) = true ∧
      (State.releaseAct (tHead (.lgstop 2)) (tHeld (.lgstop 2) true)).isSome = true) := by decide +kernel

theorem witness_GeneratorsRunTheirNests :
    (let d : Vec := BitVec.ofNat 512 (3 * 2 ^ 16)
     let p := tPkt (.core 0) (.lgen d (placedFiring 1).ctx 0)
     let s := eWith (fun c => { c with descs := [(3, 1)] }) [p]
     s.recv 0 = some p ∧ ndKind ((s.core 0).nodeDesc (fieldN d 16 20)) = 1 ∧ ((s.core 0).gen (fieldN d 36 2)).state = .idle ∧
     ndKind ((s.core 0).nodeDesc 4) ≠ 1) ∧
    (let g (x : Gen) := eWith (fun c => { c with descs := [(0, tNode)], gens := [(0, { x with vnode := 0 })], credits := tCredits, chans := tOne }) []
     ((g { Gen.zero with marked := true }).core 0).resident 0 = true ∧ ((g Gen.zero).core 0).canSend 0 (outPorts tNode) 1 = true ∧
     (((g { Gen.zero with marked := true }).core 0).gen 0).marked = true ∧ (((g { Gen.zero with state := .run, done := true }).core 0).gen 0).done = true ∧
     (((g { Gen.zero with state := .run }).core 0).gen 0).need = [] ∧ ((g { Gen.zero with state := .bound, need := [0] }).core 0 |>.gen 0).fromToken 0 = false ∧
     ((g { Gen.zero with state := .bound, need := [0], bsrc := 1 }).core 0 |>.gen 0).fromToken 0 = true ∧
     ((g Gen.zero).core 0).headOf 0 0 = some (tTok false 0) ∧ (((g Gen.zero).core 0).gen 0).parked = false) := by decide +kernel

theorem witness_MarkersMoveThroughTheGraph :
    (let m (depth : Nat) : Token := { kind := .reconfig, side := 0, colour := 0, vec := false, data := BitVec.ofNat 512 depth }
     let s (d : Nat) := eWith (fun c => { c with poolKiB := 1, chans := [(0, tChan 0 [m d]), (1, tChan 1 [])] }) []
     ((s 49).core 0).chan 0 = tChan 0 [m 49] ∧ ((s 49).core 0).poolUnits < (((s 49).core 0).otherRuns 0).foldl (fun n r => n + r.2) 0 + 49 ∧
     (((s 48).core 0).otherRuns 0).foldl (fun n r => n + r.2) 0 + 48 ≤ ((s 48).core 0).poolUnits) ∧
    (let ck : Token := { kind := .checkpoint, side := 0, colour := 0, vec := false, data := 0 }
     let s := eWith (fun c => { c with descs := [(0, BitVec.ofNat 256 (2 ^ 96))], chans := [(0, tChan 0 [ck])] }) []
     (s.core 0).resident 0 = true ∧ ndKind ((s.core 0).nodeDesc 0) ≠ 1 ∧ (s.core 0).atCheckpoint 0 = true ∧ s.nodeQuiet 0 0 = true ∧
     (s.core 0).canSend 0 (outPorts ((s.core 0).nodeDesc 0)) 1 = true ∧ (eWith id [] |>.core 0).atCheckpoint 0 = false) ∧
    (let s := eWith (fun c => { c with asid := 6 }) []
     (s.cores.filter (fun e => e.2.cfg == .loaded && e.2.asid == 6 && !isSteward e.1)).isEmpty = false ∧
     s.drains.any (fun q => q.asid == 6) = false) ∧
    (let q : Drain := { asid := 6, phase := .marking, gwork := 0, since := 10, sinks := [] }
     let s := { eWith id [] with drains := [q], cycle := 10 + 2 ^ 26 }
     s.drains.any (fun q => q.asid == 6) = true ∧ s.drains.find? (fun q => q.asid == 6) = some q ∧ q.since + 2 ^ 26 ≤ s.cycle ∧
     9 + 2 ^ 26 < q.since + 2 ^ 26 ∧ ({ q with phase := CtxPhase.drained } : Drain).phase ≠ .marking) ∧
    (let s := eWith (fun c => { c with descs := [(0, 3)], chans := [(0, tChan 0 [tTok false 1]), (1, tChan 1 [tTok false 2])] }) []
     ndKind ((s.core 0).nodeDesc 0) = 3 ∧ (s.core 0).resident 0 = true ∧ (s.core 0).voteBuf 0 = [] ∧ (s.core 0).headOf 0 0 = some (tTok false 1) ∧
     (s.core 0).headOf 0 1 = some (tTok false 2) ∧ (tTok false 1).kind ≠ .reconfig ∧ (tTok false 1).kind = (tTok false 2).kind ∧
     (tTok false 1).data = (tTok false 2).data ∧
     (s.core 0).canSend 0 (outPorts ((s.core 0).nodeDesc 0)) (tTok false 1).cost = true) := by decide +kernel
/-- Page tables of address space 7 at 0x100000: page 0 is the readable, writable, dirty page at 0x200000 under key 16. -/
def tPages (s : State) : State :=
  let put (m : List Host.Cell) (a v : Nat) : List Host.Cell := memPuts m a (leBytes 8 v)
  { s with mem := put (put (put (put s.mem 0x100000 0x100801) 0x100800 0x101001) 0x101000 0x101801) 0x101800 (0x20004F + 16 * 2 ^ 52),
           dies := [(0, { Die.reset with roots := [(7, 0x100000)], parkedCtx := [(0, (7, 4096))] })], keys := [(16, { tenant := 7, job := 0, no := 0 })] }
/-- A COUNT slot word: valid, armed, with a count (R34). -/
def tSlot (n : Nat) : Word := BitVec.ofNat 64 (2 ^ 25 + 2 ^ 24 + n)

/-- The node of frame 0 stands at a CHECKPOINT. -/
def tParked (c : CoreSt) : CoreSt :=
  let ck : Token := { kind := .checkpoint, side := 0, colour := 0, vec := false, data := 0 }
  let d : Rec := BitVec.ofNat 256 (2 ^ 96)
  { c with descs := [(placedFrame.vnode, d)], chans := [(0, { tChan 0 [ck] with vnode := placedFrame.vnode })],
           frames := [(0, { placedFrame with static := true })] }

theorem witness_SlotWordsFireAtZero :
    (let s := eWith id []
     memWf s.mem = true ∧ ((s.core 0).frame 0).state = .local ∧ 256 * ((s.core 0).frame 0).poolofs + 8 * 63 + 8 ≤ sramSize) ∧
    (let w := tSlot 0
     fieldN w 26 2 = 0 ∧ w.getLsbD 25 = true ∧ w.getLsbD 24 = true ∧ fieldN w 0 24 = 0 ∧ fieldN w 30 2 = 0) ∧
    fieldN (tSlot 0 ||| 0x40000000) 30 2 = 1 ∧ fieldN (tSlot 0 ||| 0x80000000) 30 2 = 2 ∧ ¬(fieldN (tSlot 1) 0 24 = 0) ∧
    (eWith id [] |>.core 0).ready.length < 64 ∧ (eWith id [] |>.core 0).frameParked 0 = false ∧
    64 ≤ (eWith (fun c => { c with ready := List.replicate 64 (tReady 0) }) [] |>.core 0).ready.length ∧
    (eWith tParked [] |>.core 0).frameParked 0 = true := by decide +kernel

theorem witness_FrameTokensArrive :
    (let m (slot fw pl : Nat) (h : Handle) : Packet := tPkt (.core 0) (.frame (.handle h) slot fw 1 pl 0 0 0 false)
     let s (p : Packet) := (eWith id [p]).setFword 0 0 5 (tSlot 1) 0
     (s (m 5 504 64 1)).recv 0 = some (m 5 504 64 1) ∧ (s (m 5 0 0 1)).coreClosed 0 = false ∧ (s (m 5 0 0 1)).foreign (m 5 0 0 1) 0 = false ∧
     (s (m 5 0 0 1)).frameOf 0 (.handle 1) = some 0 ∧ (s (m 5 0 0 1)).frameOf 0 (.handle 3) = none ∧
     504 + 64 / 8 ≤ ((s (m 5 0 0 1)).core 0 |>.frame 0).words ∧ ((s (m 5 0 0 1)).core 0 |>.frame 0).words < 505 + 64 / 8 ∧
     ((s (m 5 0 0 1)).core 0 |>.frame 0).nslot ≤ 64 ∧ slotKind ((s (m 5 0 0 1)).fword 0 0 5) = 0 ∧
     slotKind (BitVec.ofNat 64 (2 ^ 26)) = 1) ∧
    (let s := eWith (fun c => { c with ready := List.replicate 64 (tReady 0) }) []
     64 ≤ (s.core 0).ready.length ∧ ((s.core 0).frame 0).state = .local) ∧
    (let s := (eWith tParked []).setFword 0 0 5 (tSlot 1) 0
     s.slotWaits 0 0 5 1 = true ∧ s.slotWaits 0 0 5 0 = false) ∧
    (let s := (eWith id []).setFword 0 0 5 (tSlot 0 ||| BitVec.ofNat 64 (3 * 2 ^ 26)) 0
     slotKind (s.fword 0 0 5) = 3 ∧ slotValid (s.fword 0 0 5) = true ∧ slotArmed (s.fword 0 0 5) = true ∧
     (s.core 0).frameParked 0 = false ∧ s.slotWaits 0 0 5 1 = false ∧ 5 < ((s.core 0).frame 0).nslot) := by decide +kernel

theorem witness_ChannelTokensAndCreditsArrive :
    (let p := tPkt (.core 0) (.chan 0 0 (tTok false 0))
     let q := tPkt (.core 0) (.credit 6 0 1)
     let r := tPkt (.core 0) (.refuseTok 6 0 1)
     let s (p : Packet) := eWith (fun c => { c with chans := tOne }) [p]
     (s p).recv 0 = some p ∧ (s p).coreClosed 0 = false ∧ (s p).foreign p 0 = false ∧ ((s p).core 0).chanOf 0 0 = some 0 ∧
     ((s p).core 0).chanOf 0 3 = none ∧ (s q).recv 0 = some q ∧ ((s q).core 0).creditKey 6 0 = none ∧ (s r).recv 0 = some r) ∧
    (let p := tPkt (.core 0) (.chan 0 0 (tTok false 0))
     let s := eWith (fun c => { c with cfg := .blocked }) [p]
     s.recv 0 = some p ∧ s.coreClosed 0 = true ∧ s.rerouting = []) ∧
    (let s := eWith (fun c => { c with descs := [(0, tNode)], credits := tCredits }) []
     (s.core 0).creditKey 0 0 = some (portKey 0 0)) := by decide +kernel

theorem witness_PacketsAreDroppedOrReleased :
    (let p : Packet := { src := .core 0, dst := .core 8, cls := .token, tenant := 7, msg := .chan 0 0 (tTok false 0), held := false }
     let s := { eWith id [p] with regions := [(0, { tenant := 7, job := 0, x0 := 0, y0 := 0, w := 1, h := 1 })] }
     s.pkt 0 = some p ∧ (s.kerfExit p).isSome = true ∧ s.firstOfFlow 0 p = true) ∧
    (let p : Packet := { src := .core 0, dst := .core 8, cls := .token, tenant := 0, msg := .chan 0 0 (tTok false 0), held := false }
     let s (l : List Agent) := { eWith id [p] with clusters := [(0, { Cluster.reset with health := BitVec.ofNat 32 (15 * 2 ^ 21) })], noRoutes := l }
     (s []).pkt 0 = some p ∧ (s []).noRoute p = true ∧ (s []).kerfBlocked p = false ∧ (s []).firstOfFlow 0 p = true ∧
     (s []).noRoutes.contains p.src = false ∧ (s [.core 0]).noRoutes.contains p.src = true) ∧
    (let p : Packet := { tPkt (.core 0) (.chan 0 0 (tTok false 0)) with held := true }
     (eWith id [p]).net.any (fun q => q.sameFlow p && !q.held) = false ∧
     (eWith id [p, tPkt (.core 0) (.chan 0 0 (tTok false 0))]).net.any (fun q => q.sameFlow p && !q.held) = true) ∧
    (let p : Packet := { tPkt (.core 0) (.chan 0 0 (tTok false 0)) with tenant := 7 }
     let s (l : Tab (Nat × Nat)) := { eWith id [p] with dies := [(0, { Die.reset with parkedCtx := l })] }
     (s []).recv 0 = some p ∧ (s []).foreign p 0 = true ∧ isToken p.msg = true ∧ ((s []).die 0).parked 7 = none ∧
     ((s [(0, (7, 4096))]).die 0).parked 7 = some 4096) := by decide +kernel

theorem witness_PacketsAreDroppedOrReleased_ring :
    (let p : Packet := { tPkt (.core 0) (.chan 0 0 (tTok false 0)) with tenant := 7 }
     let s := tPages (eWith id [p])
     s.recv 0 = some p ∧ s.foreign p 0 = true ∧ (s.die 0).parked 7 = some 4096 ∧
     s.readVirt 0 7 (BitVec.ofNat 64 4096) 64 = some (List.replicate 64 0) ∧
     (0 + 2 ^ 32 - fieldN (0 : Vec) 128 32) % 2 ^ 32 ≠ 2 ^ fieldN (0 : Vec) 112 5) := by decide +kernel

theorem witness_WorkCountersComplete :
    (let p : Packet := tPkt (.work 0) (.work 3 2 (-1) 0)
     let s (w : Work) := { eWith id [p] with dies := [(0, { Die.reset with work := [(3, w)] })] }
     let w : Work := { Work.zero with state := .opened, seq := 2, level := 1, counter := 2, chandle := 1 }
     (s w).recv 0 = some p ∧ ((s w).work 0 3).state = .opened ∧ ((s w).work 0 3).seq = 2 ∧ ((s w).work 0 3).level ≠ 4 ∧
     0 < (((s w).work 0 3).counter : Int) + -1 ∧ ¬0 < (((s { w with counter := 1 }).work 0 3).counter : Int) + -1 ∧
     ((s { w with seq := 3 }).work 0 3).seq ≠ 2 ∧ ((s Work.zero).work 0 3).state ≠ .opened ∧ ((s w).work 0 3).chandle ≠ 0 ∧ (s w).rerouting = []) := by
  decide +kernel

theorem witness_LaunchesPurgesAndSubmissionsAct :
    (let d : Vec := BitVec.ofNat 512 (2 ^ 179 + 2 ^ 24)
     let p := tPkt (.core 0) (.launch (2 * 2 ^ 8 + 3) d (placedFiring 1).ctx 0)
     let s (l : List Ready) (w : Work) := { eWith (fun c => { c with ready := l }) [p] with dies := [(0, { Die.reset with work := [(3, w)] })] }
     let w : Work := { Work.zero with state := .opened, seq := 2, level := 1, counter := 1 }
     (s [] w).recv 0 = some p ∧ ((s [] w).work 0 3).state = .opened ∧ ((s [] w).work 0 3).seq = 2 ∧ (s [] w).coreClosed 0 = false ∧
     ((s [] w).core 0).ready.length < 64 ∧ 64 ≤ ((s (List.replicate 64 (tReady 0)) w).core 0).ready.length ∧ 0 + 1 = launchCount d ∧
     bitN d 179 = true ∧ ((s [] Work.zero).work 0 3).state ≠ .opened ∧
     (match (s [] w).allocFrame 0 0 (min (fieldN d 24 7) (classWords 0)) (fieldN d 0 20) 515 (mkHandle 1 0 0) (iterVec d 0) false with
      | .ok s1 n => n == 1 && decide ((s1.initSlots 0 n (fieldN d 24 7) (freshSlot (((s [] w).core 0).nodeDesc (fieldN d 0 20)))).freshFires 0 n = [])
      | _ => false) = true ∧
     ((s [] w).core 0).ready.length + 0 ≤ 64 ∧ 0 + 1 < launchCount (BitVec.ofNat 512 (2 ^ 179 + 2 ^ 24 + 2 ^ 80))) ∧
    (let al (c : CoreSt) := (eWith (fun _ => c) []).allocFrame 0 0 1 0 515 0 0 false
     (match al { tCore (tFiring []) with fpool := 8, spillk := 0, frames := [(0, placedFrame), (1, { placedFrame with body := some 0 })] } with
      | .noRoom => true
      | _ => false) = true) ∧
    (let p := tPkt (.core 0) (.purge 0 3)
     (eWith id [p]).recv 0 = some p) ∧
    (let s (w : Work) := { eWith id [] with dies := [(0, { Die.reset with work := [(3, w)] })] }
     let w : Work := { Work.zero with state := .cancelling, level := 1 }
     ((s w).work 0 3).state = .cancelling ∧ ((s w).work 0 3).acks = [] ∧ (s w).workBelow 3 0 3 = [] ∧ (s w).net.any (isAck 0 3) = false ∧
     ((s Work.zero).work 0 3).state ≠ .cancelling) := by decide +kernel

theorem witness_LaunchesPurgesAndSubmissionsAct_jobs :
    (let d : Vec := BitVec.ofNat 512 (0x4A42544F + 2 ^ 240 + 2 ^ 248)
     let s (m : Bool) (k : Nat) := { eWith id [] with ports := [0, 1], start := { State.reset.start with minimal := m }, jobs := List.replicate k (0, 0, d) }
     (s false 0).ports ≠ [] ∧ (s true 0).start.minimal = true ∧ 256 ≤ ((s false 256).jobs.filter (fun j => j.1 == 0)).length ∧
     ((s false 255).jobs.filter (fun j => j.1 == 0)).length < 256 ∧ submissionOk d = true ∧ submissionOk 0 = false ∧
     (s false 0).jobs.filter (fun j => j.1 == 0) = [] ∧
     (State.freeEntries { eWith id [] with dies := [(0, { Die.reset with work := (List.range 255).map (fun i =>
        (i, { Work.zero with state := .opened })) })] } 0 (1 + 1)).length ≤ 1 ∧
     (s false 0).freeEntries 0 (fieldN d 248 8 + 1) = [0, 1] ∧ fieldN d 248 8 = 1 ∧ ((s false 0).freeKeys (fieldN d 240 8)).length = fieldN d 240 8) := by
  decide +kernel

/-- A request of core 0's firing. -/
def tReq (kind : AccKind) (va size pa : Nat) : Req :=
  { id := 1, kind := kind, ctx := { (placedFiring 0).ctx with tenant := 7 }, pc := 0, asid := 7, va := BitVec.ofNat 64 va, size := size, ofs := 0, data := 5,
    side := 0, k := 8, slot := 0, pa := pa, key := 16, scopes := 15, pb := 0, fill := 0, mapScopes := 0, wasParked := false, dev := none }
/-- Its packet on the way to an agent. -/
def tAcc (dst : Agent) (m : Msg) : Packet := { src := .core 0, dst := dst, cls := .request, tenant := 7, msg := m, held := false }

/-- A load that waits behind the core's own LDS (R128), and one that meets POISON (R357). -/
theorem witness_LoadsReadMemory_waiting :
    (let f := tFiring [(1, tSelf 0)]
     let s := { tWith (fun c => { c with poolKiB := 1 }) f with net := [tAcc (.core 0) (.access (tReq .lds selfBase 8 (winAddr 0 0)))] }
     s.Issues f false ∧ selfBase ≤ (memAddr f .d 1 0).toNat ∧ (memAddr f .d 1 0).toNat % 8 = 0 ∧ s.loadOut 0 = true) ∧
    (let f := tFiring [(1, tSelf 0)]
     let s := (tWith (fun c => { c with poolKiB := 1 }) f).setSide (winAddr 0 0) 0x20
     s.Issues f false ∧ s.loadOut 0 = false ∧ s.poolRange 0 0 8 = false ∧ isSteward s.cur = false ∧ (ldSides s 0 0 8).getLsbD 5 = true) := by
  simp only [State.Issues]; decide +kernel

theorem witness_HomesPerformRequests :
    (let p (k : AccKind) (n : Nat) : Packet := tAcc (.slice 0) (.access (tReq k 0x78 n 0x200078))
     let s (k : AccKind) (n : Nat) : State := { tPages (eWith id [p k n]) with lineKey := [(0x200078 / 128, 0)] }
     memWf (s .lds 8).mem = true ∧ (s .lds 8).recv 0 = some (p .lds 8) ∧ isHbm 0x200078 = true ∧ (s .lds 8).orderOk (tReq .lds 0x78 8 0x200078) = true ∧
     (s .lds 8).keyBad (isSteward 0) 7 16 = none ∧ 0x200078 % 128 + 8 = 128 ∧ (s .lds 8).lineKeyNo (0x200078 / 128) = some 0 ∧
     (s .lds 8).keyNumber 16 = 0 ∧ (tReq .lds 0x78 8 0x200078).dev = none ∧ (s .lds 8).keyBad (isSteward 0) 7 17 = some 1 ∧
     (s .lds 8).keyBad (isSteward 0) 6 16 = some 2 ∧
     (s .lds 8).syncRefused (tReq .lds 0x78 8 0x200078) = false ∧ (s .st 4).recv 0 = some (p .st 4) ∧
     (s .st 4).syncRefused (tReq .st 0x78 4 0x200078) = false ∧ (s .pst 8).orderOk (tReq .pst 0x78 8 0x200078) = true ∧
     (s (.atomic 8 1 2 .die) 8).recv 0 = some (p (.atomic 8 1 2 .die) 8) ∧
     (s (.atomic 8 1 2 .die) 8).orderOk (tReq (.atomic 8 1 2 .die) 0x78 8 0x200078) = true) ∧
    (let r := tReq .st 0x40 8 0x200040
     let s := eWith id [tAcc (.slice 0) (.access { r with id := 0 }), tAcc (.slice 0) (.access r)]
     s.orderOk r = false) ∧
    (7 : Nat) < 2 ^ 32 := by decide +kernel

theorem witness_ResponsesCompleteRequests :
    (let r := tReq .lds 0x40 8 0x200040
     let m (x : Msg) : Packet := { src := .slice 0, dst := .core 0, cls := .response, tenant := 7, msg := x, held := false }
     let s (x : Msg) : State := { eWith id [m x] with regions := [] }
     (s (.loadResp r [1] [0])).recv 0 = some (m (.loadResp r [1] [0])) ∧ (s (.loadResp r [1] [0])).canComplete r.ctx = true ∧ r.fill = 0 ∧ r.kind = .lds ∧
     (s (.atomResp r 0 0)).recv 0 = some (m (.atomResp r 0 0)) ∧ (s (.ack r)).recv 0 = some (m (.ack r)) ∧
     (s (.refuse (tReq .st 0 8 0) 6 6)).recv 0 = some (m (.refuse (tReq .st 0 8 0) 6 6)) ∧
     (eWith (fun c => { c with ready := List.replicate 64 (tReady 0) }) []).canComplete r.ctx = false) ∧
    (let r := tReq .lds 0x40 8 0x200040
     let q (b : Bool) : Pending := { id := 1, frame := 0, gen := 0, k := 8, slot := 0, size := 8, parts := 1, bytes := [], sides := [], failed := b }
     let l (b : Bool) := ((eWith (fun c => { c with pend := [q b] }) []).core r.ctx.core).pend
     (l true).any (fun q => q.id == r.id) = true ∧ (l true).any (fun q => q.id == r.id && q.failed) = true ∧
     (l false).any (fun q => q.id == r.id && q.failed) = false) := by
  decide +kernel

theorem witness_ResponsesCompleteRequests_host :
    (let a := 0xC000000000040
     let w (m : Msg) : Packet := tAcc .host m
     let s (m : Msg) : State := eWith id [w m, w m]
     let m (k : AccKind) : Msg := .access (tReq k 0x40 8 a)
     (s (m .lds)).pkt 0 = some (w (m .lds)) ∧ (w (m .lds)).dst = .host ∧ (w (m .lds)).held = false ∧
     (s (m .lds)).hostFirst 0 a = true ∧ (s (m .lds)).hostFirst 1 a = false ∧ (m .lds).hostPa = some a ∧
     [1, 2, 3, 4, 5, 6, 7, (8 : Byte)].length = (tReq .lds 0x40 8 a).size ∧ (tReq .pst 0x40 8 a).kind ≠ .lds ∧
     (s (m .pst)).pkt 0 = some (w (m .pst)) ∧ (s (m .pst)).hostFirst 0 a = true ∧
     (s (.copyRead (.copy 0) 7 a 1)).pkt 0 = some (w (.copyRead (.copy 0) 7 a 1)) ∧ (s (.copyRead (.copy 0) 7 a 1)).hostFirst 0 a = true ∧
     (s (.copyWrite (.copy 0) 7 a [1])).pkt 0 = some (w (.copyWrite (.copy 0) 7 a [1])) ∧
     (s (.copyWrite (.copy 0) 7 a [1])).hostFirst 0 a = true) := by decide +kernel

theorem witness_TranslationsServeRequests :
    (let r := tReq .lds 0x40 8 0
     let s (k : Cluster) : State := { tPages (eWith id []) with clusters := [(0, k)] }
     let w : Cluster := { Cluster.reset with walking := [.core r] }
     let e : TlbEnt := { asid := 7, vpage := 0, big := false, pte := 0x20004F }
     ((s w).cluster 0).walking[0]? = some (.core r) ∧ ((s { w with stop := true }).cluster 0).stop = true ∧
     ((s { w with walking := [.core r, .core r] }).cluster 0).behind 1 0 (XReq.core r).page = true ∧ ((s w).cluster 0).behind 0 0 (XReq.core r).page = false ∧
     ((s { w with parked := [.core r] }).cluster 0).holdsPage (XReq.core r).page = true ∧ ((s w).cluster 0).holdsPage (XReq.core r).page = false ∧
     servable r.kind.need (tlbFind ((s { w with tlb := [e] }).cluster 0).tlb 7 r.va) = some (0x20004F, false) ∧
     servable r.kind.need (tlbFind ((s w).cluster 0).tlb 7 r.va) = none ∧
     (s w).hostWaits r = false ∧ r.kind.need.write = false ∧
     (s w).walk 0 7 (tReq .lds 0x10000 8 0).va = .absent 0 ∧ ({ s w with poison := [0x100000 / 8] } : State).walk 0 7 r.va = .bad 8 7 ∧
     (match (s w).walk 0 7 r.va with
      | .leaf _ pte big => match (s w).checkLeaf r pte big, (s w).checkLeaf r 0 big with
        | .ok pa, .error e => pa.1 == 0x200040 && e == (6, 3)
        | _, _ => false
      | _ => false) = true) ∧
    (let j : PublJob := { asid := 7, k := 1, scope := .die, op := 0, ctx := (placedFiring 0).ctx, who := none, waits := [], purged := false }
     let b : PubBuf := { sel := false, npages := 1, gen := 0, base0 := 0, base1 := 16, genaddr := 0 }
     let d (l : List Nat) : Die := { Die.reset with publs := [{ j with waits := l }], pubs := [(7 * 256 + 1, b)] }
     let s (l : List Nat) : State := { eWith id [tAcc (.slice 0) (.access (tReq .st 0 8 0))] with dies := [(0, d l)] }
     (s []).dies.find? (fun d => d.2.publs.any (fun p => p.asid == 7 && p.k == 1)) = some (0, d []) ∧
     (d []).publs.find? (fun p => p.asid == 7 && p.k == 1) = some j ∧ ((d []).pub 7 1).isSome = true ∧
     (s [1]).net.any (fun q => match q.msg with
       | .access r => [1].contains r.id
       | _ => false) = true) ∧
    (let s (l : List TlbEnt) : State := { eWith id [] with cores := [(0x7FF, { CoreSt.reset with tlbWait := [0, 1], tlb := l })] }
     (s []).core 0x7FF |>.tlbWait.contains 1) = true := by decide +kernel

theorem witness_SpillEngineMovesFrames :
    (let s (f : Frame) := eWith (fun c => { c with frames := [(0, placedFrame), (1, f)] }) []
     let f : Frame := { placedFrame with static := false, fclass := 0, nslot := 4, poolofs := 16 }
     ((s f).core 0 |>.frame 1).state ≠ .spilling ∧ ((s { f with state := .spilling, dying := true }).core 0 |>.frame 1).dying = true ∧
     ((s { f with state := .filling, wake := [tReady 1] }).core 0 |>.frame 1).wake = [tReady 1] ∧ f.dying = false ∧
     ((s { f with state := .spilling }).core 0 |>.frame 1).state = .spilling ∧
     ((s { f with state := .filling, poolofs := noRun }).core 0 |>.frame 1).poolofs = noRun ∧
     ((s { f with state := .filling, poolofs := noRun }).core 0).freeRun (classUnits 0) = some 16 ∧
     ((s { f with state := .filling }).core 0 |>.frame 1).poolofs ≠ noRun ∧ ((s f).core 0).idleFrame 1 = true ∧
     (((s { f with state := .filling }).modFrame 0 1 (fun g => { g with state := .spilled })).poisonedSlot 0 1) = none) ∧
    (let f : Frame := { placedFrame with static := false, fclass := 0, nslot := 4, poolofs := 15 }
     let s := eWith (fun c => { c with fpool := 16, frames := [(0, f), (1, { f with state := .filling, poolofs := noRun }), (2, { f with poolofs := 0, fclass := 3 }), (3, { f with poolofs := 8, fclass := 3 })] }) []
     (s.core 0).freeRun (classUnits 0) = none ∧ (s.core 0).idleFrame 0 = true ∧ (s.core 0).freeBody = some 0) ∧
    (let p : Packet := tPkt (.core 0) (.frame (.handle 513) 3 8 1 8 0 0 0 false)
     let f : Frame := { placedFrame with static := false, fclass := 0, nslot := 4, state := .spilled, body := some 0, poolofs := noRun }
     let s := eWith (fun c => { c with frames := [(0, placedFrame), (1, f)] }) [p]
     s.recv 0 = some p ∧ s.frameOf 0 (.handle 513) = some 1 ∧ s.coreClosed 0 = false ∧ s.foreign p 0 = false ∧ (s.core 0).ready.length < 64 ∧
     isPoison (s.fside 0 1 3) = false ∧ 3 < ((s.core 0).frame 1).nslot) := by decide +kernel

/-- An issued job of core 0. -/
def tJob (op : JobOp) (d : Vec) : Job := { newJob 7 op { (placedFiring 0).ctx with tenant := 7 } 0 d FmtCtx.reset 0 with state := .issued }
/-- Core 0's machine with these jobs in its cluster's queues. -/
def tJobs (p c : List Job) : State := { tPages (eWith (fun c => { c with asid := 7 }) []) with clusters := [(0, { Cluster.reset with pressQ := p, copyQ := c })] }
/-- A copy of one row of 8 bytes from page 0 to page 0 under address space 7. -/
def tCopy : Vec := BitVec.ofNat 512 (0x1000 * 2 ^ 116 + 0x2000 * 2 ^ 164 + 2 ^ 110)

theorem witness_EnginesRunTheirJobs :
    (let j (p : Nat) : Job := { tJob .cpy 0xFFFFFFFF#512 with state := .queued, prio := p }
     let s := tJobs [] [j 1, j 3, j 3]
     (s.jobsOf (.copy 0))[1]? = some (j 3) ∧ s.eligible (j 3) = true ∧ s.eligible (j 1) = true ∧ s.issueRoom (.copy 0) = true ∧ (j 3).gang = none ∧
     (tJobs [] []).jobsOf (.press 0) = [] ∧ (tJobs [] []).slice 0 = none) ∧
    (let s := tJobs [tJob .mxldw 0] []
     s.slice 0 = some (tJob .mxldw 0) ∧ (tJob .mxldw 0).aux = 0 ∧ s.stillFrame (tJob .mxldw 0).ctx = true ∧ (tJob .mxldw 0).toks = []) ∧
    (let j : Job := { tJob .mxrd 0 with toks := [tTok true 0, tTok true 0] }
     let s : State := { eWith (fun c => { c with credits := [(0, 5)] }) [] with clusters := [(0, { Cluster.reset with pressQ := [j] })] }
     s.slice 0 = some j ∧ (s.core 0).canSend j.ctx.vnode [fieldN j.desc 156 2] 5 = true ∧
     ({ j with toks := [tTok true 0] } : Job).toks = [tTok true 0] ∧ j.toks = tTok true 0 :: tTok true 0 :: [] ∧
     (tJob .mxrd (BitVec.ofNat 512 (2 * 2 ^ 120))).toks = [] ∧ (tJob .mxrd (BitVec.ofNat 512 (2 * 2 ^ 120))).op = .mxrd ∧
     fieldN (BitVec.ofNat 512 (2 * 2 ^ 120)) 120 2 = 2 ∧ fieldN (tJob .mxrd 0).desc 120 2 ≠ 2) ∧
    (let s := tJobs [] [tJob .cpy tCopy]
     let j := tJob .cpy tCopy
     s.jobIn (.copy 0) 7 = some j ∧ j.working = true ∧ (s.cluster 0).stop = false ∧ j.line < j.total ∧ cpyTiled j.desc = false ∧
     (s.lineBytes j j.line (j.memLine j.line).2).toOption.isSome = true ∧
     ((s.linePlaces j (j.memLine j.line).1 (j.memLine j.line).2).toOption.map List.length) = some 1 ∧
     s.publHolds 0 (s.jobAsid j) (j.memLine j.line).1 = false ∧ s.syncHit 0x202000 (j.memLine j.line).2 = false ∧ j.srcDone = false ∧
     (s.readRest j).isSome = true ∧ s.copyOver j = false) ∧
    (let j : Job := { tJob .cpy tCopy with line := 1, srcDone := true }
     let s := tJobs [] [j]
     s.jobIn (.copy 0) 7 = some j ∧ j.total ≤ j.line ∧ s.copyOver j = true ∧ s.sourceOut (.copy 0) j = false ∧ j.recDone = false ∧ j.fault = none) := by
  decide +kernel

theorem witness_EnginesRunTheirJobs_ends :
    (let bad : JobFault := { fcode := 2, cls := 6, code := 1, addr := some 64 }
     let j (src rec cancel : Bool) (f : Option JobFault) : Job :=
       { tJob .cpy tCopy with line := 1, srcDone := src, recDone := rec, cancelled := cancel, fault := f }
     let s (j : Job) := tJobs [] [j]
     let done (j : Job) := (s j).jobIn (.copy 0) 7 == some j && (s j).copyOver j
     done (j false false false (some bad)) = true ∧ done (j false false true none) = true ∧ done (j false true false (some bad)) = true ∧
     done (j false false false none) = true ∧ done (j true false false none) = true ∧ done (j true true false none) = true ∧
     done (j true true false (some bad)) = true ∧ bad.cls ≠ 0 ∧ (s (j true true false (some bad))).sourceOut (.copy 0) (j true true false (some bad)) = false ∧
     (let k : Packet := { tPkt (.core 0) (.frame (.handle 0) 0 0 1 0 0 0 0 false) with src := queueAgent (.copy 0) }
      State.sourceOut { s (j true true false none) with net := [k] } (.copy 0) (j true true false none) = true) ∧
     (s (tJob .cpy tCopy)).copyOver (tJob .cpy tCopy) = false ∧ (s (tJob .cpy tCopy)).jobIn (.copy 0) 7 = some (tJob .cpy tCopy)) := by
  decide +kernel

/-- A contribution of a member to reference 0. -/
def tChunk (member use tag : Nat) : Chunk :=
  { ref := 0, member := member, index := 0, use := use, len := 0, elems := [], forms := [], sum := 0, count := 1, alt := false, again := false,
    desc := BitVec.ofNat 512 (tag * 2 ^ 44), ctx := (placedFiring 0).ctx, pc := 0, dev := 0 }
/-- A hoop of members 0 to 3 at round 10. -/
def tHoop (p : CollPhase) (tags : Tab Nat) : Hoop :=
  { desc := BitVec.ofNat 512 (3 * 2 ^ 32), ctx := (placedFiring 0).ctx, phase := p, ready := true, force := false, rho := 10, acc := [], ontime := [],
    late := [], weight := 0, tags := tags, lags := [], cur := none, waits := [], senders := [] }
/-- A router's unit of reduction 0, at its second use, with one member below and its parent in cluster 1. -/
def tUnit : RedUnit :=
  { desc := BitVec.ofNat 512 (2 ^ 52), ctx := (placedFiring 0).ctx, det := false, members := [0], tree := { parent := some (.router 1), kids := [], need := 2 },
    alt := { parent := none, kids := [], need := 1 }, cut := none, cutoff := false, use := 1, sent := [], redo := [], puts := [], lost := [], parts := [] }
/-- A chunk of one element, in long-partial form, of a member of the cluster. -/
def tPart (use count : Nat) : Chunk := { tChunk 0 use 0 with forms := [LongAcc.zero.form], count := count }

theorem witness_CollectivesDecideAndMove :
    (let p (m t : Nat) : Packet := { tPkt (.router 0) (.hpput (tChunk m 0 t)) with cls := .collective }
     let s (h : Tab Hoop) (p : Packet) : State := { eWith id [p] with dies := [(0, { Die.reset with hoops := h })] }
     (s [] (p 0 10)).recv 0 = some (p 0 10) ∧ (s [] (p 0 10)).hoopAt 0 = none ∧ (s [(0, tHoop .opened [])] (p 0 10)).hoopAt 0 = some (tHoop .opened []) ∧
     (tHoop .opened []).rho < 65536 ∧ fieldN (tHoop .opened []).desc 32 12 < 4 ∧ 3 ≤ fieldN (tHoop .opened []).desc 32 12 ∧
     (tHoop .closing []).phase ≠ .opened ∧ (tHoop .opened []).cur = none ∧ fieldN (tChunk 0 0 11).desc 44 16 = 11 ∧ (11 + 65536 - 10) % 65536 = 1 ∧
     (9 + 65536 - 10) % 65536 = 65535 ∧ (s [(0, tHoop .opened [])] (p 0 10)).hoopLag (tHoop .opened []) 0 = 0 ∧
     tabFind (tHoop .opened [(2, 10)]).tags 2 = some 10 ∧ tabFind (tHoop .opened [(2, 10)]).tags 0 = none ∧
     (tChunk 0 0 10).sum = checksum ((tChunk 0 0 10).elems.map (fun e => longFix e 0)) ∧
     ({ tChunk 0 0 10 with sum := 1 } : Chunk).sum ≠ checksum (([] : List (BitVec 32)).map (fun e => longFix e 0))) ∧
    (let put : HoopPut := { chunk := tChunk 0 0 10, lag := 0, acc := [] }
     (tHoop .opened []).expects { tChunk 0 0 10 with index := 1 } = none ∧
     ({ tHoop .opened [] with cur := some put } : Hoop).expects { tChunk 0 0 10 with index := 1 } = some put) := by decide +kernel

theorem witness_CollectivesDecideAndMove_reductions :
    (let p (c : Chunk) : Packet := { tPkt (.router 0) (.redChunk c) with src := .router 2, cls := .collective }
     let s (c : Chunk) (u : RedUnit) : State := { eWith id [p c] with clusters := [(0, { Cluster.reset with reds := [(0, u)] })] }
     (s (tPart 1 1) tUnit).recv 0 = some (p (tPart 1 1)) ∧ (s (tPart 1 1) tUnit).unitAt 0 0 = some tUnit ∧ ((s (tPart 1 1) tUnit).cluster 0).stop = false ∧
     (tPart 1 1).forms ≠ [] ∧ (tPart 0 1).use < tUnit.use ∧ tUnit.use < (tPart 2 1).use ∧ (tPart 1 1).use = tUnit.use ∧ tUnit.cutoff = false ∧
     ({ tUnit with cutoff := true } : RedUnit).cutoff = true ∧ bitN ((s (tPart 1 1) tUnit).cluster 0).health 20 = false ∧
     tUnit.tree.parent = some (.router 1) ∧ checksum ((tPart 1 1).forms.map LongAcc.ofForm) = (tPart 1 1).sum ∧
     checksum ((tPart 1 1).forms.map LongAcc.ofForm) ≠ 1 ∧ (tPart 1 1).again = false ∧ tUnit.parts.length < 32 ∧
     32 ≤ (List.replicate 32 (tUnit.add (tPart 2 1))).length ∧ (List.replicate 32 (tUnit.add (tPart 2 1))).any (fun q => q.use == 1 && q.index == 0) = false ∧
     (tUnit.add (tPart 1 1)).count < tUnit.tree.need ∧ tUnit.tree.need ≤ (tUnit.add (tPart 1 2)).count ∧ bitN (BitVec.ofNat 32 (2 ^ 20)) 20 = true) := by decide +kernel

/-- A ring of two slots. -/
def tRing : Ring :=
  { desc := 0, core := 0, slots := [(0, .landing), (1, .releasing)], blocks := [], fwd := [], grants := [], incoming := [], late := [], failed := false }

theorem witness_CollectivesDecideAndMove_peers :
    tRing.late.find? ((eWith id []).canLand 0) = none ∧ tabFind tRing.incoming 0 = none ∧
    tabFind ({ tRing with incoming := [(0, (3, 4, 5, 0))] } : Ring).incoming 0 = some (3, 4, 5, 0) ∧
    ({ tRing with late := [(2, 0, 5, 0, [9])] } : Ring).late.find? ((eWith id []).canLand 2) = some (2, 0, 5, 0, [9]) ∧
    tabFind tRing.slots 0 ≠ some .releasing := by decide +kernel

theorem witness_CollectivesDecideAndMove_rings :
    (let g := tPkt (.core 0) (.grant 1 2)
     let r := tRing
     let s (l : Tab Ring) (st : TileState) : State :=
       { eWith (fun c => { c with tiles := [(0, { Tile.zero with state := st })] }) [g] with clusters := [(0, { Cluster.reset with rings := l })] }
     (s [] .ready).recv 0 = some g ∧ (s [] .ready).ring 0 1 = none ∧ (s [(1, r)] .ready).ring 0 1 = some r ∧ r.failed = false ∧
     tabFind r.slots 0 = some .landing ∧ (r.slotTiles 0).all (fun e => (((s [(1, r)] .ready).core e.1).tile e.2).state == .ready) = true ∧
     tabFind r.slots 1 = some .releasing ∧ tabGet false r.fwd 1 = false ∧
     (r.slotTiles 1).all (fun e => (((s [(1, r)] .empty).core e.1).tile e.2).state == .empty) = true ∧ tabFind r.slots 2 ≠ some .landing) ∧
    (let s (cy : Nat) : State := { eWith id [] with absent := [(.reduction 0, 5, 0), (.ring 0 1, 5, 0)], cycle := cy }
     max 1 ((s 0).die 0).resctl.hold * 65536 = 16777216 ∧ (s 16777215).cycle < 0 + 16777216 ∧ 0 + 16777216 ≤ (s 16777216).cycle ∧
     (s 16777215).holdLost (.reduction 0) 5 = false ∧ (s 16777215).peerLost (.reduction 0) = false ∧ (s 16777215).peerLost (.ring 0 1) = false ∧ (s 16777216).redAt 0 = none ∧ ((s 16777216).jobsOf (.copy 0)).filter (turnOf 1) = []) ∧
    (let d := tPkt (.core 0) (.defReport 0 4 1 5 8)
     (eWith id [d]).recv 0 = some d) := by decide +kernel

/-- A message of channel 0 of an ingest unit. -/
def tMsg (o : Option (List Token)) : IngMsg :=
  { ticket := 3, desc := 0, ctx := (placedFiring 0).ctx, core := 0, chan := 0, out := o, bad := none, closed := true, progress := 0 }

theorem witness_IngestMessagesMove :
    (let s (m : IngMsg) (cr : Int) (cy : Nat) : State := { eWith id [] with dies := [(0, { Die.reset with msgs := [m], ingCredits := [(0, cr)] })], cycle := cy }
     (s (tMsg none) 1 0).ingMsg 0 4 = none ∧ (s (tMsg none) 1 0).ingMsg 0 3 = some (tMsg none) ∧ ((s (tMsg none) 1 0).die 0).first (tMsg none) = true ∧
     tabGet 0 ((s (tMsg (some [tTok false 0])) 0 0).die 0).ingCredits 0 < ((tTok false 0).cost : Int) ∧
     ((tTok false 0).cost : Int) ≤ tabGet 0 ((s (tMsg (some [tTok false 0])) 1 0).die 0).ingCredits 0 ∧ (tMsg (some [])).closed = true ∧
     (s (tMsg (some [])) 1 0).ingOut 0 (tMsg (some [])) = false ∧ 1 ≤ tabGet 0 ((s (tMsg none) 1 0).die 0).ingCredits 0 ∧
     (tMsg none).progress + 2 ^ 20 ≤ (s (tMsg none) 1 (2 ^ 20)).cycle ∧ (s (tMsg none) 1 (2 ^ 20 - 1)).cycle < (tMsg none).progress + 2 ^ 20 ∧
     ({ tMsg (some []) with bad := some (1, 0, 0, 0) } : IngMsg).bad = some (1, 0, 0, 0) ∧ (s (tMsg none) 1 0).rerouting = []) ∧
    (let s : State := { eWith id [] with dies := [(0, { Die.reset with msgs := [{ tMsg none with ticket := 2 }, tMsg none] })] }
     s.ingMsg 0 3 = some (tMsg none) ∧ (s.die 0).first (tMsg none) = false) := by decide +kernel

theorem witness_StewardCommandsArrive :
    (let c (m : Msg) : Packet := { src := .core 0x7FF, dst := .core 0, cls := .token, tenant := 0, msg := m, held := false }
     let s (m : Msg) : State := eWith id [c m]
     let bad : Vec := BitVec.ofNat 512 (1 * 2 ^ 16)
     (s (.place 0)).recv 0 = some (c (.place 0)) ∧ fieldN (0 : Vec) 13 3 = 0 ∧ (s (.sealCmd 0 0)).recv 0 = some (c (.sealCmd 0 0)) ∧
     (s (.sealCmd 0 0)).codeStoresOut (c (.sealCmd 0 0)).src 0 0 = false ∧ sealOk 0 = true ∧ sealOk bad = false ∧
     (s (.cfgld 0)).recv 0 = some (c (.cfgld 0)) ∧ fieldN (0 : Vec) 64 32 = 0) ∧
    (let x : Req := { tReq .st 0 8 0 with ctx := (placedFiring 0x7FF).ctx }
     let c : Packet := { src := .core 0x7FF, dst := .core 0, cls := .token, tenant := 0, msg := .sealCmd 0 100, held := false }
     let s : State := { eWith id [c] with clusters := [(clusterOf 0x7FF, { Cluster.reset with walking := [.core x] })] }
     s.recv 0 = some c ∧ s.codeStoresOut c.src 0 100 = true) := by
  decide +kernel

/-- A core whose frame 0 is spilled to a body at 0x200000. -/
def tSpilled (c : CoreSt) : CoreSt :=
  { c with frames := [(0, { placedFrame with state := .spilled, body := some 0 })], spillbase := 0x200000 }
/-- The core's frame table with frame 0 reported or not. -/
def tReported (r : Bool) (c : CoreSt) : CoreSt := { c with frames := [(0, { placedFrame with reported := r })] }
/-- A machine at a cycle whose frame 0 waits for one arrival in slot 0. -/
def tStalled (r : Bool) (cy : Nat) : State :=
  { tWith (tReported r) (tFiring []) with cycle := cy, mem := memPuts [] (winAddr 0 0) (leBytes 8 0x3000001) }

/-- Queue pair 3 serves address space 7, and key 9 of it covers the first 64 KiB (R333, R336). -/
def tQp (s : State) : State :=
  { s with qps := [(0, BitVec.ofNat 64 (3 + 7 * 2 ^ 24))], rkeys := [(0, BitVec.ofNat 256 (1 + 9 * 2 ^ 32 + 65536 * 2 ^ 128 + 7 * 2 ^ 176))] }

theorem witness_OutsideOperationsAnswer :
    (State.reset.ports = [] ∧ State.reset.ports.contains 0 = false) ∧
    (let s : State := tQp { tPages (eWith id []) with ports := [0, 1] }
     s.ports ≠ [] ∧ s.keyAsid 3 9 0x40 64 = some 7 ∧ s.keyAsid 3 8 0x40 64 = none ∧ s.keyAsid 3 9 65536 1 = none ∧ s.qpAsid 3 = some 7 ∧
     s.qpAsid 4 = none ∧ s.rdmaPlace 7 true (BitVec.ofNat 64 0x8000000000) = none ∧ s.rdmaPlace 7 true 0x40 = some (0x200040, 16) ∧
     s.syncHit 0x200040 64 = false ∧ (s.rdmaBytes 7 0x40 8).isSome = true ∧ s.rdmaBytes 7 0x10000 8 = none ∧
     (1 : BitVec 128).getLsbD 0 = true ∧ (0 : BitVec 128).getLsbD 0 = false ∧ s.resolve (stewardOf (s.rdmaDie 7)) 5 = none ∧
     s.ports.contains 0 = true ∧ s.spdm ≠ 1 ∧ s.spdm ≠ 2 ∧ s.spdm ≠ 3) ∧
    (let s : State := sWith (fun c => { c with place := [(0, { valid := true, vnode := 5, core := 0 })] }) (sFiring [])
     s.resolve (stewardOf 0) 5 = some (.core 0)) ∧
    (let s : State := tPages (eWith tSpilled [])
     let t : State := { s with mem := memPuts s.mem 0x200000 (leBytes 8 0x3000001), ports := [0] }
     t.ports ≠ [] ∧ t.rdmaPlace 7 true 0 = some (0x200000, 16) ∧ t.syncHit 0x200000 8 = true) ∧
    (let s (n l : Nat) : State := { State.reset with ports := [0], spdm := n, boot := { State.reset.boot with leaf := l } }
     (s 1 0).spdm = 1 ∧ (s 2 0).spdm = 2 ∧ (s 3 0).spdm = 3 ∧ (s 3 1048575).boot.leaf < 1048576 ∧ 1048576 ≤ (s 3 1048576).boot.leaf) := by
  decide +kernel

theorem witness_ManagementCommandsAct :
    (let s (h : Bool) : State := sWith (fun c => { c with halted := h, firing := none }) (sFiring [])
     ((s false).core (stewardOf 0)).halted = false ∧ ((s true).core (stewardOf 0)).halted = true ∧ ((s true).core (stewardOf 0)).firing = none) ∧
    State.reset.ports.contains 0 = false ∧ ({ State.reset with ports := [0] } : State).ports.contains 0 = true ∧
    State.reset.start.minimal = false ∧ ({ State.reset with start := { State.reset.start with minimal := true } } : State).start.minimal = true ∧
    State.reset.spmbox.busy = false ∧ ({ State.reset with spmbox := { busy := true, words := [] } } : State).spmbox.busy = true := by decide +kernel

theorem sha256_length (m : List Byte) : (sha256 m).length = 32 := by
  unfold sha256 ShaVars.words
  simp [leBytes]

theorem lmsRoot_length (a : List Byte) : ∀ (h n : Nat) (p x : List Byte), x.length = 32 → (lmsRoot a p h n x).length = 32
  | 0, _, _, _, hx => hx
  | h + 1, n, _, _, _ => lmsRoot_length a h (n / 2) _ _ (sha256_length _)

/-- A signature of leaf 0 under LM-OTS type 4 and LMS type 5, whose strings are zero. -/
def tSig : List Byte := beBytes 4 0 ++ beBytes 4 4 ++ List.replicate (32 + 32 * 34) 0 ++ beBytes 4 5 ++ List.replicate (32 * 5) 0
/-- The root that it gives for a message. -/
def tRoot (msg : List Byte) : List Byte :=
  let ident : List Byte := List.replicate 16 0
  lmsRoot ident (List.replicate (32 * 5) 0) 5 32 (sha256 (ident ++ beBytes 4 32 ++ [0x82, 0x82] ++
    lmotsKey (ident ++ beBytes 4 0) (8, 34, 0) (List.replicate 32 0) (tSig.drop 40) msg))
/-- The key of that root. -/
def tKey (msg : List Byte) : List Byte := beBytes 4 5 ++ beBytes 4 4 ++ List.replicate 16 0 ++ tRoot msg

/-- The signature verifies under the key. -/
theorem tKey_verifies (msg : List Byte) : lmsVerify (tKey msg) tSig msg = true := by
  have hk : (tRoot msg).length = 32 := lmsRoot_length _ _ _ _ _ (sha256_length _)
  have h1 : (tKey msg).take 4 = beBytes 4 5 := rfl
  have h2 : ((tKey msg).drop 4).take 4 = beBytes 4 4 := rfl
  have h3 : ((tKey msg).drop 8).take 16 = List.replicate 16 0 := rfl
  have h4 : (tKey msg).drop 24 = tRoot msg := rfl
  have h5 : (tKey msg).length = 56 := by simp [tKey, hk, beBytes, leBytes]
  have e1 : lmsHeight (beNat (beBytes 4 5)) = some 5 := by decide
  have e2 : lmotsParams (beNat (beBytes 4 4)) = some (8, 34, 0) := by decide
  have e3 : beNat (tSig.take 4) = 0 := by decide
  have e4 : (tSig.drop 4).take 4 = beBytes 4 4 := by decide
  have e5 : ((tSig.drop 40).drop (32 * 34)).take 4 = beBytes 4 5 := by decide +kernel
  have e6 : ((tSig.drop 40).drop (32 * 34)).drop 4 = List.replicate (32 * 5) 0 := by decide +kernel
  have e7 : (tSig.drop 8).take 32 = List.replicate 32 0 := by decide +kernel
  have e8 : tSig.length = 44 + 32 * 34 + 32 * 5 := by decide +kernel
  unfold lmsVerify
  simp only [h1, h2, h3, h4, h5, e1, e2, e3, e4, e5, e6, e7, e8]
  simp [tRoot]

theorem witness_StartsRunTheirStages_firmware :
    ∃ b : Boot, b.firmwareOk 0 b.security = true ∧ b.firmwareOk 1 b.steward = true ∧ b.firmwareOk 2 b.management = true :=
  ⟨{ Boot.empty with signatures := [(0, tSig), (1, tSig), (2, tSig)], fwKey := tKey [] }, tKey_verifies [], tKey_verifies [], tKey_verifies []⟩

theorem witness_StartsRunTheirStages :
    (let s (p : Bool) (n k : Nat) (m : Bool) : State :=
       { State.reset with boot := { State.reset.boot with inProgress := p, fails := n }, stage := k, start := { State.reset.start with minimal := m } }
     (s false 3 0 false).boot.inProgress = false ∧ (s false 3 0 false).boot.fails ≤ 3 ∧ (s true 2 4 false).boot.inProgress = true ∧ (s true 2 4 false).boot.fails < 3 ∧
     (s true 2 1 false).stage = 1 ∧ (s true 2 2 false).stage = 2 ∧ (s true 2 2 false).start.minimal = false ∧ (s true 2 6 false).stage = 6 ∧ (s true 2 7 false).stage = 7 ∧
     (s true 2 7 false).start.minimal = false ∧ (s true 3 7 true).stage = 7 ∧ (s true 3 7 true).start.minimal = true ∧ stageCause (s true 2 5 false).stage 5 = true ∧
     1 ≤ (s true 2 7 false).stage ∧ (s true 2 7 false).stage ≤ 7 ∧ ({ s true 2 4 false with links := [5] } : State).links.contains 5 = true ∧
     Boot.empty.firmwareOk 0 Boot.empty.security = false ∧ Boot.empty.firmwareOk 1 Boot.empty.steward = false ∧ Boot.empty.fusedOk = true ∧
     ({ Boot.empty with fused := [(3, 7)] } : Boot).fusedOk = false) := by decide +kernel

theorem witness_PowerAndMonitorsMeasure :
    bitN (0x40 : Word) 6 = true ∧ bitN (0 : Word) 6 = false ∧ MonFig.zero.cnt < 2 ^ 32 - 1 ∧
    (let p (b low : Nat) (thr : Bool) : State := { State.reset with power := { State.reset.power with mhz := 1300, budget := b, low := low, thr := thr } }
     420 < 421 ∧ (p 99 0 false).power.budget < 100 ∧ 1200 < (p 99 0 false).power.mhz ∧ (p 99 0 true).power.thr = true ∧ 100 ≤ (p 100 0 false).power.budget ∧
     (100 * 95 ≤ 95 * (p 100 98 false).power.budget ∧ (p 100 98 false).power.low + 1 < 100) ∧ 100 ≤ (p 100 99 false).power.low + 1) ∧
    (let m : MonFig := { MonFig.zero with cnt := 1 }
     0 < m.cnt) ∧
    (let s (cls cy : Nat) : State := { State.reset with cores := [(0, { CoreSt.reset with monsel0 := BitVec.ofNat 64 (0x40 + cls), monsel1 := 0x40 })], dies := [(0, { Die.reset with mons := [(2, (0x60, MonFig.zero))] })], cycle := cy }
     bitN ((s 7 0).core 0).monsel0 6 = true ∧ bitN ((s 7 0).core 0).monsel1 6 = true ∧ bitN (((s 7 0).die 0).mon 2).1 6 = true ∧ bitN ((s 7 0).core 1).monsel0 6 = false ∧
     fieldN ((s 7 0).core 0).monsel0 0 6 = 7 ∧ fieldN ((s 0x14 0).core 0).monsel0 0 6 = 0x14 ∧ fieldN ((s 0x16 0).core 0).monsel0 0 6 = 0x16 ∧
     (s 0x10 32).cycle % 2 ^ (fieldN ((s 0x10 32).core 0).monsel0 8 4 + 4) = 0 ∧ (s 0x10 33).cycle % 2 ^ (fieldN ((s 0x10 33).core 0).monsel0 8 4 + 4) ≠ 0 ∧
     fieldN ((s 7 0).core 0).monsel1 0 6 < 8 ∧ unitLatency 2 (unitClass 2 (((s 7 0).die 0).mon 2).1) = true) := by
  decide +kernel

theorem witness_LogsAndRegistersAreWritten :
    (let l (f : Bool) (n : Nat) : ErrLog := { Die.reset.log with full := f, dropped := n }
     (l false 0).full = false ∧ (l true 65534).full = true ∧ (l true 65534).dropped < 65535) ∧ (1 : Word).getLsbD 0 = true := by decide +kernel

theorem witness_LinksErrorsAndStallsAct :
    State.reset.linkDead (0, 0) = false ∧
    ({ State.reset with clusters := [(0, { Cluster.reset with health := BitVec.ofNat 32 (2 ^ 21) })] } : State).linkDead (0, 0) = true ∧
    (let s := tStalled
     (((s true 0).core 0).frame 0).reported = true ∧ (s false (2 ^ 28)).cycle ≤ (((s false (2 ^ 28)).core 0).frame 0).progress + (s false (2 ^ 28)).stallLimit 0 ∧
     (((s false (2 ^ 28 + 1)).core 0).frame 0).progress + (s false (2 ^ 28 + 1)).stallLimit 0 < (s false (2 ^ 28 + 1)).cycle ∧
     (((s false (2 ^ 28 + 1)).core 0).frame 0).state ≠ .free ∧ ((s false (2 ^ 28 + 1)).frameStall 0 0).isSome = true) ∧
    (let s := tJobs [] [tJob .cpy tCopy]
     s.jobIn (.copy 0) 7 = some (tJob .cpy tCopy) ∧ s.cycle ≤ (tJob .cpy tCopy).progress + s.stallLimit 0) ∧
    ({ State.reset with ports := [0] } : State).ports.contains 0 = true ∧ keptByEcc (.coreTable 0) = true ∧ keptByEcc (.reductionUnit 0) = false := by
  decide +kernel

theorem witness_LinksErrorsAndStallsAct_errors :
    (State.reset.errorAt (.coreTable 0)).isSome = true ∧ (State.reset.errorAt (.reductionUnit 0)).isSome = true ∧
    (State.reset.errorAt (.hbm 0x200000)).isSome = true ∧ (State.reset.errorAt (.press 0)).isSome = false := by decide +kernel

theorem witness_DecodeReadsEncodedWords :
    (Instr.addi 1 1 1).wellFormed = true ∧ encode (.addi 1 1 1) = some 0x14900001 := by decide

theorem witness_DecodedWordsAreEncodings : decode 0x14900001 = .ok (.addi 1 1 1) ∧ 38 ≤ (opOf 0x98000000).toNat := by decide

/-- Core 0 with a word of code at instruction 0 and its first block sealed. -/
def tCode (w : Nat) : State := { tState (tFiring []) with mem := memPuts [] (codeAddr 0 0) (wordBytes w) }

theorem witness_StepRunsTheDecodedInstruction :
    (let s (w : Nat) : State := { tCode w with cur := 0, cores := [(0, { tCore { tFiring [] with pc := 0 } with sealed := 1 })] }
     let f : Firing := { tFiring [] with pc := 0 }
     ((s 0x14900001).core 0).firing = some f ∧ ((s 0x14900001).core 0).halted = false ∧ f.pc < 16384 ∧ ((s 0x14900001).core 0).sealed.getLsbD (f.pc / 1024) = true ∧
     decode (BitVec.ofNat 32 (leNat (memBytes (s 0x14900001).mem (codeAddr 0 f.pc) 4))) = .ok (.addi 1 1 1) ∧
     decode (BitVec.ofNat 32 (leNat (memBytes (s 0x98000000).mem (codeAddr 0 f.pc) 4))) = .error .major ∧
     ((s 0).core 0).sealed.getLsbD (1024 / 1024) = false ∧ ((s 0).core 1).firing = none) ∧
    (Instr.throttleFlagClear).isEvent = true ∧ (Instr.endf).isEvent = false ∧ (tCode 0).coreRetired 0 = false ∧
    ({ dt := 0, kind := .depart 3 } : Move).kind = .depart 3 ∧ ({ dt := 1, kind := .issue 0 } : Move).kind = .issue 0 := by decide +kernel

theorem witness_StepsKeepMemoryCanonical : ∃ t, State.reset.Wf ∧ step State.reset = .next t := ⟨_, (by simp only [State.Wf]; decide), rfl⟩

theorem witness_IssueLimitsAreKept :
    (let f : Firing := { tFiring [] with issued := 256, held := 48 }
     ((tState f).core (tState f).cur).firing = some f ∧ ((tState f).core (tState f).cur).halted = false ∧ (Instr.endf).isEvent = false ∧
     isSteward (tState f).cur = false ∧ 256 ≤ f.issued ∧ 48 ≤ f.held) ∧
    (let f : Firing := { tFiring [] with issued := 255, held := 47 }
     let s : State := tWith (fun c => { c with queue := List.replicate 48 (tHeld .roinv true) }) f
     (s.core s.cur).firing = some f ∧ f.issued < 256 ∧ f.held < 48 ∧ (Instr.send none 2 3 1 8).holds = true ∧ 48 ≤ (s.core s.cur).occupied) ∧
    (let f : Firing := { tFiring [] with issued := 255, held := 48 }
     f.issued < 256 ∧ 48 ≤ f.held) := by decide +kernel

theorem witness_FaultsEndTheFiring :
    isSteward (tState (tFiring [])).cur = false ∧ isSteward (sWith id (sFiring [])).cur = true ∧ fieldN ((tState (tFiring [])).core 0).firstx 0 8 = 0 ∧
    fieldN ((tWith (fun c => { c with firstx := 5 }) (tFiring [])).core 0).firstx 0 8 ≠ 0 ∧ (tFiring []).ctx.reserved = false := by decide +kernel

theorem witness_ComputingInstructionsKeepTheRest :
    (tState (tFiring [])).Issues (tFiring []) false ∧ Instr.computes (.addi 1 1 1) = some (1, true) ∧
    ∃ t, exec (.addi 1 1 1) (tState (tFiring [])) = .next t := by
  refine ⟨?_, rfl, _, rfl⟩
  simp only [State.Issues]; decide +kernel

/-- CHPEEK of a vector port: nothing at its read position. -/
theorem witness_ChannelInstructions_empty :
    (let s := tWith (tPorts [] []) (tFiring [])
     s.Issues (tFiring []) false ∧ ndInVec (s.ndOf (tFiring [])) 1 = true ∧ s.tokenAt (tFiring []) 1 = none) := by
  simp only [State.Issues]; decide +kernel

/-- A store of core 0 at offset 0x100 of its SRAM, held, and another in flight. -/
theorem witness_LoadsReadMemory_forwards :
    (let a : Act := .access .st (BitVec.ofNat 64 (selfBase + 0x100)) 8 5 0 0 0
     let w : FwdStore := { ofs := 0x100, size := 8, data := 5, side := 0 }
     let r := tReq .st (selfBase + 0x100) 8 0
     let s (q : List Held) : State := { tWith (fun c => { c with queue := q }) (tFiring []) with net := [tAcc (.core 0) (.access r)] }
     (s [tHeld a true]).fwdStores 0 = [w, w] ∧ (s [tHeld a true]).ownOfs 0 (BitVec.ofNat 64 (selfBase + 0x100)) = some 0x100 ∧
     (tHeld a true).act = a ∧ (s []).inflightStores 0 = [r] ∧ (s []).ownOfs 0 r.va = some 0x100 ∧ r.size = w.size ∧ r.data = w.data ∧
     w.ofs ≤ 0x100 + 7 ∧ 0x100 + 7 < w.ofs + w.size ∧ ¬(0x100 + 8 < w.ofs + w.size)) := by decide +kernel

/-- The checks of split-phase loads and atomics that fail, each behind those that hold (R450). -/
theorem witness_SplitLoadsAndAtomicsAreHeld_faults :
    (let f := tFiring [(1, tSelf 0x1004), (2, BitVec.ofNat 512 (2 ^ 47)), (3, tSelf 0), (4, tSelf 0x1000)]
     let s := (tState f).setFword 0 0 0 (BitVec.ofNat 64 (2 ^ 24)) 0
     s.Issues f true ∧ (8 : FWord).toNat + 2 ≤ ((s.core 0).frame 0).words ∧ (3 : Slot).toNat < ((s.core 0).frame 0).nslot ∧
     xlatFault false false (f.w 2) = some 1 ∧ xlatFault false true (f.w 4) = some 2 ∧ xlatFault false false (f.w 1) = none ∧
     (f.w 1).toNat % 8 ≠ 0 ∧ xlatFault false false (f.w 3) = none ∧ (f.w 3).toNat % 8 = 0 ∧ s.syncFault 0 (f.w 3) 8 = some 1) := by
  simp only [State.Issues]; decide +kernel

/-- A descriptor area in the tenant's space, on a page that is there and on one that is not. -/
theorem witness_SchedulerEventsHappen_area :
    (let s (a : Nat) := tPages (eWith (fun c => { c with asid := 7, darea := a, fetching := [5], dareaTab := [(5, tNode)] }) [])
     ((s 0).core 0).fetching.contains 5 = true ∧ tabFind ((s 0).cluster 0).dcache 5 = none ∧
     (s 0).readVirt 0 7 (((s 0).core 0).areaVa 5) 32 = some (List.replicate 32 0) ∧
     (s 65536).readVirt 0 7 (((s 65536).core 0).areaVa 5) 32 = none ∧ tabFind ((s 65536).core 0).dareaTab 5 = some tNode) := by decide +kernel

/-- A frame token for a node that has no node frame here; the pages of a spill ring that grant and refuse. -/
theorem witness_FrameTokensArrive_node :
    (eWith id []).frameOf 0 (.node 9) = none ∧
    (let s := tPages (eWith id [])
     s.rangeOk 0 7 { read := true, write := true } 4096 64 = true ∧ s.rangeOk 0 7 { read := true, write := true } 65536 64 = false ∧
     s.rangeOk 0 7 { read := false, write := true } 4096 80 = true ∧ s.rangeOk 0 7 { read := false, write := true } 65536 80 = false) := by
  decide +kernel

/-- Entries of every level that take a change. -/
theorem witness_WorkCountersComplete_levels :
    (let p (d : Int) (st : Nat) : Packet := tPkt (.work 0) (.work 3 2 d st)
     let s (d : Int) (st : Nat) (w : Work) := { eWith id [p d st] with dies := [(0, { Die.reset with work := [(3, w)] })] }
     let w (l : Nat) : Work := { Work.zero with state := .opened, seq := 2, level := l, counter := 1, chandle := 1, pidx := 4 }
     (s 0 0 { w 4 with state := .done }).recv 0 = some (p 0 0) ∧ ((s 0 0 { w 4 with state := .done }).work 0 3).state = .done ∧
     ((s 0 0 { w 4 with state := .done }).work 0 3).seq = 2 ∧ ((s (-1) 2 (w 4)).work 0 3).level = 4 ∧ ((s (-1) 2 (w 4)).work 0 3).state = .opened ∧
     (s (-1) 2 (w 2)).recv 0 = some (p (-1) 2) ∧ ((s (-1) 2 (w 2)).work 0 3).level = 2 ∧ ((1 : Nat) : Int) + -1 ≤ 0 ∧
     (s (-1) 2 (w 2)).rerouting = []) ∧
    (let s (l : Nat) := { eWith id [] with dies := [(0, { Die.reset with work := [(4, { Work.zero with level := l })] })] }
     ((s 2).workOf ((s 2).workId 0 4)).level = 1 + 1) := by decide +kernel

/-- Responses to a load's parts, an LDRO, an atomic and a PST, each for a frame that can take it. -/
theorem witness_ResponsesCompleteRequests_counts :
    (let r (k : AccKind) := tReq k 0x40 8 0x200040
     let m (x : Msg) : Packet := { src := .slice 0, dst := .core 0, cls := .response, tenant := 7, msg := x, held := false }
     let q (n : Nat) : Pending := { id := 1, frame := 0, gen := 0, k := 8, slot := 0, size := 8, parts := n, bytes := [], sides := [], failed := false }
     let s (n : Nat) (x : Msg) : State := eWith (fun c => { c with pend := [q n] }) [m x]
     (s 1 (.loadResp (r .lds) [1] [0])).recv 0 = some (m (.loadResp (r .lds) [1] [0])) ∧
     (s 2 (.loadResp (r .ldro) [1] [0])).recv 0 = some (m (.loadResp (r .ldro) [1] [0])) ∧
     (s 1 (.loadResp (r .lds) [1] [0])).canComplete (r .lds).ctx = true ∧ (s 2 (.loadResp (r .ldro) [1] [0])).canComplete (r .ldro).ctx = true ∧
     ((s 1 (.ack (r .pst))).core 0).pend.find? (fun e => e.id == 1) = some (q 1) ∧ ((s 2 (.ack (r .pst))).core 0).pend.find? (fun e => e.id == 1) = some (q 2) ∧
     (s 1 (.ack (r .pst))).recv 0 = some (m (.ack (r .pst))) ∧ (((s 1 (.ack (r .pst))).core 0).frame 0).state ≠ .free ∧
     (((s 1 (.ack (r .pst))).core 0).frame 0).gen = (r .pst).ctx.gen ∧
     (s 1 (.atomResp (r (.atomic 0 1 2 .die)) 0 0)).recv 0 = some (m (.atomResp (r (.atomic 0 1 2 .die)) 0 0)) ∧
     (s 1 (.atomResp (r (.atomic 0 1 2 .die)) 0 0)).canComplete (r (.atomic 0 1 2 .die)).ctx = true) := by decide +kernel

/-- The end of a hold: with the generation word's page there, absent, or parked for already; and the cluster's L2 TLB stopped. -/
theorem witness_TranslationsServeRequests_publ :
    (let j : PublJob := { asid := 7, k := 1, scope := .die, op := 0, ctx := (placedFiring 0).ctx, who := none, waits := [], purged := false }
     let b (a : Nat) : PubBuf := { sel := false, npages := 1, gen := 1, base0 := 0, base1 := 16, genaddr := a }
     let s (a : Nat) (k : Cluster) : State :=
       let t := tPages (eWith (fun c => { c with asid := 7 }) [])
       { t with clusters := [(0, k)], dies := [(0, { t.die 0 with publs := [j], pubs := [(7 * 256 + 1, b a)] })] }
     ((s 64 Cluster.reset).die (dieOf j.ctx.core)).pub 7 1 = some (b 64) ∧ (s 64 Cluster.reset).genAbsent 0 0 7 64 = none ∧
     ((s 65536 Cluster.reset).genAbsent 0 0 7 65536).isSome = true ∧
     ((s 65536 Cluster.reset).cluster 0).parked.contains (.wait 7 65536 0 none) = false ∧
     ((s 64 { Cluster.reset with stop := true }).cluster (clusterOf j.ctx.core)).stop = true ∧ ((s 64 Cluster.reset).cluster 0).stop = false ∧
     ({ j with purged := true } : PublJob).purged = true) := by decide +kernel

/-- Holds of a ring and a hoop, before and at their limit. -/
theorem witness_CollectivesDecideAndMove_holds :
    (let s (cy : Nat) : State := { eWith id [] with absent := [(.ring 0 1, 5, 0)], cycle := cy, dies := [(0, { Die.reset with hoops := [(0, tHoop .opened [])] })] }
     (s 16777215).absent.any ((s 16777215).holdOver (.ring 0 1)) = false ∧ (s 16777215).peerLost (.ring 0 1) = false ∧
     (s 16777215).holdLost (.ring 0 1) 5 = false ∧ (s 16777216).absent.any ((s 16777216).holdOver (.ring 0 1)) = true ∧
     (s 16777216).holdIdle (.ring 0 1) = false ∧ ((s 0).jobsOf (.copy 0)).filter (turnOf 1) = [] ∧ (s 0).hoopAt 0 = some (tHoop .opened []) ∧
     (tHoop .opened []).waits = [] ∧ (tJobs [] [tJob .cpy tCopy]).yieldsUnit (.copy 0) = false) := by decide +kernel

/-- A port that is up for RDMA, and one that serves management traffic only; a PUBL that holds the writes to a page. -/
theorem witness_OutsideOperationsAnswer_ports :
    (let s (m : Bool) : State := { tPages (eWith id []) with ports := [0], start := { State.reset.start with minimal := m } }
     (s false).rdmaUp = true ∧ (s true).rdmaUp = false ∧ (s false).publHolds 0 7 0x40 = false) ∧
    (let j : PublJob := { asid := 7, k := 3, scope := .die, op := 0, ctx := (placedFiring 0).ctx, who := none, waits := [], purged := false }
     let b : PubBuf := { sel := false, npages := 1, gen := 1, base0 := 32, base1 := 48, genaddr := 0 }
     let t := tPages (eWith id [])
     let s : State := { t with mem := memPuts t.mem 0x101800 (leBytes 8 (0x34F + 16 * 2 ^ 52)), dies := [(0, { t.die 0 with publs := [j], pubs := [(7 * 256 + 3, b)] })] }
     (lineSpans 0x40 64).any (fun e => s.publHolds 0 7 e.1) = true) := by decide +kernel

/-- A steward core that a HALT or a fault has stopped keeps its firing. -/
theorem witness_ManagementCommandsAct_firing :
    (let s := sWith (fun c => { c with halted := true, queue := [tHeld .roinv false] }) (sFiring [])
     (s.core (stewardOf 0)).halted = true ∧ (s.core (stewardOf 0)).firing = some (sFiring []) ∧ (s.core (stewardOf 0)).queue ≠ []) := by
  decide +kernel

/-- Words that stop and resume a core, leave a work entry OPEN at its level or move it, and clear an entry. -/
theorem witness_LogsAndRegistersAreWritten_words :
    (1 : Word).getLsbD 3 = false ∧ (0 : Word).getLsbD 3 = false ∧ (0 : Word).getLsbD 0 = false ∧
    ((tWith (fun c => { c with dbgStop := true }) (tFiring [])).core (0 * 2048 + 0)).dbgStop = true ∧
    ((tState (tFiring [])).core (0 * 2048 + 0)).dbgStop = false ∧
    (let w : Work := { Work.zero with state := .opened, level := 2, counter := 5 }
     let s : State := { State.reset with dies := [(0, { Die.reset with work := [(3, w)] })] }
     (s.work 0 3).state = .opened ∧ fieldN (BitVec.ofNat 64 (2 + 8 + 4 * 256)) 3 2 = 1 ∧ fieldN (BitVec.ofNat 64 (2 + 8 + 4 * 256)) 0 3 = (s.work 0 3).level ∧
     fieldN (BitVec.ofNat 64 (2 + 16)) 3 2 ≠ 1 ∧ fieldN (BitVec.ofNat 64 (3 + 8)) 0 3 ≠ (s.work 0 3).level) := by decide +kernel

/-- Classes of a monitor at a cache slice and at a router: bit 6 is read with the six bits of the event. -/
theorem test_monitor_classes : unitLatency 2200 (unitClass 2200 0x41) = true ∧ unitClass 2200 0x41 = 0x41 ∧ unitClass 2 0x60 = 0x20 := by decide

/-- A launch entry that is DONE is FREE once a step has begun, and a graph's stays DONE (R448). -/
theorem test_tick_frees_launches :
    (let w (l : Nat) : Work := { Work.zero with state := .done, level := l, seq := 7 }
     let s : State := { State.reset with dies := [(0, { Die.reset with work := [(3, w 1), (4, w 2)] })] }
     ((s.tick 1).work 0 3).state = .free ∧ ((s.tick 1).work 0 3).seq = 7 ∧ ((s.tick 1).work 0 4).state = .done) := by decide +kernel

theorem witness_IssueLimitsAreKept_tenant :
    stewardOnly .halt = true ∧ stewardOnly .endf = false ∧ csrOf .endf = none ∧ csrOf (.csrr 1 0x004) = some 0x004 ∧ csrTenant 0x004 = true ∧
    csrTenant 0x040 = false := by decide +kernel


/-! ## One step each, with the manual's worked examples -/

/-- What a temporary of core 0 holds after an instruction. -/
def tTemp (i : Instr) (s : State) (u : Temp) : Option Nat :=
  match exec i s with
  | .next t => (t.core 0).firing.map (fun f => (f.t u).toNat)
  | _ => none
/-- The firing flags of core 0 after an instruction. -/
def tFlags (i : Instr) (s : State) : Option Byte :=
  match exec i s with
  | .next t => (t.core 0).firing.map (fun f => f.flags)
  | _ => none

/-- The program of R214's example, and the word of R254's example. -/
theorem test_decode_examples : ∀ e ∈ ([(0x0C800080, .li 1 0x80), (0x10900402, .lih 1 1 0x402), (0x39100000, .falloc 2 1),
    (0x3582A000, .fld .w 3 10), (0x41304100, .send none 2 3 1 8), (0x3602E000, .fld .w 4 11), (0x41404100, .send none 2 4 1 8),
    (0x00000001, .endf), (0x7F100006, .vred .f32 .sum 6 1)] : List (IWord × Instr)), decode e.1 = .ok e.2 := by decide

/-- LI T5, -1 and LIH T5, T5, 0 make the self window base (R208). -/
theorem test_lih_selfBase : tTemp (.li 5 0xFFFFF) (tState (tFiring [])) 5 = some (2 ^ 64 - 1) ∧
    tTemp (.lih 5 5 0) (tState (tFiring [(5, BitVec.ofNat 512 (2 ^ 64 - 1))])) 5 = some 0xFFFFFFFFFFF00000 := by decide +kernel

/-- FALLOC with the request of R214's example allocates a frame whose slot word 0 is armed with count 2. -/
theorem test_falloc_join :
    (match exec (.falloc 2 1) (tState (tFiring [(1, 0x08000402)])) with
     | .next t => ((t.core 0).frames.filter (fun e => e.1 != 0)).map (fun e =>
         (e.2.nslot, slotCount (t.fword 0 e.1 0), slotArmed (t.fword 0 e.1 0), slotArmed (t.fword 0 e.1 1)))
     | _ => []) = [(2, 2#24, true, false)] := by decide +kernel

/-- F32 lanes: 2^24 in lane 0, 1.0 in the others. -/
def tLanes : Vec := BitVec.ofNat 512 (0x4B800000 + (List.range 15).foldl (fun n j => n + 0x3F800000 * 2 ^ (32 * (j + 1))) 0)

/-- R254: 2^24 and fifteen times 1.0 sum to 2^24 + 14 in the fixed tree, with NX. -/
theorem test_vred_tree :
    tTemp (.vred .f32 .sum 6 1) (tState (tFiring [(1, tLanes)])) 6 = some 0x4B800007 ∧
    tFlags (.vred .f32 .sum 6 1) (tState (tFiring [(1, tLanes)])) = some flNX := by decide +kernel

/-- R255: lanes 3 and 4 of F32 become lanes 19 and 20 of B16 in part 1; the lower half is kept. -/
theorem test_vcvt_part :
    let v : Vec := BitVec.ofNat 512 (0x3F808000 * 2 ^ 96 + 0x7F61B1E6 * 2 ^ 128)
    let d : Vec := 0x1234
    (tTemp (.vcvt .f32 .b16 0 1 2 1) (tState (tFiring [(1, v), (2, d)])) 2).map (fun n => (n % 2 ^ 256, n / 2 ^ 304 % 2 ^ 16, n / 2 ^ 320 % 2 ^ 16)) =
      some (0x1234, 0x3F80, 0x7F62) := by decide +kernel

/-- R258: under the reset int8 image 17.0 and 500.0 encode as 0x11 and 0x7F, with OF and NX; the lanes are E8M10. -/
theorem test_venc_int8 :
    (tTemp (.venc 2 0 2 1) (tState (tFiring [(1, BitVec.ofNat 512 (0x20C40 + 0x21FD0 * 2 ^ 32))])) 2).map (fun n => n % 65536) = some 0x7F11 := by
  decide +kernel

/-- R164: image 2 encodes 17.0, 490, 500 and -17.0. -/
theorem test_encode_e4m3 :
    let t : CodeTable := .preset 2
    t.encode (.fin false 17 0) = (0x58, flNX) ∧ t.encode (.fin false 490 0) = (0x7F, flNX) ∧
    t.encode (.fin false 500 0) = (0x7F, flOF ||| flNX) ∧ (t.encode (.fin true 17 0)).1 = 0xD8 := by decide +kernel

/-- R159: VEXP2 of 3.5. -/
theorem test_vexp2 : (tTemp (.vexp2 .f32 .rne 2 1) (tState (tFiring [(1, 0x40600000)])) 2).map (fun n => n % 2 ^ 32) = some 0x413504F3 := by
  decide +kernel

/-- R166: products 1.0, 2^-24 and 2^-50 give 1 + 2^-23 with NX; without the third the tie goes to even. -/
theorem test_pressStep :
    let p (e : Int) : Machine.Num × Machine.Num := (.fin false 1 e, .fin false 1 0)
    (pressStep (.fin false 0 0) [p 0, p (-24), p (-50)] 0).1.dya.beq { m := 2 ^ 23 + 1, e := -23 } = true ∧
    (pressStep (.fin false 0 0) [p 0, p (-24), p (-50)] 0).2 = flNX ∧ (pressStep (.fin false 0 0) [p 0, p (-24)] 0).1.dya.beq { m := 1, e := 0 } = true := by
  decide +kernel

/-- R170: the limb form of -3.0. R171: the checksum of 1.5 and -0.25. -/
theorem test_longForm : (longFix 0xC0400000 0).header = 0x0009 ∧ (longFix 0xC0400000 0).limbs = [0x0000000300000000] ∧
    checksum [longFix 0x3FC00000 0, longFix 0xBE800000 0] = 0x4000000000 := by decide +kernel

/-- R108: the home of PA 0x2000012345 is cluster x 3, y 4 of die 1; the last granule of a 96 GiB die lies at x 11, y 1. -/
theorem test_home : homeOf 0x2000012345 = 120 + 4 * 12 + 3 ∧ homeOf (0x1800000000 - 1) = 12 + 11 := by decide

/-- R281 and R284: the record of job 0x9003, refused at byte 512. -/
theorem test_copyRecord :
    let j : Job := { newJob 0x9003 .cpy (placedFiring 0).ctx 0 0 FmtCtx.reset 0 with fault := some { fcode := 1, cls := 0, code := 0, addr := none }, bytes := 512 }
    leNat (j.record.take 8) = 0x0000020001029003 ∧ leNat (j.record.drop 8) = 0 := by decide +kernel

/-- The firing of the example of R367 on core 5 of cluster (3, 2) of die 1, frame 7, generation 3. -/
def tAligned : Firing :=
  { placedFiring 0x91D with
    pc := 0x42, ctx := { (placedFiring 0x91D).ctx with frame := 7, gen := 3, slot := 0, vnode := 0x123, tenant := 0x15, launch := 0x4211, iter := 0x10002 } }
/-- Its machine. -/
def tAlignedState : State :=
  let f := tAligned.setT 4 (BitVec.ofNat 512 0x0000004000001004)
  { State.reset with cores := [(0x91D, { tCore f with frames := [(7, { placedFrame with gen := 3 })] })], cur := 0x91D }

/-- R367: a misaligned AADD.D.DIE leaves these words in FIRSTX. -/
theorem test_record_align :
    (match exec (.aadd .d .die 20 4 3) tAlignedState with
     | .next t => (List.range 4).map (fun j => fieldN (t.core 0x91D).firstx (64 * j) 64)
     | _ => []) = [0x000425048EA00103, 0x0010844070300123, 0x0000000000010002, 0x0150004000001004] := by decide +kernel
/-- R288: a zstd frame of one raw block that holds "Hello", with its content size and checksum (RFC 8878). -/
theorem test_zstd :
    (match decodeZstd [] false [0x28, 0xB5, 0x2F, 0xFD, 0x24, 0x05, 0x29, 0x00, 0x00, 0x48, 0x65, 0x6C, 0x6C, 0x6F, 0x44, 0x7D, 0xB2, 0x75] with
     | .whole b => b
     | _ => []) = [0x48, 0x65, 0x6C, 0x6C, 0x6F] := by decide +kernel

/-- R16: the block of appendix C.3 of FIPS 197 under its key of 256 bits. -/
theorem test_aes256 : aesEncrypt (roundKeys ((List.range 32).map (fun i => BitVec.ofNat 8 i))) ((List.range 16).map (fun i => BitVec.ofNat 8 (0x11 * i))) =
    [0x8E, 0xA2, 0xB7, 0xCA, 0x51, 0x67, 0x45, 0xBF, 0xEA, 0xFC, 0x49, 0x90, 0x4B, 0x49, 0x60, 0x89] := by decide +kernel

/-- R16: the digest of the three letters of FIPS 180. -/
theorem test_sha256 : leNat (sha256 [0x61, 0x62, 0x63]).reverse = 0xBA7816BF8F01CFEA414140DE5DAE2223B00361A396177A9CB410FF61F20015AD := by
  decide +kernel
end

/-! Every step keeps memory in canonical form. Memory changes only where bytes are written or a range is cleared, so one lemma for
each operation of the state, in the order of the model, says that it keeps `State.Wf`; an instruction or event is a composition of
such operations, and its lemma the composition of theirs. -/

namespace Sys2Proof.Machine

/-! ### Canonical outcomes, and the ways in which operations are put together -/

/-- The state that an outcome goes on with, where there is one, is canonical. -/
def nextWf : Host.Outcome State Fault Refusal → Prop
  | .next t => t.Wf
  | .fault _ | .refused _ => True

/-- The state that an optional release gives, where it gives one, is canonical. -/
def optWf : Option State → Prop
  | none => True
  | some t => t.Wf

/-- The state that an instruction's body makes, where it makes one, is canonical. -/
def Body.Wf : Body → Prop
  | .done t | .bare t | .jump _ t | .ends t => t.Wf
  | .trap .. | .poison _ | .wait => True

theorem nextWf.of_next {o : Host.Outcome State Fault Refusal} {t : State} (ho : nextWf o) (e : o = .next t) : t.Wf := by
  subst e; exact ho

theorem optWf.none : optWf none := trivial

theorem optWf.of_some {o : Option State} {t : State} (ho : optWf o) (e : o = some t) : t.Wf := by
  subst e; exact ho

theorem optWf.getD {o : Option State} {t : State} (ho : optWf o) (ht : t.Wf) : (o.getD t).Wf := by
  cases o with
  | none => exact ht
  | some u => exact ho

theorem optWf.map {o : Option State} {f : State → State} (ho : optWf o) (hf : ∀ t, t.Wf → (f t).Wf) : optWf (o.map f) := by
  cases o with
  | none => trivial
  | some u => exact hf u ho

/-- A state with the memory of a canonical one is canonical. -/
theorem State.Wf.of_mem {s t : State} (hs : s.Wf) (e : t.mem = s.mem := by rfl) : t.Wf := by
  rw [State.Wf, e]; exact hs

/-- Bytes written into a canonical memory keep its form. -/
theorem State.Wf.of_puts {s t : State} (hs : s.Wf) {a : Nat} {bs : List Byte} (e : t.mem = memPuts s.mem a bs := by rfl) :
    t.Wf := by
  rw [State.Wf, e]; exact memWf_memPuts _ _ _ hs

theorem nextWf.ite {p : Prop} [Decidable p] {o u : Host.Outcome State Fault Refusal} (ho : nextWf o) (hu : nextWf u) :
    nextWf (if p then o else u) := by
  split
  · exact ho
  · exact hu

theorem optWf.ite {p : Prop} [Decidable p] {o u : Option State} (ho : optWf o) (hu : optWf u) :
    optWf (if p then o else u) := by
  split
  · exact ho
  · exact hu

theorem Body.Wf.ite {p : Prop} [Decidable p] {b d : Body} (hb : b.Wf) (hd : d.Wf) : (if p then b else d).Wf := by
  split
  · exact hb
  · exact hd

theorem Body.Wf.done {s : State} (hs : s.Wf) : (Body.done s).Wf := hs

theorem State.Wf.ite {p : Prop} [Decidable p] {s t : State} (hs : s.Wf) (ht : t.Wf) : (if p then s else t).Wf := by
  split
  · exact hs
  · exact ht

/-- An operation that happens under a condition. -/
theorem State.Wf.mayStep {p : Prop} [Decidable p] {s t : State} (hs : s.Wf) (hstep : s.Wf → t.Wf) : (if p then t else s).Wf :=
  .ite (hstep hs) hs

/-- An operation that a condition prevents. -/
theorem State.Wf.unless {p : Prop} [Decidable p] {s t : State} (hs : s.Wf) (hstep : s.Wf → t.Wf) : (if p then s else t).Wf :=
  .ite hs (hstep hs)

theorem State.Wf.elim {α : Type} {o : Option α} {s : State} {f : α → State} (hs : s.Wf) (hf : ∀ x, (f x).Wf) :
    (o.elim s f).Wf := by
  cases o with
  | none => exact hs
  | some x => exact hf x

theorem State.Wf.cfgIte {p : Prop} [Decidable p] {g k : Cfg} (hg : g.s.Wf) (hk : k.s.Wf) :
    (if p then g else k).s.Wf := by
  split
  · exact hg
  · exact hk

theorem State.Wf.foldl {α : Type} {l : List α} {s : State} {f : State → α → State} (hs : s.Wf)
    (hf : ∀ t x, t.Wf → (f t x).Wf) : (l.foldl f s).Wf := by
  induction l generalizing s with
  | nil => exact hs
  | cons x l ih => exact ih (hf s x hs)

/-! ### Clearing a range of memory -/

theorem memAbove_mono {a b : Nat} {l : List Host.Cell} (hab : a ≤ b) (h : memAbove b l = true) : memAbove a l = true := by
  cases l with
  | nil => rfl
  | cons e l =>
    simp only [memAbove, Bool.and_eq_true, decide_eq_true_eq] at h ⊢
    exact ⟨⟨by omega, h.1.2⟩, h.2⟩

theorem memAbove_filter {b : Nat} {l : List Host.Cell} (p : Host.Cell → Bool) (h : memAbove b l = true) :
    memAbove b (l.filter p) = true := by
  induction l generalizing b with
  | nil => rfl
  | cons e l ih =>
    simp only [memAbove, Bool.and_eq_true, decide_eq_true_eq] at h
    obtain ⟨⟨hb, hv⟩, hl⟩ := h
    by_cases hp : p e = true
    · simpa [hp, memAbove, hb, ih hl] using hv
    · simpa [List.filter_cons, hp] using memAbove_mono (by omega) (ih hl)

/-- Clearing a range of memory keeps its canonical form. -/
theorem memWf_memClear {l : List Host.Cell} {a n : Nat} (h : memWf l = true) : memWf (memClear l a n) = true := by
  cases l with
  | nil => rfl
  | cons e l =>
    simp only [memWf, Bool.and_eq_true, decide_eq_true_eq] at h
    obtain ⟨hv, hl⟩ := h
    unfold memClear
    by_cases hp : (decide (e.1 < a) || decide (a + n ≤ e.1)) = true
    · simp only [List.filter_cons, hp, if_true, memWf, Bool.and_eq_true, decide_eq_true_eq]
      exact ⟨hv, memAbove_filter _ hl⟩
    · simpa only [List.filter_cons, hp, if_false, Bool.false_eq_true] using memWf_of_above _ _ (memAbove_filter _ hl)

/-! ### The reset state -/

theorem State.Wf.reset : State.reset.Wf :=
  rfl

/-! ### Operations on the state -/

theorem State.Wf.setCore {s : State} (hs : s.Wf) {c : Nat} {x : CoreSt} : (s.setCore c x).Wf :=
  hs

theorem State.Wf.modCore {s : State} (hs : s.Wf) {c : Nat} {f : CoreSt → CoreSt} : (s.modCore c f).Wf :=
  hs.setCore

theorem State.Wf.modCluster {s : State} (hs : s.Wf) {c : Nat} {f : Cluster → Cluster} : (s.modCluster c f).Wf :=
  hs

theorem State.Wf.modDie {s : State} (hs : s.Wf) {d : Nat} {f : Die → Die} : (s.modDie d f).Wf :=
  hs

theorem State.Wf.send {s : State} (hs : s.Wf) {p : Packet} : (s.send p).Wf :=
  hs

theorem State.Wf.dropPkt {s : State} (hs : s.Wf) {k : Nat} : (s.dropPkt k).Wf :=
  hs

theorem State.Wf.drawn {s : State} (hs : s.Wf) : s.drawn.Wf :=
  hs

theorem State.Wf.loadKey {s : State} (hs : s.Wf) {key tenant job : Nat} : (s.loadKey key tenant job).Wf :=
  hs

theorem State.Wf.evictLine {s : State} (hs : s.Wf) {line : Nat} : (s.evictLine line).Wf := by
  unfold State.evictLine
  split
  · exact hs
  · exact hs.of_mem.modCluster

theorem State.Wf.trimSlice {s : State} (hs : s.Wf) {cluster : Nat} : (s.trimSlice cluster).Wf :=
  hs.foldl fun _ _ h' => h'.evictLine

theorem State.Wf.allocLine {s : State} (hs : s.Wf) {key line : Nat} {wr : Bool} : (s.allocLine key line wr).Wf :=
  (State.Wf.ite hs.of_puts hs).modCluster.trimSlice

theorem State.Wf.touchLine {s : State} (hs : s.Wf) {key line : Nat} {wr : Bool} : (s.touchLine key line wr).Wf := by
  unfold State.touchLine
  split
  · exact .ite hs.modCluster hs.evictLine.allocLine
  · exact hs.allocLine

theorem State.Wf.touchLines {s : State} (hs : s.Wf) {key pa n : Nat} {wr : Bool} : (s.touchLines key pa n wr).Wf :=
  .ite (hs.foldl fun _ _ h' => h'.touchLine) hs

theorem State.Wf.touchPlain {s : State} (hs : s.Wf) {pa : Nat} {wr : Bool} : (s.touchPlain pa wr).Wf :=
  .ite (.ite hs.touchLine hs.modCluster.trimSlice) hs

theorem State.Wf.touchPlains {s : State} (hs : s.Wf) {pa n : Nat} {wr : Bool} : (s.touchPlains pa n wr).Wf :=
  hs.foldl fun _ _ h' => h'.touchPlain

theorem State.Wf.setSide {s : State} (hs : s.Wf) {pa : Nat} {b : Byte} : (s.setSide pa b).Wf :=
  hs

theorem State.Wf.writeBytes {s : State} (hs : s.Wf) {key pa : Nat} {bs : List Byte} {side : Byte} :
    (s.writeBytes key pa bs side).Wf :=
  .ite hs.touchLines.of_puts <| .ite hs.of_puts hs.of_puts

theorem State.Wf.modFrame {s : State} (hs : s.Wf) {core i : Nat} {f : Frame → Frame} : (s.modFrame core i f).Wf :=
  hs.modCore

theorem State.Wf.setFword {s : State} (hs : s.Wf) {core i k : Nat} {v : Word} {side : Byte} :
    (s.setFword core i k v side).Wf :=
  .ite hs.writeBytes.writeBytes hs.writeBytes

theorem State.Wf.setFwords {s : State} (hs : s.Wf) {core i k : Nat} {side : Byte} {l : List Word} :
    (s.setFwords core i k side l).Wf := by
  induction l generalizing s k with
  | nil => exact hs
  | cons v l ih => exact ih hs.setFword

theorem State.Wf.pushReady {s : State} (hs : s.Wf) {core : Nat} {r : Ready} : (s.pushReady core r).Wf :=
  hs.modCore

theorem State.Wf.wake {s : State} (hs : s.Wf) {core : Nat} {r : Ready} : (s.wake core r).Wf :=
  .ite hs.modFrame hs.pushReady

theorem State.Wf.wakeAll {s : State} (hs : s.Wf) {core i : Nat} {rs : List Ready} : (s.wakeAll core i rs).Wf :=
  .ite hs <| .ite hs.modFrame (hs.foldl fun _ _ h' => h'.pushReady)

theorem State.Wf.fire {s : State} (hs : s.Wf) {core frame slot : Nat} {w : Word} : (s.fire core frame slot w).Wf :=
  hs.wake

theorem State.Wf.logRec {s : State} (hs : s.Wf) {die : Nat} {r : Rec} : (s.logRec die r).Wf :=
  hs.modDie

theorem State.Wf.logErr {s : State} (hs : s.Wf) {e : ErrInfo} : (s.logErr e).Wf :=
  hs.logRec

theorem State.Wf.setFlag {s : State} (hs : s.Wf) {cluster bit : Nat} : (s.setFlag cluster bit).Wf :=
  .ite hs hs.drawn.modCluster

theorem State.Wf.setHealth {s : State} (hs : s.Wf) {cluster bit : Nat} : (s.setHealth cluster bit).Wf :=
  hs

theorem State.Wf.retireBit {s : State} (hs : s.Wf) {cluster bit : Nat} : (s.retireBit cluster bit).Wf :=
  hs.setHealth.setFlag

theorem State.Wf.retireCore {s : State} (hs : s.Wf) {core : Nat} : (s.retireCore core).Wf :=
  .ite hs.setFlag hs.retireBit

theorem State.Wf.sendTok {s : State} (hs : s.Wf) {core : Nat} {dst : Agent} {m : Msg} : (s.sendTok core dst m).Wf :=
  hs.send

theorem State.Wf.arrive {s : State} (hs : s.Wf) {src : Agent} {tenant : Nat} {h : Handle} {slot amount : Nat} :
    (s.arrive src tenant h slot amount).Wf :=
  .ite hs hs.send

theorem State.Wf.report {s : State} (hs : s.Wf) {src : Agent} {tenant : Nat} {h : Handle} {slot fw : Nat} {w : Word} :
    (s.report src tenant h slot fw w).Wf :=
  .ite hs hs.send

theorem State.Wf.setWork {s : State} (hs : s.Wf) {die i : Nat} {w : Work} : (s.setWork die i w).Wf :=
  hs.modDie

theorem State.Wf.sendWork {s : State} (hs : s.Wf) {src : Agent} {id : Nat} {delta : Int} {status : Nat} :
    (s.sendWork src id delta status).Wf :=
  hs.send

theorem State.Wf.sendLaunch {s : State} (hs : s.Wf) {core id : Nat} {delta : Int} : (s.sendLaunch core id delta).Wf :=
  .ite hs hs.sendWork

theorem State.Wf.sendParent {s : State} (hs : s.Wf) {src : Agent} {level id status : Nat} :
    (s.sendParent src level id status).Wf :=
  .ite hs.sendWork hs

theorem State.Wf.freeNow {s : State} (hs : s.Wf) {core i : Nat} : (s.freeNow core i).Wf :=
  hs.modCore.sendLaunch

theorem State.Wf.freeUnder {s : State} (hs : s.Wf) {core i : Nat} : (s.freeUnder core i).Wf :=
  hs.modCore.sendLaunch

theorem State.Wf.freeFrame {s : State} (hs : s.Wf) {core i : Nat} : (s.freeFrame core i).Wf := by
  unfold State.freeFrame
  split
  · exact hs
  · exact hs.modFrame
  · exact hs.modFrame
  · exact .ite hs.freeUnder hs.freeNow

theorem State.Wf.dropFiring {s : State} (hs : s.Wf) {core i : Nat} : (s.dropFiring core i).Wf :=
  hs.modCore

theorem State.Wf.modTile {s : State} (hs : s.Wf) {core n : Nat} {f : Tile → Tile} : (s.modTile core n f).Wf :=
  hs.modCore

theorem State.Wf.dropRefs {s : State} (hs : s.Wf) {l : List (Nat × Nat)} : (s.dropRefs l).Wf :=
  hs.foldl fun _ _ h' => h'.modTile

theorem State.Wf.modJobs {s : State} (hs : s.Wf) {q : JobQueue} {f : List Job → List Job} : (s.modJobs q f).Wf := by
  unfold State.modJobs
  split
  · exact hs.modCluster
  · exact hs.modCluster
  · exact hs.modDie

theorem State.Wf.withdrawJobs {s : State} (hs : s.Wf) {core frame gen : Nat} : (s.withdrawJobs core frame gen).Wf :=
  hs.modJobs.modJobs.dropRefs

theorem State.Wf.testLater {s : State} (hs : s.Wf) {core frame slot : Nat} : (s.testLater core frame slot).Wf :=
  hs.arrive

theorem State.Wf.updateSlot {s : State} (hs : s.Wf) {core frame slot : Nat} {w : Word} :
    (s.updateSlot core frame slot w).Wf :=
  .ite hs.setFword <| .ite hs.setFword.fire hs.setFword.testLater

theorem State.Wf.faultToken {s : State} (hs : s.Wf) {core : Nat} {r : Rec} {h : Handle} :
    (s.faultToken core r h).Wf := by
  unfold State.faultToken
  split
  · exact hs
  · exact hs.sendTok

theorem State.Wf.dropLaunches {s : State} (hs : s.Wf) {l : List Nat} : (s.dropLaunches l).Wf := by
  induction l generalizing s with
  | nil => exact hs
  | cons id l ih => exact ih (hs.setWork.ite hs)

theorem State.Wf.discardHeld {s : State} (hs : s.Wf) {core : Nat} {f : Firing} : (s.discardHeld core f).Wf :=
  hs.modCore.modJobs.modJobs.dropLaunches

theorem State.Wf.freeHandles {s : State} (hs : s.Wf) {core : Nat} {l : List Handle} : (s.freeHandles core l).Wf := by
  induction l generalizing s with
  | nil => exact hs
  | cons h l ih => exact ih (hs.freeFrame.ite hs)

theorem State.Wf.containFiring {s : State} (hs : s.Wf) {core : Nat} {f : Firing} : (s.containFiring core f).Wf :=
  (hs.discardHeld.dropFiring.freeHandles.mayStep fun h' => h'.freeFrame).mayStep fun h' => h'.setFword.modCore

theorem State.Wf.faultFiring {s : State} (hs : s.Wf) {core : Nat} {f : Firing} {e : ErrInfo} :
    (s.faultFiring core f e).Wf :=
  .ite hs.setFlag.logErr.modCore (hs.containFiring.modCore.setFlag.logErr.unless fun h' => h'.faultToken)

theorem State.Wf.takeFault {s : State} (hs : s.Wf) {core : Nat} {f : Firing} {cls code : Nat} {addr : Option Nat} :
    (s.takeFault core f cls code addr).Wf :=
  hs.faultFiring

theorem State.Wf.refuseAct {s : State} (hs : s.Wf) {x : Ctx} {pc cls code : Nat} {addr : Option (Nat × Bool)} :
    (s.refuseAct x pc cls code addr).Wf :=
  hs.logErr.faultToken

theorem State.Wf.setFiring {s : State} (hs : s.Wf) {f : Firing} : (s.setFiring f).Wf :=
  hs.modCore

theorem State.Wf.advance {s : State} (hs : s.Wf) {held : Bool} {pc : Nat} : (s.advance held pc).Wf := by
  unfold State.advance
  split
  · exact hs
  · exact hs.setFiring

theorem State.Wf.activationLost {s : State} (hs : s.Wf) {core : Nat} {x : Ctx} {r : Rec} {h : Handle} :
    (s.activationLost core x r h).Wf := by
  unfold State.activationLost
  extract_lets
  split
  · exact hs.sendTok
  · exact .ite hs hs.faultToken

theorem State.Wf.takePoison {s : State} (hs : s.Wf) {core : Nat} {f : Firing} {addr : Option Nat} :
    (s.takePoison core f addr).Wf :=
  have hc {e : ErrInfo} : ((s.containFiring core f).modCore core (fun c => c.latch e.toRec)).Wf := hs.containFiring.modCore
  .ite hs.takeFault (hc.withdrawJobs.mayStep fun h' => h'.freeFrame).setFlag.setFlag.logErr.activationLost

theorem State.Wf.applyBody {s : State} (hs : s.Wf) {b : Body} (hb : b.Wf) {held : Bool} {f : Firing} :
    (b.apply held f s).Wf := by
  cases b with
  | done t => exact State.Wf.advance hb
  | bare t => exact State.Wf.advance hb
  | jump pc t => exact State.Wf.advance hb
  | ends t => exact hb
  | trap cls code addr => exact hs.takeFault
  | poison addr => exact hs.takePoison
  | wait => exact hs

theorem State.Wf.issue {s : State} (hs : s.Wf) {held : Bool} {body : Firing → State → Body}
    (hbody : ∀ f, (body f s).Wf) : nextWf (Machine.issue held body s) := by
  unfold Machine.issue
  split
  · exact trivial
  · split
    · exact hs
    · exact .ite hs.takeFault (.ite hs.takeFault (.ite hs (hs.applyBody (hbody _))))

theorem State.Wf.stewardIssue {s : State} (hs : s.Wf) {mnemonic : String} {held : Bool}
    {body : Firing → State → Body} (hbody : ∀ x, (body x s).Wf) : nextWf (stewardIssue mnemonic held body s) :=
  .ite (hs.issue hbody) trivial

theorem State.Wf.hold {s : State} (hs : s.Wf) {f : Firing} {a : Act} : (s.hold f a).Wf :=
  hs.modCore

/-! ### Operand forms -/

theorem State.Wf.onlyFiring {s : State} (hs : s.Wf) {g : Firing → State → Firing} {f : Firing} :
    (onlyFiring g f s).Wf :=
  hs.setFiring

theorem State.Wf.onlyHold {s : State} (hs : s.Wf) {a : Firing → State → Act} {f : Firing} : (onlyHold a f s).Wf :=
  hs.hold

theorem State.Wf.intOp {s : State} (hs : s.Wf) {op : Word → Word → Word} {td ta tb : Temp} :
    nextWf (intOp op td ta tb s) :=
  hs.issue fun _ => hs.onlyFiring

theorem State.Wf.intOp1 {s : State} (hs : s.Wf) {op : Word → Word} {td ta : Temp} : nextWf (intOp1 op td ta s) :=
  hs.issue fun _ => hs.onlyFiring

/-! ### Operations of Machine/Control.lean -/

theorem State.Wf.endFiring {s : State} (hs : s.Wf) {mark : Act} {f : Firing} : (endFiring mark f s).Wf :=
  (State.Wf.ite hs.discardHeld hs.hold).modCore.dropFiring

/-! ### Operations of Machine/Csr.lean -/

theorem State.Wf.csrWrite {s : State} (hs : s.Wf) {core n : Nat} {v v1 : Word} : (s.csrWrite core n v v1).Wf := by
  unfold State.csrWrite
  split
  · exact hs.modCore
  · exact hs.modCore
  · exact hs.modCore
  · exact hs.modCore
  · exact hs.modCore
  · exact hs.modDie
  · exact hs.modDie
  · exact hs

theorem State.Wf.csrDraw {s : State} (hs : s.Wf) {n : Nat} : (s.csrDraw n).Wf :=
  .ite hs hs

theorem State.Wf.csrOp {s : State} (hs : s.Wf) {mnemonic : String} {csr : BitVec 12} {body : Firing → State → Body}
    (hbody : ∀ x, (body x s).Wf) : nextWf (csrOp mnemonic csr body s) :=
  .ite (hs.issue hbody) trivial

/-! ### Operations of Machine/Frames.lean -/

theorem State.Wf.clearFrame {s : State} (hs : s.Wf) {core i : Nat} : (s.clearFrame core i).Wf := by
  unfold State.clearFrame
  extract_lets
  split
  · exact hs.foldl fun _ _ h' => h'.setFword
  · exact memWf_memClear hs

theorem State.Wf.initSlots {s : State} (hs : s.Wf) {core i n : Nat} {w : Word} : (s.initSlots core i n w).Wf :=
  hs.setFwords

theorem State.Wf.allocFrame {s t : State} (hs : s.Wf) {core cls nslot vnode launch i : Nat} {parent : Handle} {iter : Word}
    {hframe : Bool} (e : s.allocFrame core cls nslot vnode launch parent iter hframe = .ok t i) : t.Wf := by
  unfold State.allocFrame at e
  extract_lets at e
  split at e
  · cases e
  · split at e <;> cases e
    · exact hs.modFrame.clearFrame
    · exact hs.modFrame.clearFrame

theorem State.Wf.execFalloc {s : State} (hs : s.Wf) {td ta : Temp} : nextWf (execFalloc td ta s) := by
  refine hs.issue fun _ => .ite trivial ?_
  split
  · exact hs.setFiring
  · exact trivial
  next e =>
    have h1 := hs.allocFrame e
    exact (State.Wf.ite h1.initSlots h1.initSlots.updateSlot).sendLaunch.setFiring

theorem Body.Wf.slotBody {s : State} {n : Slot} {b : Firing → State → Body} {f : Firing}
    (hb : ∀ x, (b x s).Wf) : (Machine.slotBody n b f s).Wf :=
  .ite trivial (hb ..)

/-! ### Operations of Machine/Translate.lean -/

theorem State.Wf.fillWalk {s : State} (hs : s.Wf) {die asid : Nat} {va : Word} : (s.fillWalk die asid va).Wf :=
  hs.modDie

theorem State.Wf.markPte {s : State} (hs : s.Wf) {entry : Nat} {pte : Word} {wr : Bool} :
    (s.markPte entry pte wr).1.Wf :=
  State.Wf.ite hs.touchPlain hs.touchPlain.of_puts

theorem State.Wf.walkTouch {s : State} (hs : s.Wf) {die asid : Nat} {va : Word} : (s.walkTouch die asid va).Wf :=
  hs.foldl fun _ _ h' => h'.touchPlain

theorem State.Wf.markPage {s : State} (hs : s.Wf) {die asid : Nat} {wr : Bool} {va : Word} :
    (s.markPage die asid wr va).Wf := by
  unfold State.markPage
  split
  · exact hs.walkTouch.markPte
  · exact hs

theorem State.Wf.touchVirt {s : State} (hs : s.Wf) {die asid : Nat} {va : Word} {n : Nat} :
    (s.touchVirt die asid va n).Wf :=
  hs.foldl fun _ _ h' => (by
    split
    · exact h'.markPage.touchLines
    · exact h')

theorem State.Wf.writeVirt {s : State} (hs : s.Wf) {die asid : Nat} {va : Word} {l : List Byte} :
    (s.writeVirt die asid va l).Wf := by
  induction l generalizing s va with
  | nil => exact hs
  | cons b l ih =>
    unfold State.writeVirt
    split
    · exact ih hs.markPage.writeBytes
    · exact ih hs

/-! ### Operations of Machine/Tokens.lean -/

theorem State.Wf.sendBody {s : State} (hs : s.Wf) {sig : Bool} {th : Temp} {a : Firing → Handle → Act} {f : Firing} :
    (sendBody sig th a f s).Wf :=
  .ite hs.hold trivial

theorem Body.Wf.readBody {s : State} {vec : Bool} {p : Port} {g : Firing → Token → State → State}
    {f : Firing} (hg : ∀ x y, (g x y s).Wf) : (Machine.readBody vec p g f s).Wf := by
  unfold Machine.readBody
  refine .ite trivial ?_
  split
  · exact trivial
  · exact .ite trivial (hg ..)

theorem State.Wf.execChpeek {s : State} (hs : s.Wf) {vec : Bool} {td : Temp} {p : Port} : nextWf (execChpeek vec td p s) := by
  unfold Machine.execChpeek
  split
  · exact hs.issue fun _ => .readBody fun _ _ => hs.setFiring
  · exact hs.issue fun _ => .ite hs.setFiring trivial

theorem State.Wf.outBody {s : State} (hs : s.Wf) {p : Port} {ok : Rec → Firing → Bool} {a : Firing → Act}
    {f : Firing} : (outBody p ok a f s).Wf :=
  .ite hs.hold trivial

theorem State.Wf.execLaunch {s : State} (hs : s.Wf) {td ta : Temp} : nextWf (execLaunch td ta s) := by
  refine hs.issue fun _ => .ite trivial ?_
  split
  · exact hs.setFiring
  · exact hs.setWork.setFiring.hold

/-! ### Operations of Machine/Vector.lean -/

theorem State.Wf.varith {s : State} (hs : s.Wf) {ty : FType} {rm : Rnd} {td ta tb tc : Temp}
    {op : Fmt → Rnd → Num → Num → Num → Nat × Byte} : nextWf (varith ty rm td ta tb tc op s) :=
  hs.issue fun _ => hs.onlyFiring

theorem State.Wf.vint {s : State} (hs : s.Wf) {ty : IType} {td ta tb : Temp} {op : Nat → Nat → Nat × Byte} :
    nextWf (vint ty td ta tb op s) :=
  hs.issue fun _ => hs.onlyFiring

/-! ### Operations of Machine/Engines.lean -/

theorem State.Wf.pressCommand {s : State} (hs : s.Wf) {td ta : Temp} {ok : Vec → Bool} {a : Vec → Act} :
    nextWf (pressCommand td ta ok a s) :=
  hs.issue fun _ => .ite hs.setFiring.hold trivial

theorem State.Wf.modJob {s : State} (hs : s.Wf) {q : JobQueue} {id : Nat} {f : Job → Job} : (s.modJob q id f).Wf :=
  hs.modJobs

theorem State.Wf.jobBody {s : State} (hs : s.Wf) {td ta : Temp} {op : JobOp} {copy : Bool}
    {check : Firing → State → Vec → Option Nat} {f : Firing} : (jobBody td ta op copy check f s).Wf := by
  unfold Machine.jobBody
  refine .ite hs.setFiring ?_
  split
  · exact hs.setFiring
  · exact hs.modCore.modJobs.setFiring.hold

theorem State.Wf.execIngs {s : State} (hs : s.Wf) {td ta : Temp} : nextWf (execIngs td ta s) := by
  refine hs.issue fun f => ?_
  change Body.Wf (match ingsCheck s (f.t ta) with | some code => _ | none => _)
  split
  · exact hs.setFiring
  · exact hs.modDie.setFiring.hold

/-! ### Operations of Machine/Memory.lean -/

theorem Body.Wf.addrCheck {s : State} {ok : Body} (hok : ok.Wf) {va : Word} {n alignCode : Nat}
    {banned sync : Bool} : (Machine.addrCheck s va n alignCode banned sync ok).Wf := by
  unfold Machine.addrCheck
  split
  · exact trivial
  · refine .ite trivial ?_
    split
    · exact trivial
    · exact hok

theorem State.Wf.storeBody {s : State} (hs : s.Wf) {kind : AccKind} {banned sync : Bool} {size : MemSize}
    {t tb : Temp} {off : BitVec 14} {k : Firing → State → Word → Nat} {f : Firing} :
    (storeBody kind banned sync size t tb off k f s).Wf :=
  .addrCheck (.done hs.hold)

theorem State.Wf.splitBody {s : State} (hs : s.Wf) {kind : AccKind} {banned : Bool} {size : SplitSize} {k : FWord}
    {tb : Temp} {sl : Slot} {f : Firing} : (splitBody kind banned size k tb sl f s).Wf :=
  .ite trivial <| .ite trivial <| .addrCheck (.done hs.hold)

theorem State.Wf.atomic {s : State} (hs : s.Wf) {op : Nat} {wd : AWidth} {scope : Scope} {k : FWord} {tb : Temp}
    {sl : Slot} : nextWf (atomic op wd scope k tb sl s) :=
  hs.issue fun _ => .ite trivial <| .ite trivial <| .addrCheck (.done hs.setFiring.hold)

theorem State.Wf.execLd {s : State} (hs : s.Wf) {size : MemSize} {t tb : Temp} {off : BitVec 14} :
    nextWf (execLd size t tb off s) := by
  refine hs.issue fun _ => .ite (.addrCheck ?_) trivial
  exact .ite trivial <| .ite (.ite trivial hs.drawn.setFiring) (.ite trivial hs.setFiring)

/-! ### Operations of Machine/Route.lean -/

theorem State.Wf.kerfDrop {s : State} (hs : s.Wf) {link : Nat × Nat} {cls src dst tenant : Nat} :
    (s.kerfDrop link cls src dst tenant).Wf :=
  .ite hs.setFlag.modDie.logRec hs.setFlag.modDie

theorem State.Wf.noRouteNote {s : State} (hs : s.Wf) {src : Agent} {router tenant : Nat} :
    (s.noRouteNote src router tenant).Wf :=
  .ite hs hs.of_mem.logErr

/-! ### Operations of Machine/Dataflow.lean -/

theorem State.Wf.modChan {s : State} (hs : s.Wf) {core i : Nat} {f : Chan → Chan} : (s.modChan core i f).Wf :=
  hs.modCore

theorem State.Wf.giveCredit {s : State} (hs : s.Wf) {core : Nat} {ch : Chan} {units : Int} :
    (s.giveCredit core ch units).Wf :=
  .ite hs hs.send

theorem State.Wf.sinkMark {s : State} (hs : s.Wf) {core vnode port : Nat} {t : Token} :
    (s.sinkMark core vnode port t).Wf := by
  unfold State.sinkMark
  extract_lets
  split
  · exact .ite hs.modCore.modCore.sendParent hs.modCore
  · exact .ite hs hs.modCore
  · exact hs

theorem State.Wf.consume {s : State} (hs : s.Wf) {core vnode port n : Nat} : (s.consume core vnode port n).Wf := by
  unfold State.consume
  split
  · exact hs
  · exact .ite (hs.modChan.giveCredit.foldl fun _ _ h' => h'.sinkMark) hs.modChan.giveCredit

theorem State.Wf.emit {s : State} (hs : s.Wf) {core : Nat} {d : Rec} {p : Nat} {t : Token} :
    (s.emit core d p t).Wf := by
  unfold State.emit
  split
  · exact hs
  · exact hs.sendTok

theorem State.Wf.nodeSend {s : State} (hs : s.Wf) {core vnode p : Nat} {t : Token} : (s.nodeSend core vnode p t).Wf :=
  .ite hs.logErr hs.modCore.emit

theorem State.Wf.sendMarkers {s : State} (hs : s.Wf) {core vnode : Nat} {k : TokKind} {ports : List Nat} :
    (s.sendMarkers core vnode k ports).Wf :=
  hs.foldl fun _ _ h' => h'.nodeSend

theorem State.Wf.fireReserved {s : State} (hs : s.Wf) {core i j entry prio : Nat} {ins : List (Nat × Nat)}
    {outs : Tab Nat} : (s.fireReserved core i j entry prio ins outs).Wf :=
  hs.modCore.pushReady

theorem State.Wf.markerRule {s : State} (hs : s.Wf) {core i j : Nat} {w : Word} {ins outs : List Nat} :
    (s.markerRule core i j w ins outs).Wf :=
  .ite (.ite (hs.foldl fun _ _ h' => h'.consume).sendMarkers hs) hs.fireReserved

theorem State.Wf.streamTest {s : State} (hs : s.Wf) {core i j : Nat} {w : Word} : (s.streamTest core i j w).Wf :=
  .ite (.ite hs.markerRule hs) <| .ite hs.fireReserved hs

theorem State.Wf.matchDrop {s : State} (hs : s.Wf) {core v p : Nat} {t : Token} : (s.matchDrop core v p t).Wf :=
  hs.consume.modCore

theorem State.Wf.matchTest {s : State} (hs : s.Wf) {core i j : Nat} {w : Word} : (s.matchTest core i j w).Wf := by
  unfold State.matchTest
  refine .ite hs ?_
  split
  · split
    · exact .ite hs.matchDrop <| .ite hs.matchDrop <| .ite hs.fireReserved hs
    · exact hs.matchDrop
    · exact hs.matchDrop
    · exact hs.markerRule
    · exact hs
  · exact hs

theorem State.Wf.slotTest {s : State} (hs : s.Wf) {core i j : Nat} : (s.slotTest core i j).Wf :=
  .ite (.ite hs.streamTest <| .ite hs.matchTest hs) hs

theorem State.Wf.sinkDrain {s : State} (hs : s.Wf) {core vnode : Nat} : (s.sinkDrain core vnode).Wf :=
  hs.foldl fun _ _ h' => h'.consume

theorem State.Wf.nodeTest {s : State} (hs : s.Wf) {core i : Nat} : (s.nodeTest core i).Wf :=
  .ite (.ite hs.modCore hs) <| .ite hs.sinkDrain <| .ite hs (hs.foldl fun _ _ h' => h'.slotTest)

theorem State.Wf.noteMarks {s : State} (hs : s.Wf) {core : Nat} : (s.noteMarks core).Wf :=
  hs.modCore

theorem State.Wf.testNodes {s : State} (hs : s.Wf) {core n : Nat} : (s.testNodes core n).Wf := by
  induction n generalizing s with
  | zero => exact hs
  | succ n ih =>
    have h1 := hs.foldl (l := ((s.core core).frames.filter (fun e => e.2.static && e.2.state != .free)).map (·.1))
      (f := fun t i => t.nodeTest core i) fun _ _ h' => h'.nodeTest
    exact (ih h1).ite h1

theorem State.Wf.evalCore {s : State} (hs : s.Wf) {core : Nat} : (s.evalCore core).Wf :=
  hs.testNodes.noteMarks

theorem State.Wf.handlerArrival {s : State} (hs : s.Wf) {core i slot k : Nat} {data : Vec} {payload : Nat}
    {side : Byte} {sender : Handle} : (s.handlerArrival core i slot k data payload side sender).Wf := by
  unfold State.handlerArrival
  extract_lets
  split
  next e =>
    have h1 := hs.allocFrame e
    exact h1.initSlots.setFwords.setFword.setFword.sendLaunch.wake
  · exact hs.logErr

theorem State.Wf.applyFrame {s : State} (hs : s.Wf) {core i slot k amount payload : Nat} {data : Vec} {side : Byte}
    {sender : Handle} : (s.applyFrame core i slot k amount payload data side sender).Wf :=
  .ite hs.logErr <| .ite (.ite hs.sendTok hs.modFrame.handlerArrival) <| .ite hs.logErr <|
    hs.setFwords.modFrame.mayStep fun h' => h'.updateSlot

theorem State.Wf.refundToken {s : State} (hs : s.Wf) {core : Nat} {p : Packet} : (s.refundToken core p).Wf := by
  unfold State.refundToken
  split
  · exact hs.send
  · exact hs

theorem State.Wf.dropToken {s : State} (hs : s.Wf) {core : Nat} {p : Packet} : (s.dropToken core p).Wf :=
  (State.Wf.ite hs hs.logErr.modCore).refundToken

theorem State.Wf.lostAgain {s : State} (hs : s.Wf) {core : Nat} {data : Vec} {sender : Handle} :
    (s.lostAgain core data sender).Wf :=
  .ite hs hs.faultToken

theorem State.Wf.discard {s : State} (hs : s.Wf) {k : Nat} {p : Packet} {core : Nat} {dest : FrameDest} :
    (s.discard k p core dest).Wf := by
  unfold State.discard
  split
  · exact hs.dropPkt
  · exact .ite hs hs.dropPkt.logErr

theorem State.Wf.frameTokenArrival {s : State} (hs : s.Wf) {k : Nat} : (frameTokenArrival k s).Wf := by
  unfold Machine.frameTokenArrival
  split
  · exact hs
  · split
    · refine .ite hs.dropPkt.dropToken ?_
      refine .ite hs ?_
      split
      · exact .ite hs.dropPkt.lostAgain hs.discard
      · exact .ite hs.dropPkt.applyFrame hs
    · exact hs

theorem State.Wf.channelTokenArrival {s : State} (hs : s.Wf) {k : Nat} : (channelTokenArrival k s).Wf := by
  unfold Machine.channelTokenArrival
  split
  · exact hs
  · split
    · refine .ite hs.dropPkt.dropToken ?_
      refine .ite hs ?_
      split
      · exact hs.dropPkt.logErr.refundToken
      · exact hs.dropPkt.modChan.modCore.evalCore
    · exact hs

theorem State.Wf.takeCredit {s : State} (hs : s.Wf) {core v port : Nat} {u : Int} :
    (s.takeCredit core v port u).Wf := by
  unfold State.takeCredit
  split
  · exact hs
  · exact hs.modCore.evalCore

theorem State.Wf.addIngCredit {s : State} (hs : s.Wf) {die key : Nat} {u : Int} : (s.addIngCredit die key u).Wf :=
  hs.modDie

theorem State.Wf.creditReturn {s : State} (hs : s.Wf) {k : Nat} : (creditReturn k s).Wf := by
  unfold Machine.creditReturn
  split
  · split
    · exact hs.dropPkt.takeCredit
    · exact hs.dropPkt.addIngCredit
    · exact hs.dropPkt
  · exact hs

theorem State.Wf.voteErr {s : State} (hs : s.Wf) {core v code copy : Nat} : (s.voteErr core v code copy).Wf :=
  hs.logErr

theorem State.Wf.voteSend {s : State} (hs : s.Wf) {core v : Nat} {t : Token} : (s.voteSend core v t).Wf :=
  hs.foldl fun _ _ h' => h'.nodeSend

theorem State.Wf.voteStep {s : State} (hs : s.Wf) {core v : Nat} : (s.voteStep core v).Wf := by
  unfold State.voteStep
  refine .ite hs ?_
  split
  · exact .ite hs.consume.modCore hs.consume.modCore.voteErr
  · refine .ite hs ?_
    split
    · exact .ite hs.consume.consume.modCore.voteSend hs
    · split
      · exact .ite hs.consume.consume.consume.voteSend.voteErr hs
      · exact hs

theorem State.Wf.voteDecision {s : State} (hs : s.Wf) {core v : Nat} : (voteDecision core v s).Wf :=
  .ite hs.voteStep (State.Wf.elim hs.voteStep fun _ => hs.voteStep.modFrame)

/-! ### Operations of Machine/Schedule.lean -/

theorem State.Wf.startFiring {s : State} (hs : s.Wf) {core : Nat} : (s.startFiring core).Wf := by
  unfold State.startFiring
  extract_lets
  split
  · exact hs
  · split
    · exact hs
    · exact hs.of_mem.modCore.modFrame.evalCore

theorem State.Wf.dispatch {s : State} (hs : s.Wf) {core : Nat} : (dispatch core s).Wf :=
  .ite hs.startFiring hs

theorem State.Wf.ageing {s : State} (hs : s.Wf) {o : AgeObject} : (ageing o s).Wf := by
  unfold Machine.ageing
  split
  · exact hs.modCore
  · exact hs.modJobs

theorem State.Wf.debugStop {s : State} (hs : s.Wf) {core : Nat} : (debugStop core s).Wf :=
  hs.modCore

theorem State.Wf.debugStep {s : State} (hs : s.Wf) {core : Nat} : (debugStep core s).Wf :=
  .ite hs.startFiring hs

theorem State.Wf.debugResume {s : State} (hs : s.Wf) {core : Nat} : (debugResume core s).Wf :=
  .ite hs.modCore hs

theorem State.Wf.tryCont {s : State} (hs : s.Wf) {core i : Nat} : (s.tryCont core i).Wf :=
  .ite hs.modFrame.wake hs

theorem State.Wf.settle {s : State} (hs : s.Wf) {x : Ctx} {f : Frame → Frame} : (s.settle x f).Wf :=
  .ite hs.modFrame.tryCont hs

theorem State.Wf.areaDesc {s t : State} (hs : s.Wf) {core v : Nat} {d : Rec} (e : s.areaDesc core v = some (d, t)) : t.Wf := by
  unfold State.areaDesc at e
  extract_lets at e
  split at e
  · cases e; exact hs.touchVirt
  · simp only [Option.map_eq_some_iff, Prod.mk.injEq] at e
    obtain ⟨_, _, _, rfl⟩ := e
    exact hs

theorem State.Wf.descriptorFetchComplete {s : State} (hs : s.Wf) {core v : Nat} :
    (descriptorFetchComplete core v s).Wf := by
  unfold Machine.descriptorFetchComplete
  extract_lets c k found
  split
  next d t c1 _ e _ =>
    have ht : t.Wf := by
      unfold found at e
      split at e
      · cases e; exact hs
      · exact hs.areaDesc e
    exact ht.setCore.modCluster.evalCore
  · exact hs

theorem State.Wf.modGen {s : State} (hs : s.Wf) {core g : Nat} {f : Gen → Gen} : (s.modGen core g f).Wf :=
  hs.modCore

theorem State.Wf.genSend {s : State} (hs : s.Wf) {core v : Nat} {t : Token} : (s.genSend core v t).Wf :=
  hs.foldl fun _ _ h' => h'.nodeSend

theorem State.Wf.generatorEmit {s : State} (hs : s.Wf) {core n : Nat} : (generatorEmit core n s).Wf := by
  unfold Machine.generatorEmit
  refine .ite hs ?_
  refine .ite (.ite hs.modCore hs) ?_
  refine .ite (.ite hs.modGen.genSend hs) ?_
  refine .ite hs ?_
  refine .ite (.ite hs.modGen.genSend hs) ?_
  split
  · refine .ite ?_ hs.modGen
    split
    · exact .ite hs.consume.modGen hs
    · exact hs
  · exact .ite hs.modGen.genSend hs

theorem State.Wf.lgenArrival {s : State} (hs : s.Wf) {k : Nat} : (lgenArrival k s).Wf := by
  unfold Machine.lgenArrival
  split
  · exact .ite hs.dropPkt.refuseAct hs.dropPkt.modGen.modCore
  · exact hs

theorem State.Wf.reconfigRelocation {s : State} (hs : s.Wf) {core i : Nat} : (reconfigRelocation core i s).Wf := by
  unfold Machine.reconfigRelocation
  extract_lets
  split
  · exact hs
  · refine .ite hs ?_
    refine .ite hs.modChan ?_
    refine State.Wf.evalCore ?_
    refine State.Wf.giveCredit ?_
    refine State.Wf.modChan ?_
    split
    · exact hs.modChan
    · exact hs.modCore.modChan

theorem State.Wf.checkpointPass {s : State} (hs : s.Wf) {core v : Nat} : (checkpointPass core v s).Wf :=
  .ite (hs.foldl fun _ _ h' => h'.consume).sendMarkers.modCore.evalCore hs

theorem State.Wf.injectStart {s : State} (hs : s.Wf) {core : Nat} {ch : Chan} : (s.injectStart core ch).Wf :=
  hs.send

theorem State.Wf.injectCore {s : State} (hs : s.Wf) {core : Nat} : (s.injectCore core).Wf :=
  (hs.foldl fun _ _ h' => State.Wf.ite h'.injectStart h').foldl fun _ _ h' => h'.modCore

theorem State.Wf.checkpointInjection {s : State} (hs : s.Wf) {asid : Nat} : (checkpointInjection asid s).Wf := by
  unfold Machine.checkpointInjection
  dsimp only
  split
  · exact hs
  · exact .ite hs (hs.of_mem.foldl fun _ _ h' => h'.injectCore)

/-! ### Operations of Machine/Work.lean -/

theorem State.Wf.workToken {s : State} (hs : s.Wf) {die : Nat} {w : Work} {status : Nat} :
    (s.workToken die w status).Wf :=
  .ite hs hs.send

theorem State.Wf.emitOut {s : State} (hs : s.Wf) {o : Out} : (s.emitOut o).Wf :=
  hs

theorem State.Wf.cancelEntry {s : State} (hs : s.Wf) {die i status : Nat} : (s.cancelEntry die i status).Wf :=
  .ite hs.setWork hs

theorem State.Wf.cancelLevel {s : State} (hs : s.Wf) {die i : Nat} {contain : Bool} :
    (s.cancelLevel die i contain).Wf :=
  .ite hs ((hs.foldl fun _ _ h' => h'.cancelEntry).cancelEntry.setWork.foldl fun _ _ h' => h'.send)

theorem State.Wf.replyTo {s : State} (hs : s.Wf) {sub : Nat × Vec} {code status id : Nat} :
    (s.replyTo sub code status id).Wf :=
  hs.emitOut

theorem State.Wf.openImage {s : State} (hs : s.Wf) {die i : Nat} : (s.openImage die i).Wf := by
  unfold State.openImage
  extract_lets
  split
  · exact hs.touchPlains
  · exact hs.touchPlains.logErr.cancelLevel

theorem State.Wf.takeJob {s : State} (hs : s.Wf) {die : Nat} : (s.takeJob die).Wf := by
  unfold State.takeJob
  split
  · exact hs
  · extract_lets
    split
    · exact .ite ((hs.setWork.foldl fun _ _ h' => h'.setWork).of_mem.foldl
        fun _ _ h' => h'.loadKey).replyTo.openImage hs
    · exact hs

theorem State.Wf.freeWorks {s : State} (hs : s.Wf) {l : List (Nat × Nat)} : (s.freeWorks l).Wf :=
  hs.foldl fun _ _ h' => h'.setWork

theorem State.Wf.nextImage {s : State} (hs : s.Wf) {die i : Nat} : (s.nextImage die i).Wf :=
  .ite hs.setWork.openImage hs

theorem State.Wf.finishJob {s : State} (hs : s.Wf) {die i status : Nat} : (s.finishJob die i status).Wf :=
  hs.replyTo.freeWorks.of_mem.sendWork

theorem State.Wf.finishWork {s : State} (hs : s.Wf) {die i status : Nat} : (s.finishWork die i status).Wf := by
  unfold State.finishWork
  extract_lets
  split
  · exact hs.setWork.workToken.sendParent
  · exact hs.setWork.workToken.finishJob
  · exact (State.Wf.ite hs.setWork.workToken.nextImage hs.setWork.workToken).sendParent
  · exact hs.setWork.workToken.sendParent

theorem State.Wf.freeJob {s : State} (hs : s.Wf) {die i : Nat} : (s.freeJob die i).Wf :=
  hs.setWork.takeJob

theorem State.Wf.cancelPhases {s : State} (hs : s.Wf) {die i : Nat} : (s.cancelPhases die i).Wf :=
  hs.foldl fun _ _ h' => h'.finishWork

theorem State.Wf.workCounterUpdate {s : State} (hs : s.Wf) {k : Nat} : (workCounterUpdate k s).Wf := by
  unfold Machine.workCounterUpdate
  split
  · exact .ite hs.dropPkt.freeJob <| .ite hs.dropPkt <|
      (hs.dropPkt.setWork.mayStep fun h' => h'.cancelPhases).mayStep fun h' => h'.finishWork
  · exact hs

theorem State.Wf.copyImage {s : State} (hs : s.Wf) {core i ofs : Nat} : (s.copyImage core i ofs).Wf :=
  hs.foldl fun _ _ h' => h'.setFword

theorem State.Wf.fireFresh {s : State} (hs : s.Wf) {core i : Nat} : (s.fireFresh core i).Wf :=
  (hs.foldl fun _ _ h' => h'.setFword).wakeAll

theorem State.Wf.launchFail {s : State} (hs : s.Wf) {core code : Nat} {d : Vec} {id : Nat} :
    (s.launchFail core code d id).Wf :=
  hs.logErr

theorem State.Wf.setPkt {s : State} (hs : s.Wf) {k : Nat} {p : Packet} : (s.setPkt k p).Wf :=
  hs

theorem State.Wf.launchAtTarget {s : State} (hs : s.Wf) {k : Nat} : (launchAtTarget k s).Wf := by
  unfold Machine.launchAtTarget
  split
  · exact hs
  · split
    · refine .ite hs.dropPkt ?_
      refine .ite hs.dropPkt.dropToken ?_
      refine .ite hs ?_
      split
      · exact hs.dropPkt.launchFail
      · exact hs.dropPkt.launchFail
      next e =>
        have h1 := hs.allocFrame e
        exact .ite hs <| .ite (State.Wf.ite h1.initSlots h1.copyImage).fireFresh.setPkt
          (State.Wf.ite h1.initSlots h1.copyImage).fireFresh.dropPkt
    · exact hs

theorem State.Wf.cancel {s : State} (hs : s.Wf) {x : Ctx} {pc id : Nat} : (s.cancel x pc id).Wf :=
  .ite (.ite hs.cancelLevel hs) hs.refuseAct

theorem State.Wf.purgeFrame {s : State} (hs : s.Wf) {core i : Nat} : (s.purgeFrame core i).Wf :=
  hs.withdrawJobs.modCore.freeFrame

theorem State.Wf.purge {s : State} (hs : s.Wf) {k : Nat} : (purge k s).Wf := by
  unfold Machine.purge
  split
  · exact (hs.dropPkt.foldl fun _ _ h' => h'.purgeFrame).send
  · exact hs

theorem State.Wf.purgeAcknowledgement {s : State} (hs : s.Wf) {die i : Nat} : (purgeAcknowledgement die i s).Wf :=
  .ite (hs.of_mem.foldl fun _ _ h' => State.Wf.ite h'.finishWork h').finishWork hs

theorem State.Wf.jobSubmission {s : State} (hs : s.Wf) {die src : Nat} {d : Vec} : (jobSubmission die src d s).Wf :=
  .ite hs <| .ite hs.replyTo <| .ite hs.replyTo hs.of_mem.takeJob

/-! ### Operations of Machine/Spill.lean -/

theorem State.Wf.putWords {s : State} (hs : s.Wf) {core i k : Nat} {l : List (Word × Byte)} :
    (s.putWords core i k l).Wf := by
  induction l generalizing s k with
  | nil => exact hs
  | cons w l ih => exact ih hs.setFword

theorem State.Wf.loseFrame {s : State} (hs : s.Wf) {core i slot : Nat} : (s.loseFrame core i slot).Wf :=
  hs.purgeFrame.setFlag.logErr.activationLost

theorem State.Wf.evict {s : State} (hs : s.Wf) {core i : Nat} : (s.evict core i).Wf := by
  unfold State.evict
  split
  · exact hs.modFrame
  · exact hs

theorem State.Wf.writeBackComplete {s : State} (hs : s.Wf) {core i : Nat} : (writeBackComplete core i s).Wf :=
  .ite hs <| .ite hs.freeNow hs.modFrame.putWords.tryCont

theorem State.Wf.fillBackStart {s : State} (hs : s.Wf) {core i : Nat} {victim : Option Nat} :
    (fillBackStart core i victim s).Wf := by
  unfold Machine.fillBackStart
  refine .ite hs ?_
  split
  · exact hs.modFrame
  · exact hs.evict
  · exact hs

theorem State.Wf.touchBody {s : State} (hs : s.Wf) {core i : Nat} : (s.touchBody core i).Wf :=
  .ite hs.touchLines.touchLines hs

theorem State.Wf.fillBackComplete {s : State} (hs : s.Wf) {core i : Nat} : (fillBackComplete core i s).Wf := by
  unfold Machine.fillBackComplete
  refine .ite hs ?_
  refine .ite hs.freeNow ?_
  extract_lets
  split
  · exact hs.modFrame.touchBody.loseFrame
  · exact hs
  · exact .ite hs (hs.modFrame.touchBody.modFrame.putWords.foldl fun _ _ h' => h'.pushReady)

theorem State.Wf.spilledArrival {s : State} (hs : s.Wf) {k : Nat} : (spilledArrival k s).Wf := by
  unfold Machine.spilledArrival
  split
  · exact hs
  · split
    · split
      · exact hs
      · exact .ite (.ite hs.dropPkt.loseFrame hs.dropPkt.applyFrame) hs
    · exact hs

theorem State.Wf.refuseToken {s : State} (hs : s.Wf) {from_ : Agent} {p : Packet} : (s.refuseToken from_ p).Wf := by
  unfold State.refuseToken
  split
  · exact hs.send
  · exact hs

theorem State.Wf.dropForeign {s : State} (hs : s.Wf) {k : Nat} {p : Packet} {core code : Nat} {rep : Bool} :
    (s.dropForeign k p core code rep).Wf :=
  .ite hs.dropPkt.refuseToken.logErr hs.dropPkt.refuseToken

theorem State.Wf.spillRingAppend {s : State} (hs : s.Wf) {k : Nat} : (spillRingAppend k s).Wf := by
  unfold Machine.spillRingAppend
  split
  · exact hs
  · split
    · refine .ite hs ?_
      split
      · exact hs.dropForeign
      · refine .ite hs ?_
        split
        · exact hs
        · exact .ite hs.touchVirt.writeVirt.dropForeign.modDie <| .ite hs hs.touchVirt.dropPkt.writeVirt.writeVirt
    · exact hs

theorem State.Wf.drainTimeout {s : State} (hs : s.Wf) {asid : Nat} : (drainTimeout asid s).Wf := by
  unfold Machine.drainTimeout
  split
  · exact hs
  · exact .ite hs hs.of_mem.logErr.cancelLevel

/-! ### Operations of Machine/Requests.lean -/

theorem State.Wf.modUnack {s : State} (hs : s.Wf) {core : Nat} {f : Unack → Unack} : (s.modUnack core f).Wf :=
  hs.modCore

theorem State.Wf.lowerStore {s : State} (hs : s.Wf) {r : Req} : (s.lowerStore r).Wf :=
  .ite hs.modUnack.settle hs.modUnack

theorem State.Wf.lowerLoad {s : State} (hs : s.Wf) {r : Req} : (s.lowerLoad r).Wf :=
  hs.modUnack.settle

theorem State.Wf.sendReq {s : State} (hs : s.Wf) {r : Req} : (s.sendReq r).Wf :=
  hs.send

theorem State.Wf.sendResp {s : State} (hs : s.Wf) {src : Agent} {r : Req} {m : Msg} : (s.sendResp src r m).Wf :=
  hs.send

theorem State.Wf.completeAt {s : State} (hs : s.Wf) {x : Ctx} {k slot : Nat} {ws : List (Word × Byte)} :
    (s.completeAt x k slot ws).Wf :=
  .ite hs <| .ite hs.loseFrame hs.putWords.applyFrame

theorem State.Wf.partDone {s : State} (hs : s.Wf) {r : Req} {bytes sides : List Byte} {bad : Bool} :
    (s.partDone r bytes sides bad).Wf := by
  unfold State.partDone
  split
  · exact hs
  · exact .ite hs.modCore.completeAt.lowerLoad hs.modCore

theorem State.Wf.endRefused {s : State} (hs : s.Wf) {r : Req} : (s.endRefused r).Wf := by
  unfold State.endRefused
  split
  · exact hs.sendResp
  · exact hs.sendResp
  · exact hs.sendResp
  · exact hs.lowerStore

theorem State.Wf.refuseReq {s : State} (hs : s.Wf) {r : Req} {cls code : Nat} : (s.refuseReq r cls code).Wf :=
  hs.refuseAct.endRefused

theorem State.Wf.roPart {s : State} (hs : s.Wf) {r : Req} : (s.roPart r).Wf := by
  unfold State.roPart
  extract_lets
  split
  · exact hs.sendResp
  · exact hs.sendReq

theorem State.Wf.pendLoad {s : State} (hs : s.Wf) {r : Req} {parts : Nat} : (s.pendLoad r parts).Wf :=
  hs.modCore

theorem State.Wf.depart {s : State} (hs : s.Wf) {r : Req} : (s.depart r).Wf := by
  unfold State.depart
  split
  · exact hs.pendLoad.foldl fun _ _ h' => h'.sendReq
  · exact hs.pendLoad.foldl fun _ _ h' => h'.roPart
  · exact hs.sendReq

theorem State.Wf.locatedOne {s : State} (hs : s.Wf) {r : Req} {pa key pb : Nat} : (s.locatedOne r pa key pb).Wf :=
  hs.modUnack.depart

theorem State.Wf.meetLeafWith {s : State} (hs : s.Wf) {f : State → Req → Nat → Nat → Nat → State} {r : Req}
    {pte : Word} {big : Bool} (hf : ∀ x y z u, (f s x y z u).Wf) : (State.meetLeafWith f s r pte big).Wf := by
  unfold State.meetLeafWith
  split
  · exact hs.refuseReq
  · exact (hf ..)

theorem State.Wf.fillTlbs {s : State} (hs : s.Wf) {core asid : Nat} {va pte : Word} {big : Bool} :
    (s.fillTlbs core asid va pte big).Wf :=
  hs.modCluster.modCore

theorem State.Wf.park {s : State} (hs : s.Wf) {cluster : Nat} {x : XReq} {level : Nat} :
    (s.park cluster x level).Wf :=
  .ite hs.modCluster.setFlag.modCluster.setFlag hs.modCluster.setFlag

theorem State.Wf.raise {s : State} (hs : s.Wf) {r : Req} : (s.raise r).Wf :=
  .ite hs.modUnack.modFrame hs.modUnack

theorem State.Wf.selfReqWith {s : State} (hs : s.Wf) {f : State → Req → Nat → Nat → Nat → State} {r : Req}
    (hf : ∀ x y z u, (f s x y z u).Wf) : (State.selfReqWith f s r).Wf := by
  unfold State.selfReqWith
  exact .ite (hf ..) hs.refuseReq

theorem State.Wf.enterWith {s : State} (hs : s.Wf) {f : State → Req → Nat → Nat → Nat → State} {r : Req}
    (hf : ∀ x y z u, (f s x y z u).Wf) : (State.enterWith f s r).Wf := by
  unfold State.enterWith
  refine .ite (hs.selfReqWith hf) ?_
  split
  · exact .ite hs.modCluster (hs.meetLeafWith hf)
  · exact hs.modCluster

theorem State.Wf.located {s : State} (hs : s.Wf) {r : Req} {pa key pb : Nat} : (s.located r pa key pb).Wf :=
  .ite (hs.locatedOne.enterWith (fun _ _ _ _ => hs.locatedOne.locatedOne)) hs.locatedOne.modUnack

theorem State.Wf.meetLeaf {s : State} (hs : s.Wf) {r : Req} {pte : Word} {big : Bool} : (s.meetLeaf r pte big).Wf :=
  hs.meetLeafWith fun _ _ _ _ => hs.located

theorem State.Wf.walkReq {s : State} (hs : s.Wf) {r : Req} : (s.walkReq r).Wf := by
  unfold State.walkReq
  extract_lets
  split
  · exact hs.walkTouch.park
  · exact hs.walkTouch.refuseReq
  · split
    · exact hs.walkTouch.refuseReq
    · exact hs.walkTouch.markPte.fillWalk.fillTlbs.meetLeaf

theorem State.Wf.walkCompletion {s : State} (hs : s.Wf) {cluster n : Nat} : (walkCompletion cluster n s).Wf := by
  unfold Machine.walkCompletion
  extract_lets
  split
  · refine .ite hs ?_
    refine .ite hs.modCluster.park ?_
    split
    · exact hs.modCluster.fillTlbs.meetLeaf
    · exact hs.modCluster.walkReq
  · exact hs

theorem State.Wf.releaseReq {s : State} (hs : s.Wf) {r : Req} : optWf (s.releaseReq r) :=
  .ite trivial (hs.of_mem.raise.enterWith (fun _ _ _ _ => hs.of_mem.raise.located))

theorem State.Wf.loadCompletion {s : State} (hs : s.Wf) {k : Nat} : (loadCompletion k s).Wf := by
  unfold Machine.loadCompletion
  split
  · exact .ite hs.dropPkt.modCluster.partDone hs
  · exact hs

theorem State.Wf.atomicDone {s : State} (hs : s.Wf) {r : Req} {old : Word} {side : Byte} :
    (s.atomicDone r old side).Wf :=
  hs.completeAt.lowerLoad.lowerStore.modCore

theorem State.Wf.atomicCompletion {s : State} (hs : s.Wf) {k : Nat} : (atomicCompletion k s).Wf := by
  unfold Machine.atomicCompletion
  split
  · exact .ite hs.dropPkt.atomicDone hs
  · exact hs

theorem State.Wf.storeAcknowledgement {s : State} (hs : s.Wf) {k : Nat} : (storeAcknowledgement k s).Wf := by
  unfold Machine.storeAcknowledgement
  split
  · exact hs.dropPkt.lowerStore
  · exact hs

theorem State.Wf.postWrite {s : State} (hs : s.Wf) {pa : Nat} {bs : List Byte} : (s.postWrite pa bs).Wf :=
  hs.emitOut

theorem State.Wf.postRead {s : State} (hs : s.Wf) {pa n : Nat} : (s.postRead pa n).Wf :=
  hs.emitOut

theorem State.Wf.hostPerforms {s : State} (hs : s.Wf) {m : Msg} {data : List Byte} : (s.hostPerforms m data).Wf := by
  unfold State.hostPerforms
  extract_lets
  split
  · exact .ite hs.postRead.sendResp hs.postWrite.sendResp
  · exact hs.postRead.modJob
  · exact hs.postWrite.modJob
  · exact hs

theorem State.Wf.hostResponse {s : State} (hs : s.Wf) {k : Nat} {data : List Byte} : (hostResponse k data s).Wf := by
  unfold Machine.hostResponse
  split
  · split
    · exact .ite hs.dropPkt.hostPerforms hs
    · exact hs
  · exact hs

theorem State.Wf.recordRefusal {s : State} (hs : s.Wf) {r : Req} {cls code : Nat} : (s.recordRefusal r cls code).Wf :=
  .ite hs hs.logErr.faultToken

theorem State.Wf.refusalAcknowledgement {s : State} (hs : s.Wf) {k : Nat} : (refusalAcknowledgement k s).Wf := by
  unfold Machine.refusalAcknowledgement
  split
  · split
    · exact hs.dropPkt.takeCredit
    · exact hs.dropPkt.addIngCredit
    · exact hs.dropPkt
  · extract_lets
    split
    · exact .ite (.ite (hs.dropPkt.unless fun h' => h'.recordRefusal).partDone
        (hs.dropPkt.unless fun h' => h'.recordRefusal).pendLoad.partDone) hs
    · exact .ite (.ite (hs.dropPkt.unless fun h' => h'.recordRefusal).partDone
        (hs.dropPkt.unless fun h' => h'.recordRefusal).pendLoad.partDone) hs
    · exact .ite (State.Wf.ite hs.dropPkt hs.dropPkt.recordRefusal).atomicDone hs
    · exact (State.Wf.ite hs.dropPkt hs.dropPkt.recordRefusal).lowerStore
  · exact hs

/-! ### Operations of Machine/Sources.lean -/

theorem State.Wf.dropReport {s : State} (hs : s.Wf) {core asid : Nat} {src : Agent} {pas : List Nat} :
    (s.dropReport core asid src pas).Wf := by
  unfold State.dropReport
  split
  · exact hs.kerfDrop
  · split
    · exact hs.noRouteNote
    · exact hs

theorem State.Wf.touchPage {s : State} (hs : s.Wf) {core asid : Nat} {wr : Bool} {va : Word} :
    (s.touchPage core asid wr va).Wf :=
  .ite hs hs.markPage

theorem State.Wf.touchSpan {s : State} (hs : s.Wf) {core asid : Nat} {e : Word × Nat} :
    (s.touchSpan core asid e).Wf := by
  unfold State.touchSpan
  split
  · exact hs.touchPage.touchLines
  · exact hs.touchPage

theorem State.Wf.touchRange {s : State} (hs : s.Wf) {core asid : Nat} {va : Word} {n : Nat} :
    (s.touchRange core asid va n).Wf :=
  hs.drawn.foldl fun _ _ h' => h'.touchSpan

theorem State.Wf.writeEngine {s : State} (hs : s.Wf) {key pa : Nat} {bs : List (Byte × Byte)} :
    (s.writeEngine key pa bs).Wf := by
  unfold State.writeEngine
  split
  · exact hs.emitOut
  · exact hs.foldl fun _ _ h' => h'.writeBytes

theorem State.Wf.copyDone {s : State} (hs : s.Wf) {x : Ctx} : (s.copyDone x).Wf :=
  hs.settle

theorem State.Wf.reportAt {s : State} (hs : s.Wf) {src : Agent} {dev tenant : Nat} {h : Handle} {slot fw : Nat}
    {w : Word} : (s.reportAt src dev tenant h slot fw w).Wf :=
  .ite hs.report <| .ite hs hs.send

theorem State.Wf.putStatus {s : State} (hs : s.Wf) {src : Agent} {c : Chunk} {lo : Nat} {w : Word} :
    (s.putStatus src c lo w).Wf :=
  .ite hs.report.copyDone hs.send

theorem State.Wf.hpStatus {s : State} (hs : s.Wf) {src : Agent} {c : Chunk} {status rho : Nat} :
    (s.hpStatus src c status rho).Wf :=
  hs.putStatus

theorem State.Wf.redStatus {s : State} (hs : s.Wf) {src : Agent} {c : Chunk} {outcome flags use : Nat} :
    (s.redStatus src c outcome flags use).Wf :=
  hs.putStatus

theorem State.Wf.defReport {s : State} (hs : s.Wf) {src : Agent} {tenant code members : Nat} {h : Handle}
    {slot fw : Nat} : (s.defReport src tenant code members h slot fw).Wf :=
  .ite hs hs.send

theorem State.Wf.hpReport {s : State} (hs : s.Wf) {x : Ctx} {d : Vec} {code : Nat} : (s.hpReport x d code).Wf :=
  hs.defReport

theorem State.Wf.dropHoop {s : State} (hs : s.Wf) {ref ways : Nat} : (s.dropHoop ref ways).Wf :=
  hs.modDie

theorem State.Wf.failLags {s : State} (hs : s.Wf) {x : Ctx} {d : Vec} {ways : Nat} : (s.failLags x d ways).Wf :=
  hs.dropHoop.hpReport

theorem State.Wf.dropPut {s : State} (hs : s.Wf) {c : Chunk} : (s.dropPut c).Wf :=
  hs.modCluster

theorem State.Wf.modHoop {s : State} (hs : s.Wf) {ref : Nat} {f : Hoop → Hoop} : (s.modHoop ref f).Wf :=
  .ite hs.modDie hs

theorem State.Wf.modRed {s : State} (hs : s.Wf) {ref : Nat} {f : Reduction → Reduction} : (s.modRed ref f).Wf :=
  .ite hs.modDie hs

theorem State.Wf.failSource {s : State} (hs : s.Wf) {m : Msg} : (s.failSource m).Wf := by
  unfold State.failSource
  split
  · exact (State.Wf.ite hs hs.modHoop).drawn.hpStatus
  · exact hs.dropPut.redStatus
  · exact hs.failLags
  · exact hs

theorem State.Wf.failCopy {s : State} (hs : s.Wf) {q : JobQueue} {id : Nat} {f : JobFault} : (s.failCopy q id f).Wf :=
  hs.modJob

theorem State.Wf.endCopy {s : State} (hs : s.Wf) {q : JobQueue} {id : Nat} {va : Word} : (s.endCopy q id va).Wf :=
  .ite hs.modJob hs.failCopy

theorem State.Wf.forceResult {s : State} (hs : s.Wf) {who : Option Collective} : (s.forceResult who).Wf := by
  unfold State.forceResult
  split
  · exact hs.modHoop
  · exact hs.modRed
  · exact hs

theorem State.Wf.endPublStore {s : State} (hs : s.Wf) {asid : Nat} {va : Word} : (s.endPublStore asid va).Wf :=
  hs

theorem State.Wf.endX {s : State} (hs : s.Wf) {x : XReq} : (s.endX x).Wf := by
  unfold State.endX
  split
  · exact hs.endRefused
  · exact hs.endCopy
  · exact hs.failSource
  · exact hs.forceResult.endPublStore

theorem State.Wf.replayPurge {s : State} (hs : s.Wf) {cluster asid : Nat} : (replayPurge cluster asid s).Wf :=
  hs.modCluster.foldl fun _ _ h' => h'.endX

/-! ### Operations of Machine/Registers.lean -/

theorem State.Wf.winCsrWrite {s : State} (hs : s.Wf) {core n : Nat} {v v1 : Word} :
    (s.winCsrWrite core n v v1).Wf := by
  unfold State.winCsrWrite
  split
  · exact hs.modCore
  · exact hs.modCore
  · exact hs.csrWrite

theorem State.Wf.logAppend {s : State} (hs : s.Wf) {die : Nat} : (logAppend die s).Wf :=
  hs.logRec

theorem State.Wf.monitorClear {s : State} (hs : s.Wf) {u : MonUnit} : (monitorClear u s).Wf := by
  unfold Machine.monitorClear
  split
  · exact hs.modCore
  · exact hs.modCore
  · exact hs.modDie

theorem State.Wf.writeWork {s : State} (hs : s.Wf) {die i : Nat} {v : Word} : (s.writeWork die i v).Wf :=
  .ite hs.sendWork hs.setWork

theorem State.Wf.verifyImage {s : State} (hs : s.Wf) : (verifyImage s).Wf :=
  .ite hs hs

theorem State.Wf.mailWrite {s : State} (hs : s.Wf) {j : Nat} {v v1 : Word} : (s.mailWrite j v v1).Wf := by
  unfold State.mailWrite
  split
  · exact .ite hs.verifyImage hs
  · exact hs
  · exact hs

theorem State.Wf.loadIngest {s0 : State} (hs : s0.Wf) {die : Nat} {cmd : Word} : (s0.loadIngest die cmd).Wf := by
  unfold State.loadIngest
  extract_lets
  split
  · exact hs.touchPlains.modDie
  · exact hs.touchPlains.modDie
  · exact hs.touchPlains.modDie

theorem State.Wf.containWrite {s : State} (hs : s.Wf) {v : Word} : (s.containWrite v).Wf :=
  .ite hs.cancelLevel hs

theorem State.Wf.restoreToken {s : State} (hs : s.Wf) {core i : Nat} {t : Token} : (s.restoreToken core i t).Wf :=
  .ite hs.modChan.modCore.evalCore hs

theorem State.Wf.withPress {s : State} (hs : s.Wf) {core : Nat} {f : Press → Press} : (s.withPress core f).Wf :=
  hs.modCore

theorem State.Wf.restoreRow {s : State} (hs : s.Wf) {core tag place : Nat} {f : RowState → RowState} :
    (s.restoreRow core tag place f).Wf :=
  hs.withPress

theorem State.Wf.ctxWrite {s : State} (hs : s.Wf) {die j : Nat} {v : Word} : (s.ctxWrite die j v).Wf := by
  unfold State.ctxWrite
  extract_lets _ s1
  have h1 : s1.Wf := hs.modDie
  split
  split
  · exact h1
  · exact h1
  · exact h1.restoreToken
  · exact h1.withPress
  · exact h1.restoreRow
  · exact h1.restoreRow
  · exact h1

theorem State.Wf.debugWrite {s : State} (hs : s.Wf) {core : Nat} {v v1 : Word} : (s.debugWrite core v v1).Wf :=
  .ite (State.Wf.ite hs.debugStop hs.debugResume).debugStep <| .ite hs.debugStop hs.debugResume

theorem State.Wf.regWrite {s : State} (hs : s.Wf) {die o : Nat} {v v1 : Word} : (s.regWrite die o v v1).Wf :=
  .ite hs <| .ite hs.modDie <| .ite hs.mailWrite <| .ite hs.modCluster <| .ite hs.modDie <|
    .ite (.ite hs.modDie.logAppend hs.modDie) <| .ite (.ite hs.replayPurge hs) <| .ite hs.debugWrite <|
    .ite hs.modDie <| .ite hs <| .ite hs.modDie <| .ite (.ite hs.writeWork hs.setWork) <| .ite hs.modDie <|
    .ite hs <| .ite (.ite hs.loadKey hs) <| .ite (.ite hs.modDie hs) <|
    .ite (.ite hs.modDie.loadIngest hs.modDie) <| .ite hs.containWrite <| .ite hs.ctxWrite <| .ite hs <| .ite hs hs

theorem State.Wf.writeRegs {s : State} (hs : s.Wf) {die o : Nat} {bs : List Byte} : (s.writeRegs die o bs).Wf :=
  hs.foldl fun _ _ h' => h'.regWrite

theorem State.Wf.writeWin {s : State} (hs : s.Wf) {core o : Nat} {bs : List Byte} : (s.writeWin core o bs).Wf :=
  .ite hs.of_puts.modCore <| .ite (hs.foldl fun _ _ h' => h'.winCsrWrite) hs

theorem State.Wf.registerWrite {s : State} (hs : s.Wf) {die o : Nat} {v : Word} : (registerWrite die o v s).Wf :=
  hs.regWrite

theorem State.Wf.logOverflowClear {s : State} (hs : s.Wf) {die : Nat} : (logOverflowClear die s).Wf :=
  hs.modDie

theorem State.Wf.clusterFlagClear {s : State} (hs : s.Wf) {cluster : Nat} {mask : Word} :
    (clusterFlagClear cluster mask s).Wf :=
  hs.modCluster

/-! ### Operations of Machine/Home.lean -/

theorem State.Wf.homeLoad {s : State} (hs : s.Wf) {r : Req} : (s.homeLoad r).Wf :=
  .ite hs.touchLines.sendResp hs.touchLines.of_mem.sendResp

theorem State.Wf.afterSteward {s : State} (hs : s.Wf) {r : Req} : (s.afterSteward r).Wf := by
  unfold State.afterSteward
  extract_lets
  split
  · exact hs
  · exact .ite hs.modFrame.evalCore hs

theorem State.Wf.homeStore {s : State} (hs : s.Wf) {r : Req} : (s.homeStore r).Wf := by
  unfold State.homeStore
  refine .ite ?_ ?_
  · refine State.Wf.lowerStore ?_
    refine .ite ?_ ?_
    · refine State.Wf.afterSteward ?_
      split
      · exact .ite hs.writeBytes hs.writeWin
      · exact hs.writeRegs
      · exact hs.writeBytes
    · split
      · exact .ite hs.writeBytes hs.writeWin
      · exact hs.writeRegs
      · exact hs.writeBytes
  · refine State.Wf.sendResp ?_
    refine .ite ?_ ?_
    · refine State.Wf.afterSteward ?_
      split
      · exact .ite hs.writeBytes hs.writeWin
      · exact hs.writeRegs
      · exact hs.writeBytes
    · split
      · exact .ite hs.writeBytes hs.writeWin
      · exact hs.writeRegs
      · exact hs.writeBytes

theorem State.Wf.homeAtomic {s : State} (hs : s.Wf) {r : Req} {op : Nat} {x y : Word} : (s.homeAtomic r op x y).Wf :=
  (State.Wf.ite (State.Wf.ite hs.setSide hs.touchLines) hs.writeBytes).sendResp

theorem State.Wf.performAway {s : State} (hs : s.Wf) {r : Req} : (s.performAway r).Wf := by
  unfold State.performAway
  extract_lets
  split
  · exact hs.drawn.sendResp
  · exact hs.drawn.sendResp
  · exact hs.drawn.sendResp
  · exact hs.emitOut.sendResp

theorem State.Wf.perform {s : State} (hs : s.Wf) {r : Req} : (s.perform r).Wf := by
  unfold State.perform
  extract_lets
  split
  · exact hs.sendResp
  · split
    · exact hs.performAway
    · exact hs.homeLoad
    · exact hs.homeLoad
    · exact .ite hs.sendResp hs.homeAtomic
    · exact .ite hs.sendResp hs.homeStore

theorem State.Wf.homeAccess {s : State} (hs : s.Wf) {k : Nat} : (homeAccess k s).Wf := by
  unfold Machine.homeAccess
  split
  · exact .ite hs hs.dropPkt.perform
  · exact hs

/-! ### Operations of Machine/Copy.lean -/

theorem State.Wf.fillTile {s : State} (hs : s.Wf) {core tile ofs : Nat} {bs : List Byte} :
    (s.fillTile core tile ofs bs).Wf :=
  .ite hs hs.modCore.modTile

theorem State.Wf.askHost {s : State} (hs : s.Wf) {q : JobQueue} {j : Job} {pa : Nat} {m : Msg} :
    (s.askHost q j pa m).Wf :=
  hs.modJob.send

theorem State.Wf.copyErr {s : State} (hs : s.Wf) {q : JobQueue} {j : Job} {wr : Bool} {e : XErr} :
    (s.copyErr q j wr e).Wf := by
  unfold State.copyErr
  split
  · exact .ite hs hs.modJob.park
  · exact .ite hs hs.askHost
  · exact (State.Wf.ite hs.dropReport hs).failCopy

theorem State.Wf.copyPut {s : State} (hs : s.Wf) {q : JobQueue} {j : Job} {key pa : Nat} {bs : List (Byte × Byte)} :
    (s.copyPut q j key pa bs).Wf := by
  unfold State.copyPut
  split
  · exact hs.askHost
  · exact hs.writeEngine

theorem State.Wf.touchIndex {s : State} (hs : s.Wf) {j : Job} {r : Nat} : (s.touchIndex j r).Wf :=
  .ite hs.touchRange hs

theorem State.Wf.touchSource {s : State} (hs : s.Wf) {j : Job} {r c n : Nat} : (s.touchSource j r c n).Wf := by
  unfold State.touchSource
  split
  · exact hs
  · exact hs.touchRange.touchIndex

theorem State.Wf.touchFrom {s : State} (hs : s.Wf) {j : Job} {p : Nat} : (s.touchFrom j p).Wf :=
  hs.foldl fun _ _ h' => h'.touchSource

theorem State.Wf.beginRow {s : State} (hs : s.Wf) {q : JobQueue} {j : Job} : (s.beginRow q j).1.Wf := by
  unfold State.beginRow
  extract_lets
  split
  · exact hs
  · split
    · exact hs
    · exact hs.touchIndex.modJob

theorem State.Wf.lineDone {s : State} (hs : s.Wf) {q : JobQueue} {j : Job} {n : Nat} : (s.lineDone q j n).Wf :=
  (State.Wf.ite hs hs.touchSource).modJob

theorem State.Wf.memLine {s : State} (hs : s.Wf) {q : JobQueue} {j : Job} : (s.memLine q j).Wf := by
  unfold State.memLine
  split
  · split
    · exact hs.copyErr
    · split
      · exact hs.copyErr
      · exact .ite hs <| .ite hs.failCopy (hs.foldl fun _ _ h' => h'.copyPut).touchPage.lineDone

theorem State.Wf.tileLine {s : State} (hs : s.Wf) {q : JobQueue} {j : Job} : (s.tileLine q j).Wf := by
  unfold State.tileLine
  split
  · split
    · exact hs.copyErr
    · exact .ite hs.dropReport.failCopy <| .ite (hs.foldl fun _ _ h' => h'.fillTile).failCopy
        (hs.foldl fun _ _ h' => h'.fillTile).lineDone

theorem State.Wf.touchAll {s : State} (hs : s.Wf) {j : Job} : (s.touchAll j).Wf :=
  .ite hs.touchRange hs.touchFrom

theorem State.Wf.prepare {s : State} (hs : s.Wf) {q : JobQueue} {j : Job} : (s.prepare q j).Wf := by
  unfold State.prepare
  split
  · exact hs.copyErr
  · exact hs.touchAll.failCopy
  · exact hs.touchAll.modJob

theorem State.Wf.modRing {s : State} (hs : s.Wf) {cluster n : Nat} {f : Ring → Ring} : (s.modRing cluster n f).Wf :=
  hs.modCluster

theorem State.Wf.readBlock {s : State} (hs : s.Wf) {q : JobQueue} {j : Job} {r : Ring} : (s.readBlock q j r).Wf := by
  unfold State.readBlock
  dsimp only
  split
  · exact hs.copyErr
  · exact hs.copyErr
  · exact hs.touchRange.touchRange.modJob

theorem State.Wf.sendBlock {s : State} (hs : s.Wf) {j : Job} {r : Ring} {isK : Bool} {o n : Nat} :
    (s.sendBlock j r isK o n).Wf :=
  hs.send

theorem State.Wf.blockReport {s : State} (hs : s.Wf) {j : Job} {r : Ring} : (s.blockReport j r).Wf := by
  unfold State.blockReport
  split
  · split
    · exact hs.kerfDrop
    · exact hs.noRouteNote

theorem State.Wf.landIn {s : State} (hs : s.Wf) {at_ : Nat × Nat} {slot : Nat} {tag : Nat × Nat} :
    (s.landIn at_ slot tag).Wf :=
  hs.modRing

theorem State.Wf.waitFills {s : State} (hs : s.Wf) {q : JobQueue} {j : Job} {l : List (Nat × Nat)} :
    (s.waitFills q j l).Wf :=
  hs.dropRefs.modJob

theorem State.Wf.takeFill {s : State} (hs : s.Wf) {q : JobQueue} {j : Job} {e : Nat × Nat} : (s.takeFill q j e).Wf :=
  hs.modTile.modJob

theorem State.Wf.ringLine {s : State} (hs : s.Wf) {q : JobQueue} {j : Job} {r : Ring} : (s.ringLine q j r).Wf := by
  unfold State.ringLine
  split
  · refine .ite hs.sendBlock.lineDone ?_
    refine .ite hs.blockReport.failCopy ?_
    split
    · exact hs
    · exact .ite ((hs.waitFills.foldl fun _ _ h' => h'.fillTile).unless fun h' => h'.landIn).modJob.failCopy
        ((hs.waitFills.foldl fun _ _ h' => h'.fillTile).unless fun h' => h'.landIn).modJob.lineDone

theorem State.Wf.ringLate {s : State} (hs : s.Wf) {q : JobQueue} {j : Job} {r : Ring} : (s.ringLate q j r).Wf := by
  unfold State.ringLate
  split
  · exact hs.modJob
  · exact hs
  · exact .ite hs.takeFill.fillTile.landIn.failCopy hs.takeFill.fillTile.landIn.modJob

theorem State.Wf.turnStep {s : State} (hs : s.Wf) {q : JobQueue} {j : Job} : (s.turnStep q j).Wf := by
  unfold State.turnStep
  extract_lets
  split
  · exact hs
  · exact .ite hs.readBlock <| .ite (.ite hs.ringLine.modRing hs.ringLine) <| .ite hs hs.ringLate

theorem State.Wf.copyLineWrite {s : State} (hs : s.Wf) {q : JobQueue} {id : Nat} : (copyLineWrite q id s).Wf := by
  unfold Machine.copyLineWrite
  split
  · exact hs
  · exact .ite hs <| .ite hs.turnStep <| .ite hs.prepare <| .ite hs <| .ite hs.beginRow.tileLine hs.beginRow.memLine

theorem State.Wf.sourceArrival {s : State} (hs : s.Wf) {q : JobQueue} {j : Job} : (s.sourceArrival q j).Wf :=
  .ite hs hs.arrive

theorem State.Wf.restRead {s : State} (hs : s.Wf) {j : Job} : (s.restRead j).Wf :=
  .ite hs hs.touchFrom

theorem State.Wf.copySourceRelease {s : State} (hs : s.Wf) {q : JobQueue} {id : Nat} :
    (copySourceRelease q id s).Wf := by
  unfold Machine.copySourceRelease
  split
  · exact hs
  · refine .ite hs ?_
    split
    · exact hs.copyErr
    · exact hs
    · exact hs
    · exact hs.restRead.modJob.sourceArrival

theorem State.Wf.copyRecord {s : State} (hs : s.Wf) {q : JobQueue} {j : Job} {cls code : Nat} {addr : Option Nat} :
    (s.copyRecord q j cls code addr).Wf :=
  hs.logErr

theorem State.Wf.visibleArrivals {s : State} (hs : s.Wf) {q : JobQueue} {j : Job} : (s.visibleArrivals q j).Wf := by
  unfold State.visibleArrivals
  extract_lets
  split
  · exact hs.arrive
  · exact hs.foldl fun _ _ h' => State.Wf.ite h'.arrive h'
  · exact hs.arrive

theorem State.Wf.retireCopy {s : State} (hs : s.Wf) {q : JobQueue} {j : Job} : (s.retireCopy q j).Wf :=
  hs.modJobs.dropRefs.copyDone

theorem State.Wf.writeRecord {s : State} (hs : s.Wf) {q : JobQueue} {j : Job} : (s.writeRecord q j).Wf := by
  unfold State.writeRecord
  refine .ite hs ?_
  refine .ite hs.copyErr ?_
  split
  · exact .ite hs <| .ite hs.copyRecord.modJob hs.copyPut.touchPage.modJob
  · exact hs.copyRecord.modJob
  · exact hs.copyErr

theorem State.Wf.copyVisibleCompletion {s : State} (hs : s.Wf) {q : JobQueue} {id : Nat} :
    (copyVisibleCompletion q id s).Wf := by
  unfold Machine.copyVisibleCompletion
  split
  · exact hs
  · refine .ite hs ?_
    refine .ite hs.writeRecord ?_
    refine .ite hs.modJob.sourceArrival ?_
    refine .ite hs.writeRecord ?_
    refine .ite hs ?_
    refine State.Wf.retireCopy ?_
    refine State.Wf.visibleArrivals ?_
    split
    · exact .ite hs hs.copyRecord
    · exact hs

/-! ### Operations of Machine/EngineRun.lean -/

theorem State.Wf.queueJob {s : State} (hs : s.Wf) {x : Ctx} {id : Nat} : (s.queueJob x id).Wf := by
  unfold State.queueJob
  extract_lets
  split
  · exact hs
  · exact .ite (hs.modJobs.foldl fun _ _ h' => h'.modTile).modFrame (hs.modJobs.foldl fun _ _ h' => h'.modTile)

theorem State.Wf.jobCounted {s : State} (hs : s.Wf) {q : JobQueue} {x : Ctx} : (s.jobCounted q x).Wf := by
  unfold State.jobCounted
  split
  · exact hs.settle
  · exact hs.copyDone

theorem State.Wf.retireJob {s : State} (hs : s.Wf) {q : JobQueue} {j : Job} : (s.retireJob q j).Wf :=
  hs.modJobs.dropRefs.jobCounted

theorem State.Wf.cancelJob {s : State} (hs : s.Wf) {core id : Nat} : (s.cancelJob core id).Wf := by
  unfold State.cancelJob
  split
  · exact hs
  · extract_lets
    split
    · exact hs.retireJob
    · exact .ite hs.modJob hs
    · exact hs

theorem State.Wf.defTile {s : State} (hs : s.Wf) {h : Held} {n : Nat} {g : Vec} : (s.defTile h n g).Wf :=
  .ite hs.refuseAct hs.modTile

theorem State.Wf.relTile {s : State} (hs : s.Wf) {h : Held} {n : Nat} : (s.relTile h n).Wf :=
  .ite hs.refuseAct hs.modTile

theorem State.Wf.modPress {s : State} (hs : s.Wf) {core : Nat} {f : Press → Press} : (s.modPress core f).Wf :=
  hs.modCore

theorem State.Wf.setEpi {s : State} (hs : s.Wf) {core : Nat} {d : Vec} : (s.setEpi core d).Wf :=
  hs.modPress

theorem State.Wf.clearTag {s : State} (hs : s.Wf) {core : Nat} {d : Vec} : (s.clearTag core d).Wf :=
  .ite (State.Wf.ite hs.modPress.modTile hs.modPress).modPress (State.Wf.ite hs.modPress.modTile hs.modPress).modPress

theorem State.Wf.loadTable {s : State} (hs : s.Wf) {h : Held} {n : Nat} {op : Word} : (s.loadTable h n op).Wf :=
  .ite hs.modCore hs.refuseAct

theorem State.Wf.bumpOrder {s : State} (hs : s.Wf) {q : JobQueue} : (s.bumpOrder q).Wf := by
  unfold State.bumpOrder
  split
  · exact hs.modCluster
  · exact hs.modCluster
  · exact hs.modDie

theorem State.Wf.advanceSeq {s : State} (hs : s.Wf) {j : Job} : (s.advanceSeq j).Wf :=
  hs.modPress

theorem State.Wf.issueTurn {s : State} (hs : s.Wf) {q : JobQueue} {j : Job} : (s.issueTurn q j).Wf := by
  unfold State.issueTurn
  extract_lets
  split
  · exact hs
  · exact (hs.mayStep fun h' => h'.modRing.modJob.foldl fun _ _ h' => h'.modTile).mayStep
      fun h' => h'.modJob.modRing.foldl fun _ _ h' => h'.modTile

theorem State.Wf.issueOne {s : State} (hs : s.Wf) {q : JobQueue} {j : Job} {stamp : Nat} :
    (s.issueOne q j stamp).Wf :=
  .ite hs.modJob.bumpOrder.drawn.advanceSeq.issueTurn hs.modJob.bumpOrder.drawn.advanceSeq

theorem State.Wf.pressRecord {s : State} (hs : s.Wf) {j : Job} {code : Nat} : (s.pressRecord j code).Wf :=
  hs.logErr.faultToken

theorem State.Wf.pressArrival {s : State} (hs : s.Wf) {j : Job} : (s.pressArrival j).Wf :=
  hs.arrive

theorem State.Wf.gangFails {s : State} (hs : s.Wf) {cs : List Job} : (s.gangFails cs).Wf :=
  hs.foldl fun _ _ h' => h'.advanceSeq.retireJob.pressArrival.pressRecord

theorem State.Wf.jobIssue {s : State} (hs : s.Wf) {q : JobQueue} : (jobIssue q s).Wf := by
  unfold Machine.jobIssue
  refine .ite hs ?_
  split
  · exact hs
  · split
    · exact hs.issueOne
    · exact .ite (hs.of_mem.foldl fun _ _ h' => h'.issueOne) hs.gangFails

theorem State.Wf.orFflags {s : State} (hs : s.Wf) {core : Nat} {b : Byte} : (s.orFflags core b).Wf :=
  hs.modCore

theorem State.Wf.loadShadow {s : State} (hs : s.Wf) {j : Job} : (s.loadShadow j).Wf :=
  hs.modPress.orFflags

theorem State.Wf.kSteps {s : State} (hs : s.Wf) {j : Job} {rows : List (List Num)} {sa : Int} :
    (s.kSteps j rows sa).Wf :=
  hs.modPress

theorem State.Wf.swapPlanes {s : State} (hs : s.Wf) {j : Job} : (s.swapPlanes j).Wf :=
  .ite hs.modPress hs

theorem State.Wf.applySteps {s : State} (hs : s.Wf) {ms : List Job} : (s.applySteps ms).Wf := by
  unfold State.applySteps
  split
  · exact hs
  · exact (hs.foldl fun _ _ h' => h'.swapPlanes.kSteps).orFflags

theorem State.Wf.rowToTile {s : State} (hs : s.Wf) {core tile row ofs : Nat} {bs : List Byte} :
    (s.rowToTile core tile row ofs bs).1.Wf :=
  hs.fillTile

theorem State.Wf.rowsToTile {s : State} (hs : s.Wf) {core tile : Nat} {l : List (Nat × Nat × List Byte)} :
    (s.rowsToTile core tile l).1.Wf := by
  induction l generalizing s with
  | nil => exact hs
  | cons row l ih => exact ih hs.rowToTile

theorem State.Wf.rowToSram {s : State} (hs : s.Wf) {core ofs e : Nat} {l : List (Nat × Byte)} :
    (s.rowToSram core ofs e l).Wf :=
  hs.drawn.foldl fun _ _ h' => h'.writeBytes

theorem State.Wf.drain {s : State} (hs : s.Wf) {j : Job} : (s.drain j).Wf := by
  unfold State.drain
  extract_lets
  split
  · exact .ite hs.rowsToTile.orFflags.pressRecord hs.rowsToTile.orFflags
  · exact hs.foldl fun _ _ h' => h'.rowToSram
  · exact hs.modJob

theorem State.Wf.softmaxRow {s : State} (hs : s.Wf) {j : Job} {vals : List (Nat × List XVal)} {i : Nat} :
    (s.softmaxRow j vals i).1.Wf :=
  hs.modPress

theorem State.Wf.softmaxRows {s : State} (hs : s.Wf) {j : Job} {vals : Nat → List (Nat × List XVal)} {l : List Nat} :
    (s.softmaxRows j vals l).1.Wf := by
  induction l generalizing s with
  | nil => exact hs
  | cons i l ih => exact ih hs.softmaxRow.rowsToTile.orFflags

theorem State.Wf.softmaxMember {s : State} (hs : s.Wf) {j : Job} {vals : Nat → List (Nat × List XVal)} {rows : Nat} :
    (s.softmaxMember j vals rows).Wf :=
  .ite hs.softmaxRows.pressRecord hs.softmaxRows

theorem State.Wf.softmax {s : State} (hs : s.Wf) {ms : List Job} : (s.softmax ms).Wf :=
  hs.foldl fun _ _ h' => h'.softmaxMember

theorem State.Wf.scan {s : State} (hs : s.Wf) {j : Job} : (s.scan j).Wf :=
  hs.modPress.orFflags

theorem State.Wf.runClears {s : State} (hs : s.Wf) {core order : Nat} : (s.runClears core order).Wf :=
  hs.foldl fun _ _ h' => h'.modPress

theorem State.Wf.lastClears {s : State} (hs : s.Wf) {core : Nat} : (s.lastClears core).Wf := by
  unfold State.lastClears
  split
  · exact hs.runClears
  · exact hs.runClears

theorem State.Wf.peekWord {s : State} (hs : s.Wf) {j : Job} : (s.peekWord j).Wf :=
  .ite hs.putWords hs

theorem State.Wf.pressRetires {s : State} (hs : s.Wf) {j : Job} : (s.pressRetires j).Wf :=
  hs.peekWord.retireJob.pressArrival

theorem State.Wf.applyPress {s : State} (hs : s.Wf) {j : Job} {ms : List Job} : (s.applyPress j ms).Wf := by
  unfold State.applyPress
  split
  · exact hs.loadShadow
  · exact hs.scan
  · exact .ite hs.softmax hs.drain
  · exact hs.applySteps

theorem State.Wf.pressJobRetire {s : State} (hs : s.Wf) {core : Nat} : (pressJobRetire core s).Wf := by
  unfold Machine.pressJobRetire
  split
  · exact hs
  · exact .ite hs <| (hs.foldl fun _ _ h' => h'.runClears).applyPress.unless
      fun h' => h'.foldl fun _ _ h' => h'.pressRetires.lastClears

theorem State.Wf.mxrdTokenSend {s : State} (hs : s.Wf) {core : Nat} : (mxrdTokenSend core s).Wf := by
  unfold Machine.mxrdTokenSend
  split
  · exact hs
  · split
    · exact hs
    · exact .ite hs <| .ite hs.nodeSend.modJob.pressRetires.lastClears hs.nodeSend.modJob

/-! ### Operations of Machine/Results.lean -/

theorem State.Wf.pbReport {s : State} (hs : s.Wf) {x : Ctx} {d : Vec} {code : Nat} : (s.pbReport x d code).Wf :=
  hs.defReport

theorem State.Wf.touchRun {s : State} (hs : s.Wf) {x : Ctx} {va : Word} {n : Nat} : (s.touchRun x va n).Wf :=
  hs.foldl fun _ _ h' => h'.touchPage

theorem State.Wf.setPub {s : State} (hs : s.Wf) {asid k : Nat} {f : PubBuf → PubBuf} {p : PubBuf} :
    (s.setPub asid k f p).Wf :=
  hs.foldl fun _ _ h' => h'.modDie

theorem State.Wf.genStore {s : State} (hs : s.Wf) {core asid genaddr v : Nat} :
    (s.genStore core asid genaddr v).Wf := by
  unfold State.genStore
  extract_lets
  split
  · exact hs.writeEngine.touchPage
  · exact hs.logErr
  · exact hs

theorem State.Wf.pbdef {s : State} (hs : s.Wf) {x : Ctx} {d : Vec} : (s.pbdef x d).Wf := by
  unfold State.pbdef
  refine .ite hs.pbReport ?_
  split
  · exact hs.pbReport
  · split
    · exact hs.park
    · exact hs.touchRun.touchRun.setPub.genStore.pbReport
  · exact hs.pbReport

theorem State.Wf.swapPubl {s : State} (hs : s.Wf) {j : PublJob} {p : PubBuf} : (s.swapPubl j p).Wf :=
  hs.genStore.setPub.modDie

theorem State.Wf.parkResult {s : State} (hs : s.Wf) {cluster core asid : Nat} {who : Option Collective}
    {l : List (Word × Nat)} : (s.parkResult cluster core asid who l).Wf :=
  hs.foldl fun _ _ h' => State.Wf.ite h' h'.park

theorem State.Wf.writeResult {s : State} (hs : s.Wf) {cluster core asid : Nat} {va : Word} {bs : List Byte} :
    (s.writeResult cluster core asid va bs).Wf := by
  refine List.foldlRecOn _ _ (motive := fun e : State × Nat × Bool => e.1.Wf) hs fun e he sp _ => ?_
  dsimp only
  split
  · exact State.Wf.touchPage (State.Wf.writeEngine he)
  · exact .ite he (State.Wf.logErr he)
  · exact he

theorem State.Wf.publResult {s : State} (hs : s.Wf) {who : Collective} {x : Ctx} {asid k scope : Nat} :
    optWf (s.publResult who x asid k scope) := by
  unfold State.publResult
  split
  · exact trivial
  · exact hs.swapPubl

theorem State.Wf.raiseCopy {s : State} (hs : s.Wf) {x : Ctx} : (s.raiseCopy x).Wf :=
  .ite hs.modFrame hs

theorem State.Wf.putRead {s : State} (hs : s.Wf) {m : Msg} {es : List (BitVec 32)} : (s.putRead m es).Wf := by
  unfold State.putRead
  extract_lets
  split
  · exact hs.send
  · exact hs.send
  · exact hs

theorem State.Wf.readPut {s : State} (hs : s.Wf) {m : Msg} {c : Chunk} {va : Word} {n : Nat} :
    (s.readPut m c va n).Wf := by
  unfold State.readPut
  extract_lets
  split
  · exact hs.park
  · exact hs.touchRange.putRead
  · exact hs.park
  · exact hs
  · exact (State.Wf.ite hs.dropReport hs).refuseAct.failSource

/-! ### Operations of Machine/Hoop.lean -/

theorem State.Wf.hpWord {s : State} (hs : s.Wf) {ref : Nat} {w : Vec × Ctx × Nat} {rho outcome : Nat} :
    (s.hpWord ref w rho outcome).Wf :=
  hs.reportAt

theorem State.Wf.addHoop {s : State} (hs : s.Wf) {x : Ctx} {d : Vec} : (s.addHoop x d).Wf :=
  hs.modDie.trimSlice

theorem State.Wf.readLags {s : State} (hs : s.Wf) {x : Ctx} {d : Vec} : (s.readLags x d).Wf := by
  unfold State.readLags
  refine .ite hs.modHoop.hpReport ?_
  split
  · exact hs.park
  · exact .ite hs.touchRange.failLags hs.touchRange.modHoop.hpReport
  · exact hs.park
  · exact hs.failLags

theorem State.Wf.freeHoop {s : State} (hs : s.Wf) {ref : Nat} {h : Hoop} : (s.freeHoop ref h).Wf := by
  unfold State.freeHoop
  extract_lets
  split
  · exact hs.dropHoop.foldl fun _ _ h' => h'.hpWord
  · exact (hs.dropHoop.foldl fun _ _ h' => h'.hpWord).hpStatus

theorem State.Wf.hpdef {s : State} (hs : s.Wf) {x : Ctx} {d0 : Vec} : (s.hpdef x d0).Wf := by
  unfold State.hpdef
  refine .ite hs.hpReport ?_
  refine .ite hs.hpReport ?_
  split
  · exact .ite hs.freeHoop.hpReport hs.hpReport
  · exact .ite hs.hpReport <| .ite hs.hpReport hs.addHoop.readLags

theorem State.Wf.finishHoop {s : State} (hs : s.Wf) {ref : Nat} : (s.finishHoop ref).Wf := by
  unfold State.finishHoop
  split
  · exact hs
  · exact (hs.foldl fun _ _ h' => h'.hpWord).modHoop

theorem State.Wf.closeHoop {s : State} (hs : s.Wf) {ref : Nat} : (s.closeHoop ref).Wf := by
  unfold State.closeHoop
  split
  · exact hs
  · refine .ite hs ?_
    refine .ite hs.parkResult ?_
    extract_lets
    split
    · exact hs.writeResult.finishHoop
    next e =>
      exact (hs.writeResult.publResult.of_some e).modHoop

theorem State.Wf.holdWait {s : State} (hs : s.Wf) {w : Vec × Ctx × Nat} : (s.holdWait w).Wf := by
  unfold State.holdWait
  extract_lets
  split
  · exact hs.drawn.hpWord
  · exact .ite hs.hpWord <| .ite hs.hpWord hs.modHoop

theorem State.Wf.askAgain {s : State} (hs : s.Wf) {k : Nat} {m : Msg} : (s.askAgain k m).Wf := by
  unfold State.askAgain
  split
  · exact hs
  · exact hs.dropPkt.send

theorem State.Wf.badChunk {s : State} (hs : s.Wf) {home : Nat} {src : Option Nat} : (s.badChunk home src).Wf :=
  (State.Wf.elim hs fun _ => hs.retireBit).logErr

theorem State.Wf.acceptPut {s : State} (hs : s.Wf) {h : Hoop} {p : HoopPut} : (s.acceptPut h p).Wf :=
  .ite hs.modHoop.hpStatus.closeHoop hs.modHoop.hpStatus

theorem State.Wf.addChunk {s : State} (hs : s.Wf) {h : Hoop} {c : Chunk} {lag : Nat} {acc : Tab LongAcc} :
    (s.addChunk h c lag acc).Wf :=
  .ite hs.acceptPut hs.modHoop.send

theorem State.Wf.readHoopPut {s : State} (hs : s.Wf) {c : Chunk} : (s.readHoopPut c).Wf :=
  hs.readPut

theorem State.Wf.hoopDecision {s : State} (hs : s.Wf) {k : Nat} : (hoopDecision k s).Wf := by
  unfold Machine.hoopDecision
  split
  · extract_lets
    split
    · exact .ite hs.dropPkt.drawn.hpStatus hs.dropPkt
    · refine .ite ?_ (.ite hs.dropPkt.hpStatus <| .ite hs <| .ite hs.dropPkt.hpStatus <| .ite hs.dropPkt.hpStatus <|
        .ite hs.dropPkt.hpStatus <| .ite hs.dropPkt.addChunk <| .ite hs.askAgain hs.dropPkt.badChunk.hpStatus)
      split
      · exact hs.dropPkt
      · exact .ite hs.dropPkt.addChunk <| .ite hs.askAgain hs.dropPkt.modHoop.badChunk.hpStatus
  · exact .ite hs hs.dropPkt.readHoopPut
  · exact hs.dropPkt.holdWait
  · exact hs

theorem State.Wf.hpput {s : State} (hs : s.Wf) {h : Held} {d : Vec} : (s.hpput h d).Wf :=
  .ite (hs.raiseCopy.unless fun h' => h'.drawn).drawn.hpStatus (hs.raiseCopy.unless fun h' => h'.drawn).readHoopPut

theorem State.Wf.hpwait {s : State} (hs : s.Wf) {x : Ctx} {d : Vec} : (s.hpwait x d).Wf :=
  .ite hs.send hs.holdWait

/-! ### Operations of Machine/Reduce.lean -/

theorem State.Wf.redReport {s : State} (hs : s.Wf) {x : Ctx} {d : Vec} {code members : Nat} :
    (s.redReport x d code members).Wf :=
  hs.defReport

theorem State.Wf.modUnit {s : State} (hs : s.Wf) {cluster ref : Nat} {f : RedUnit → RedUnit} :
    (s.modUnit cluster ref f).Wf :=
  hs.modCluster

theorem State.Wf.modUnits {s : State} (hs : s.Wf) {ref : Nat} {f : RedUnit → RedUnit} : (s.modUnits ref f).Wf :=
  hs.foldl fun _ _ h' => State.Wf.ite h'.modUnit h'

theorem State.Wf.dropUnits {s : State} (hs : s.Wf) {ref : Nat} : (s.dropUnits ref).Wf :=
  hs.foldl fun _ _ h' => State.Wf.ite h'.modCluster h'

theorem State.Wf.graft {s : State} (hs : s.Wf) {new : RedUnit} {alt : Bool} {out : Option Agent} {n : Nat}
    {below : Option Nat} {l : List Nat} : (s.graft new alt out n below l).Wf := by
  induction l generalizing s below with
  | nil => exact hs
  | cons r l ih => exact ih hs.modCluster

theorem State.Wf.joinTrees {s : State} (hs : s.Wf) {new : RedUnit} {a b n : Nat} : optWf (s.joinTrees new a b n) := by
  unfold State.joinTrees
  extract_lets
  split
  · exact trivial
  · exact hs.graft.graft

theorem State.Wf.joinCluster {s : State} (hs : s.Wf) {new : RedUnit} {e : Nat × List Nat} :
    optWf (s.joinCluster new e) :=
  hs.joinTrees.map fun _ h' => h'.modUnit

theorem State.Wf.configTree {s : State} (hs : s.Wf) {new : RedUnit} : optWf (s.configTree new) := by
  refine List.foldlRecOn _ _ (motive := optWf) hs fun o ho e _ => ?_
  cases o with
  | none => trivial
  | some t => exact State.Wf.joinCluster ho

theorem State.Wf.tellDevices {s : State} (hs : s.Wf) {from_ tenant : Nat} {devs : List Nat} {m : Msg} :
    (s.tellDevices from_ tenant devs m).Wf :=
  hs.foldl fun _ _ h' => h'.send

theorem State.Wf.dropRed {s : State} (hs : s.Wf) {ref : Nat} {r : Reduction} : (s.dropRed ref r).Wf :=
  hs.modDie.dropUnits.tellDevices

theorem State.Wf.reddef {s : State} (hs : s.Wf) {x : Ctx} {d0 : Vec} : (s.reddef x d0).Wf := by
  unfold State.reddef
  refine .ite hs.redReport ?_
  refine .ite hs.redReport ?_
  split
  · exact .ite hs.dropRed.redReport hs.redReport
  · refine .ite hs.redReport ?_
    refine .ite hs.redReport ?_
    refine .ite hs.redReport ?_
    split
    · exact hs.redReport
    next e =>
      exact .ite (hs.configTree.of_some e).modDie.tellDevices.redReport (hs.configTree.of_some e).modDie.tellDevices

theorem State.Wf.redReady {s : State} (hs : s.Wf) {ref dev n : Nat} {ok : Bool} : (s.redReady ref dev n ok).Wf := by
  unfold State.redReady
  split
  · exact hs
  · refine .ite hs ?_
    split
    · exact hs.dropRed.redReport
    next e =>
      have h1 := (optWf.ite hs.joinTrees optWf.none).of_some e
      exact .ite hs.dropRed.redReport <| .ite h1.modRed.redReport h1.modRed

theorem State.Wf.redTree {s : State} (hs : s.Wf) {d : Vec} {x : Ctx} {det : Bool} : (s.redTree d x det).Wf := by
  unfold State.redTree
  refine .ite hs.dropUnits ?_
  split
  · exact hs.send
  next e =>
    exact (hs.configTree.of_some e).send

theorem State.Wf.endUnit {s : State} (hs : s.Wf) {cluster ref use outcome flags : Nat} {u : RedUnit} :
    (s.endUnit cluster ref use outcome flags u).Wf :=
  (hs.foldl fun _ _ h' => h'.redStatus).modUnit

theorem State.Wf.endUnits {s : State} (hs : s.Wf) {ref use outcome flags : Nat} :
    (s.endUnits ref use outcome flags).Wf :=
  hs.foldl fun _ _ h' => (by
    split
    · exact h'
    · exact h'.endUnit)

theorem State.Wf.endUse {s : State} (hs : s.Wf) {ref outcome : Nat} : (s.endUse ref outcome).Wf := by
  unfold State.endUse
  split
  · exact hs
  · exact hs.endUnits.tellDevices.modRed

theorem State.Wf.failUse {s : State} (hs : s.Wf) {router ref use : Nat} : (s.failUse router ref use).Wf :=
  .ite (.ite hs.endUse hs) hs.tellDevices

theorem State.Wf.writeChunk {s : State} (hs : s.Wf) {ref : Nat} {e : Nat × List LongAcc} :
    (s.writeChunk ref e).Wf := by
  unfold State.writeChunk
  split
  · exact hs
  · exact .ite hs <| .ite hs.parkResult hs.writeResult.modRed

theorem State.Wf.publUse {s : State} (hs : s.Wf) {ref : Nat} : (s.publUse ref).Wf := by
  unfold State.publUse
  split
  · exact hs
  · refine .ite hs ?_
    refine .ite hs.parkResult ?_
    split
    · exact hs.endUse
    next e =>
      exact (hs.publResult.of_some e).modRed

theorem State.Wf.pushRed {s : State} (hs : s.Wf) {ref : Nat} : (s.pushRed ref).Wf := by
  unfold State.pushRed
  split
  · exact hs
  · exact (hs.foldl fun _ _ h' => h'.writeChunk).publUse

theorem State.Wf.readRedPut {s : State} (hs : s.Wf) {c : Chunk} : (s.readRedPut c).Wf :=
  hs.readPut

theorem State.Wf.beginPut {s : State} (hs : s.Wf) {u : RedUnit} {c0 : Chunk} : (s.beginPut u c0).Wf :=
  .ite hs.modUnit.redStatus hs.modUnit.modUnit.readRedPut

theorem State.Wf.redput {s : State} (hs : s.Wf) {h : Held} {d : Vec} : (s.redput h d).Wf := by
  unfold State.redput
  extract_lets
  split
  · exact hs.raiseCopy.beginPut
  · exact hs.raiseCopy.putRead

theorem State.Wf.sendUp {s : State} (hs : s.Wf) {r : Nat} {parent : Agent} {c : Chunk} : (s.sendUp r parent c).Wf :=
  hs.send

theorem State.Wf.partDoneAt {s : State} (hs : s.Wf) {r : Nat} {u : RedUnit} {c : Chunk} {p : RedPart} :
    (s.partDoneAt r u c p).Wf := by
  unfold State.partDoneAt
  extract_lets
  split
  · exact .ite hs.modUnit hs.modUnit.sendUp
  · exact .ite hs.modUnit <| .ite hs.modUnit.modRed.pushRed hs.modUnit.failUse

theorem State.Wf.nextChunk {s : State} (hs : s.Wf) {u : RedUnit} {local_ : Bool} {c : Chunk} :
    (s.nextChunk u local_ c).Wf :=
  .ite hs.readRedPut hs

theorem State.Wf.takeChunk {s : State} (hs : s.Wf) {k r : Nat} {src : Agent} {u : RedUnit} {c0 : Chunk} :
    (s.takeChunk k r src u c0).Wf := by
  unfold State.takeChunk
  extract_lets
  split
  · exact hs.dropPkt.sendUp.nextChunk
  · exact .ite (.ite hs.askAgain hs.dropPkt.badChunk.failUse) <| .ite hs hs.dropPkt.partDoneAt.nextChunk

theorem State.Wf.reductionChunk {s : State} (hs : s.Wf) {k : Nat} : (reductionChunk k s).Wf := by
  unfold Machine.reductionChunk
  split
  · split
    · exact hs
    · exact .ite hs <| .ite (.ite hs.dropPkt.beginPut hs) <| .ite hs.dropPkt <| .ite hs hs.takeChunk
  · exact hs

theorem State.Wf.cutUnits {s : State} (hs : s.Wf) {ref use index : Nat} : (s.cutUnits ref use index).Wf :=
  hs.modUnits

theorem State.Wf.cutTree {s : State} (hs : s.Wf) {ref : Nat} : (s.cutTree ref).Wf := by
  unfold State.cutTree
  split
  · exact hs
  · exact hs.cutUnits.tellDevices

theorem State.Wf.cutLink {s : State} (hs : s.Wf) {cluster ref : Nat} {u : RedUnit} : (s.cutLink cluster ref u).Wf :=
  .ite hs.modUnit <| .ite hs <| .ite hs.cutTree hs.tellDevices

theorem State.Wf.redLost {s : State} (hs : s.Wf) {link : LinkId} : (s.redLost link).Wf :=
  hs.foldl fun _ _ h' => h'.foldl fun _ _ h'' => State.Wf.ite h''.cutLink h''

theorem State.Wf.redBack {s : State} (hs : s.Wf) {link : LinkId} : (s.redBack link).Wf :=
  .ite hs (hs.foldl fun _ _ h' => h'.foldl fun _ _ h'' => State.Wf.ite h''.modUnit h'')

/-! ### Operations of Machine/CollRun.lean -/

theorem State.Wf.rereadSource {s : State} (hs : s.Wf) {m : Msg} : (s.rereadSource m).Wf := by
  unfold State.rereadSource
  split
  · exact hs.readHoopPut
  · exact hs.readRedPut
  · exact .ite hs.readLags hs
  · exact hs.pbdef
  · exact hs

theorem State.Wf.retryResults {s : State} (hs : s.Wf) : s.retryResults.Wf :=
  hs.foldl fun _ _ h' => (h'.foldl fun _ _ h'' => h''.closeHoop).foldl fun _ _ h'' => h''.pushRed

theorem State.Wf.publDone {s : State} (hs : s.Wf) {j : PublJob} : (s.publDone j).Wf := by
  unfold State.publDone
  split
  · exact .ite hs.finishHoop hs
  · exact .ite hs.endUse hs
  · exact hs.arrive

theorem State.Wf.publHoldEnd {s : State} (hs : s.Wf) {asid k : Nat} : (publHoldEnd asid k s).Wf := by
  unfold Machine.publHoldEnd
  split
  · exact hs
  · split
    · exact .ite hs <| .ite hs.parkResult (State.Wf.ite hs.modDie hs.modDie.genStore).setPub.publDone.retryResults
    · exact hs

theorem State.Wf.sendGrant {s : State} (hs : s.Wf) {r : Ring} {slot : Nat} : (s.sendGrant r slot).Wf :=
  hs.send

theorem State.Wf.turndef {s : State} (hs : s.Wf) {x : Ctx} {d : Vec} : (s.turndef x d).Wf := by
  unfold State.turndef
  refine .ite hs.defReport ?_
  refine .ite hs.defReport ?_
  split
  · exact .ite hs.modCluster.defReport hs.defReport
  · exact .ite hs.defReport <| .ite hs.defReport <| .ite hs.defReport
      (hs.modCluster.foldl fun _ _ h' => h'.sendGrant).defReport

theorem State.Wf.turnGrantArrival {s : State} (hs : s.Wf) {k : Nat} : (turnGrantArrival k s).Wf := by
  unfold Machine.turnGrantArrival
  split
  · extract_lets
    split
    · exact hs.dropPkt.modCluster
    · exact .ite hs.dropPkt hs.dropPkt.modRing
  · exact hs

theorem State.Wf.landBlock {s : State} (hs : s.Wf) {cluster n slot dev : Nat} {tag : Nat × Nat} {isK : Bool}
    {ofs : Nat} {bytes : List Byte} {total src job : Nat} :
    (s.landBlock cluster n slot dev tag isK ofs bytes total src job).Wf := by
  unfold State.landBlock
  split
  · exact hs
  · exact (hs.modRing.foldl fun _ _ h' => h'.fillTile).landIn

theorem State.Wf.landed {s : State} (hs : s.Wf) {cluster n slot : Nat} {r : Ring} :
    (s.landed cluster n slot r).Wf := by
  unfold State.landed
  extract_lets
  split
  · exact hs.modRing.report
  · exact hs.modRing.report.send

theorem State.Wf.blockLanding {s : State} (hs : s.Wf) {cluster n slot : Nat} :
    (blockLanding cluster n slot s).Wf := by
  unfold Machine.blockLanding
  split
  · exact hs
  · split
    · exact hs.modRing.fillTile
    · exact .ite hs.landed hs

theorem State.Wf.slotRegrant {s : State} (hs : s.Wf) {cluster n slot : Nat} : (slotRegrant cluster n slot s).Wf := by
  unfold Machine.slotRegrant
  split
  · exact hs
  · exact .ite hs.modRing.modJobs.sendGrant hs

theorem State.Wf.definitionReport {s : State} (hs : s.Wf) {k : Nat} : (definitionReport k s).Wf := by
  unfold Machine.definitionReport
  split
  · exact hs.dropPkt.report
  · exact hs

theorem State.Wf.absenceNotice {s : State} (hs : s.Wf) {who : Collective} {m : Nat} : (absenceNotice who m s).Wf :=
  hs

theorem State.Wf.presenceNotice {s : State} (hs : s.Wf) {who : Collective} {m : Nat} : (presenceNotice who m s).Wf :=
  hs

theorem State.Wf.peerRecord {s : State} (hs : s.Wf) {x : Ctx} : (s.peerRecord x).Wf :=
  hs.logErr

theorem State.Wf.endHold {s : State} (hs : s.Wf) {who : Collective} : (s.endHold who).Wf := by
  unfold State.endHold
  split
  · exact hs.endUse.foldl fun _ _ h' => h'.peerRecord
  · split
    · exact hs
    · exact (hs.foldl fun _ _ h' => h'.hpWord.peerRecord).modHoop
  · exact hs.modRing.modJobs.foldl fun _ _ h' => h'.peerRecord

theorem State.Wf.holdExpiry {s : State} (hs : s.Wf) {who : Collective} : (holdExpiry who s).Wf :=
  .ite hs hs.of_mem.endHold

/-! ### Operations of Machine/Collectives.lean -/

theorem State.Wf.collective {s : State} (hs : s.Wf) {td ta : Temp} {a : Vec → Act} : nextWf (collective td ta a s) :=
  hs.issue fun _ => hs.setFiring.hold

/-! ### Operations of Machine/Ingest.lean -/

theorem State.Wf.modMsg {s : State} (hs : s.Wf) {die ticket : Nat} {f : IngMsg → IngMsg} :
    (s.modMsg die ticket f).Wf :=
  hs.modDie

theorem State.Wf.decodeMsg {s : State} (hs : s.Wf) {die : Nat} {m : IngMsg} : (s.decodeMsg die m).Wf :=
  hs.touchRange.modMsg

theorem State.Wf.sendIng {s : State} (hs : s.Wf) {die : Nat} {m : IngMsg} {t : Token} {rest : List Token} :
    (s.sendIng die m t rest).Wf :=
  .ite hs hs.modDie.modMsg.send

theorem State.Wf.finishMsg {s : State} (hs : s.Wf) {die : Nat} {m : IngMsg} : (s.finishMsg die m).Wf :=
  hs.modDie.arrive.modCore.copyDone

theorem State.Wf.ingestToken {s : State} (hs : s.Wf) {die ticket : Nat} : (ingestToken die ticket s).Wf := by
  unfold Machine.ingestToken
  split
  · exact hs
  · refine .ite hs ?_
    split
    · exact hs.decodeMsg
    · exact hs.sendIng
    · exact .ite hs hs.finishMsg

theorem State.Wf.quarPut {s : State} (hs : s.Wf) {die : Nat} {m : IngMsg} {code stage ofs used : Nat} :
    (s.quarPut die m code stage ofs used).Wf :=
  .ite hs.modDie.logRec (State.Wf.ite hs.logRec hs.writeBytes).modDie

theorem State.Wf.quarCount {s : State} (hs : s.Wf) {die : Nat} {m : IngMsg} {full : Bool} :
    (s.quarCount die m full).Wf :=
  hs

theorem State.Wf.quarantineMsg {s : State} (hs : s.Wf) {die : Nat} {m : IngMsg} {code stage ofs used : Nat} :
    (s.quarantineMsg die m code stage ofs used).Wf :=
  hs.quarCount.quarPut.modMsg

theorem State.Wf.quarantine {s : State} (hs : s.Wf) {die ticket : Nat} : (quarantine die ticket s).Wf := by
  unfold Machine.quarantine
  split
  · exact hs
  · split
    · exact hs
    · exact .ite hs hs.quarantineMsg

theorem State.Wf.ingestWatchdog {s : State} (hs : s.Wf) {die ticket : Nat} : (ingestWatchdog die ticket s).Wf := by
  unfold Machine.ingestWatchdog
  split
  · exact hs
  · exact .ite hs hs.quarantineMsg

theorem State.Wf.submitMsg {s : State} (hs : s.Wf) {x : Ctx} {ticket : Nat} {d : Vec} : (s.submitMsg x ticket d).Wf :=
  hs.modDie.modCore.raiseCopy

/-! ### Operations of Machine/Fetch.lean -/

theorem State.Wf.tick {s : State} (hs : s.Wf) {dt : Nat} : (s.tick dt).Wf :=
  hs

theorem State.Wf.turn {s : State} (hs : s.Wf) {core : Nat} : (s.turn core).Wf :=
  hs

/-! ### Operations of Machine/Priv.lean -/

theorem State.Wf.privCommand {s : State} (hs : s.Wf) {mnemonic : String} {td ta : Temp} {a : Vec → Act} :
    nextWf (privCommand mnemonic td ta a s) :=
  hs.stewardIssue fun _ => hs.setFiring.hold

/-! ### Operations of Machine/Release.lean -/

theorem State.Wf.slotUpdate {s : State} (hs : s.Wf) {x : Ctx} {n : Nat} {f : Word → Word} :
    optWf (s.slotUpdate x n f) :=
  .ite hs <| .ite trivial <| .ite hs.loseFrame (State.Wf.ite hs.modFrame.updateSlot.evalCore hs.modFrame.updateSlot)

theorem State.Wf.setResv {s : State} (hs : s.Wf) {x : Ctx} {r : Resv} : (s.setResv x r).Wf :=
  hs.modCore

theorem State.Wf.closeResv {s : State} (hs : s.Wf) {x : Ctx} : (s.closeResv x).Wf := by
  unfold State.closeResv
  split
  · exact hs
  · exact (hs.foldl fun _ _ h' => h'.consume).modCore.evalCore

theorem State.Wf.releaseEnd {s : State} (hs : s.Wf) {x : Ctx} : (s.releaseEnd x).Wf :=
  .ite hs.closeResv.freeFrame hs.closeResv

theorem State.Wf.releaseCont {s : State} (hs : s.Wf) {x : Ctx} {lim : Limits} {slot : Nat} :
    optWf (s.releaseCont x lim slot) :=
  .ite hs.closeResv <| .ite trivial hs.closeResv.modFrame.tryCont

theorem State.Wf.releasePop {s : State} (hs : s.Wf) {x : Ctx} {port : Nat} : (s.releasePop x port).Wf := by
  unfold State.releasePop
  refine State.Wf.evalCore ?_
  refine State.Wf.consume ?_
  split
  · exact hs
  · exact hs.setResv

theorem State.Wf.draw {s : State} (hs : s.Wf) {x : Ctx} {port cost : Nat} : optWf (s.draw x port cost) := by
  refine optWf.ite trivial (State.Wf.modCore ?_)
  split
  · exact hs
  · exact .ite hs hs.setResv

theorem State.Wf.noPlace {s : State} (hs : s.Wf) {h : Held} : (s.noPlace h).Wf :=
  hs.refuseAct

theorem State.Wf.releasePush {s : State} (hs : s.Wf) {h : Held} {port : Nat} {t : Token} :
    optWf (s.releasePush h port t) :=
  .ite hs.noPlace (hs.draw.map fun _ h' => h'.emit)

theorem State.Wf.releaseSend {s : State} (hs : s.Wf) {h : Held} {dest : Handle} {slot k amount payload : Nat}
    {data : Vec} {side : Byte} : optWf (s.releaseSend h dest slot k amount payload data side) := by
  unfold State.releaseSend
  refine .ite hs.sendTok ?_
  split
  · exact hs.noPlace
  · refine .ite hs.sendTok ?_
    extract_lets
    split
    · exact hs.sendTok
    · exact hs.draw.map fun _ h' => h'.sendTok

theorem State.Wf.releaseLgen {s : State} (hs : s.Wf) {h : Held} {d : Vec} : (s.releaseLgen h d).Wf := by
  unfold State.releaseLgen
  refine .ite hs.sendTok ?_
  split
  · exact hs.refuseAct
  · exact hs.sendTok

theorem State.Wf.releaseLgstop {s : State} (hs : s.Wf) {core g : Nat} : (s.releaseLgstop core g).Wf :=
  hs.modGen

theorem State.Wf.raiseGraph {s : State} (hs : s.Wf) {id : Nat} : (s.raiseGraph id).Wf :=
  .ite hs.setWork hs

theorem State.Wf.releaseLaunch {s : State} (hs : s.Wf) {h : Held} {id : Nat} {d : Vec} :
    optWf (s.releaseLaunch h id d) := by
  unfold State.releaseLaunch
  extract_lets
  split
  · exact hs.noPlace.workToken.setWork
  · exact .ite trivial hs.setWork.raiseGraph.sendTok

theorem State.Wf.releasePubl {s : State} (hs : s.Wf) {h : Held} {sc : Scope} {op : Word} :
    optWf (s.releasePubl h sc op) := by
  unfold State.releasePubl
  extract_lets
  split
  · exact hs.refuseAct.arrive
  · refine .ite trivial ?_
    split
    · exact hs.swapPubl
    · exact .ite trivial hs.park.modCore

theorem State.Wf.releaseFmt {s : State} (hs : s.Wf) {x : Ctx} {d : Vec} : (s.releaseFmt x d).Wf :=
  hs.modPress

theorem State.Wf.releaseRoinv {s : State} (hs : s.Wf) {core : Nat} : (s.releaseRoinv core).Wf :=
  .ite (hs.foldl fun _ _ h' => h'.modCluster) hs.modCluster

theorem State.Wf.sendCmd {s : State} (hs : s.Wf) {core dst : Nat} {m : Msg} : (s.sendCmd core dst m).Wf :=
  hs.send

theorem State.Wf.replayOne {s : State} (hs : s.Wf) {cluster : Nat} {x : XReq} : (s.replayOne cluster x).Wf := by
  unfold State.replayOne
  split
  · split
    · exact hs.park
    · exact .ite hs.modCluster hs.walkReq
  · split
    · exact hs.park
    · exact hs.modJob
  · split
    · exact hs.park
    · exact hs.rereadSource
  · split
    · exact hs.park
    · exact hs

theorem State.Wf.replayCluster {s : State} (hs : s.Wf) {cluster : Nat} : (s.replayCluster cluster).Wf :=
  hs.modCluster.foldl fun _ _ h' => h'.replayOne

theorem State.Wf.releaseRplay {s : State} (hs : s.Wf) {core : Nat} : (s.releaseRplay core).Wf :=
  (hs.foldl fun _ _ h' => h'.replayCluster).retryResults

theorem State.Wf.tlbDrop {s : State} (hs : s.Wf) {die : Nat} {op : Word} : (s.tlbDrop die op).Wf :=
  hs.of_mem.modDie

theorem State.Wf.tlbinvAcknowledgement {s : State} (hs : s.Wf) {core die : Nat} :
    (tlbinvAcknowledgement core die s).Wf :=
  .ite hs hs.tlbDrop.modCore

theorem State.Wf.releaseAccess {s : State} (hs : s.Wf) {h : Held} {kind : AccKind} {va : Word} {size : Nat} {data : Vec}
    {side : Byte} {k slot : Nat} : optWf (s.releaseAccess h kind va size data side k slot) := by
  refine hs.releaseReq.map fun t ht => ?_
  split
  · exact ht.modCore
  · exact ht.modCore
  · exact ht

theorem State.Wf.releaseAct {s : State} (hs : s.Wf) {h : Held} : optWf (s.releaseAct h) := by
  unfold State.releaseAct
  extract_lets
  split
  · exact hs.releaseAccess
  · exact hs.releaseSend
  · exact hs.slotUpdate
  · exact hs.slotUpdate
  · exact hs.slotUpdate
  · exact hs.releasePop
  · exact hs.releasePush
  · exact hs.releasePush
  · exact hs.releasePush
  · exact State.Wf.ite hs.freeFrame hs
  · exact hs.releaseLgen
  · exact hs.releaseLgstop
  · exact hs.releaseLaunch
  · exact hs.releaseRoinv
  · exact hs.releaseRplay
  · exact hs.modCore
  · exact hs.sendCmd
  · exact hs.sendCmd
  · exact hs.sendCmd.modCore
  · exact hs.cancel
  · exact .ite trivial hs.loadTable
  · exact hs.defTile
  · exact hs.relTile
  · exact hs.releaseFmt
  · exact .ite trivial hs.setEpi
  · exact .ite trivial hs.clearTag
  · exact .ite hs.queueJob trivial
  · exact hs.cancelJob
  · exact .ite hs.submitMsg trivial
  · exact .ite trivial hs.hpdef
  · exact .ite trivial hs.hpput
  · exact hs.hpwait
  · exact hs.turndef
  · exact hs.reddef
  · exact .ite trivial hs.redput
  · exact .ite trivial hs.pbdef
  · exact hs.releasePubl
  · exact hs
  · exact hs.releaseEnd
  · exact hs.releaseCont

theorem State.Wf.commitQueueRelease {s : State} (hs : s.Wf) {core : Nat} : (commitQueueRelease core s).Wf := by
  unfold Machine.commitQueueRelease
  extract_lets
  split
  · exact hs
  · exact .ite hs (hs.setCore.releaseAct.getD hs)

/-! ### Operations of Machine/Load.lean -/

theorem State.Wf.placeArrival {s : State} (hs : s.Wf) {k : Nat} : (placeArrival k s).Wf := by
  unfold Machine.placeArrival
  split
  · exact hs.dropPkt.modCore
  · exact hs

theorem State.Wf.codesealScan {s : State} (hs : s.Wf) {k : Nat} : (codesealScan k s).Wf := by
  unfold Machine.codesealScan
  split
  · exact .ite hs hs.dropPkt.modCore.report
  · exact hs

theorem State.Wf.s {self : Cfg} (hs : self.s.Wf) : (Cfg.s self).Wf :=
  hs

theorem State.Wf.config {g : Cfg} (hs : g.s.Wf) {core spill : Nat} {b : List Byte} {o : Nat} :
    (Cfg.config g core spill b o).s.Wf :=
  State.Wf.cfgIte hs hs.modCore

theorem State.Wf.writeArea {s : State} (hs : s.Wf) {core v : Nat} {d : Rec} : (s.writeArea core v d).Wf :=
  .ite hs.writeVirt hs

theorem State.Wf.desc {g : Cfg} (hs : g.s.Wf) {core : Nat} {nodes : List Nat} {b : List Byte} {o : Nat} :
    (Cfg.desc g core nodes b o).s.Wf := by
  unfold Cfg.desc
  dsimp only
  split
  · exact hs
  · split
    · exact hs
    · exact hs.modCore.writeArea.modCluster

theorem State.Wf.addNodeFrame {s : State} (hs : s.Wf) {core i p cls nslot vnode : Nat} {ws : List Word} :
    (s.addNodeFrame core i p cls nslot vnode ws).Wf :=
  hs.modFrame.clearFrame.setFwords

theorem State.Wf.frames {g : Cfg} (hs : g.s.Wf) {core : Nat} {b : List Byte} {hi n o : Nat} :
    (Cfg.frames core b hi n o g).s.Wf := by
  induction n generalizing g o with
  | zero => exact hs
  | succ n ih =>
    unfold Cfg.frames
    refine State.Wf.cfgIte hs ?_
    dsimp only
    refine State.Wf.cfgIte hs (State.Wf.cfgIte hs ?_)
    split
    · exact hs
    · exact State.Wf.cfgIte hs (ih hs.addNodeFrame)

theorem State.Wf.chan {g : Cfg} (hs : g.s.Wf) {core : Nat} {b : List Byte} {o : Nat} : (Cfg.chan g core b o).s.Wf :=
  State.Wf.cfgIte hs hs.modCore

theorem State.Wf.tile {g : Cfg} (hs : g.s.Wf) {core : Nat} {b : List Byte} {o : Nat} :
    (Cfg.tile g core b o).s.Wf := by
  unfold Cfg.tile
  extract_lets
  split
  · exact hs
  · exact hs.modTile

theorem State.Wf.each {g : Cfg} (hs : g.s.Wf) {f : Cfg → Nat → Cfg} {size n o : Nat} 
    (hf : ∀ g o, g.s.Wf → (f g o).s.Wf) : (Cfg.each f size n o g).s.Wf := by
  induction n generalizing g o with
  | zero => exact hs
  | succ n ih =>
    unfold Cfg.each
    split
    · exact hs
    · exact ih (hf _ _ hs)

theorem State.Wf.block {g : Cfg} (hs : g.s.Wf) {core spill : Nat} {nodes : List Nat} {b : List Byte}
    {k : Nat × Nat × Nat × Nat} : (Cfg.block core spill nodes b g k).s.Wf := by
  unfold Cfg.block
  split
  refine State.Wf.cfgIte hs ?_
  split
  · exact hs.config
  · exact hs.each fun _ _ h' => h'.desc
  · exact hs.frames
  · exact hs.each fun _ _ h' => h'.chan
  · exact hs.each fun _ _ h' => h'.tile
  · exact hs

theorem State.Wf.feedChannel {s : State} (hs : s.Wf) {core : Nat} {ch : Chan} : (s.feedChannel core ch).Wf :=
  .ite hs <| .ite hs.modDie hs.modCore

theorem State.Wf.setCredits {s : State} (hs : s.Wf) {core : Nat} : (s.setCredits core).Wf :=
  hs.modCore.foldl fun _ _ h' => h'.feedChannel

theorem State.Wf.configure {s : State} (hs : s.Wf) {core : Nat} {d : Vec} {b : List Byte} :
    (s.configure core d b).s.Wf := by
  unfold State.configure
  extract_lets spill s1
  split
  extract_lets mine nodes g
  have hg : g.s.Wf := List.foldlRecOn _ _ (motive := fun g : Cfg => g.s.Wf) hs.modCore fun _ h' _ _ => h'.block
  exact State.Wf.cfgIte hg (State.Wf.cfgIte hg (State.Wf.cfgIte hg hg))

theorem State.Wf.cfgDone {s : State} (hs : s.Wf) {core t : Nat} {d : Vec} {w : Word} : (s.cfgDone core t d w).Wf :=
  hs.report

theorem State.Wf.unloadDone {s : State} (hs : s.Wf) {core t : Nat} {d : Vec} : (s.unloadDone core t d).Wf :=
  hs.arrive

theorem State.Wf.cfgUnread {s : State} (hs : s.Wf) {steward core t : Nat} {d : Vec} {cls code : Nat} {va : Word} :
    (s.cfgUnread steward core t d cls code va).Wf :=
  hs.logErr.modCore.drawn.cfgDone

theorem State.Wf.jobFields {s : State} (hs : s.Wf) {core : Nat} : (s.jobFields core).Wf := by
  unfold State.jobFields
  split
  · exact hs
  · exact hs.modCore

theorem State.Wf.cfgldCompletion {s : State} (hs : s.Wf) {k : Nat} : (cfgldCompletion k s).Wf := by
  unfold Machine.cfgldCompletion
  split
  · refine .ite hs.dropPkt.modCore.unloadDone ?_
    split
    · exact hs
    · exact hs
    · exact hs.dropPkt.cfgUnread
    · extract_lets
      split
      · exact hs.dropPkt.touchRange.configure.modCore.cfgDone
      · exact hs.dropPkt.touchRange.configure.modCore.jobFields.setCredits.cfgDone
  · exact hs

/-! ### Operations of Machine/Monitor.lean -/

theorem State.Wf.monitorSample {s : State} (hs : s.Wf) {u : MonUnit} {x : Nat} : (monitorSample u x s).Wf := by
  unfold Machine.monitorSample
  extract_lets
  split
  · exact hs.modCore
  · exact hs.modCore
  · exact hs.modDie

/-! ### Operations of Machine/Rdma.lean -/

theorem State.Wf.rdmaLines {s : State} (hs : s.Wf) {asid : Nat} {data : List Byte} {l : List (Word × Nat)} :
    (s.rdmaLines asid data l).Wf := by
  induction l generalizing s data with
  | nil => exact hs.emitOut
  | cons e l ih =>
    unfold State.rdmaLines
    split
    · exact hs.emitOut
    · exact hs.emitOut.ite (ih hs.writeEngine.touchPage)

theorem State.Wf.rdmaWrite {s : State} (hs : s.Wf) {qpn rkey va : Nat} {data : List Byte} :
    (rdmaWrite qpn rkey va data s).Wf := by
  unfold Machine.rdmaWrite
  refine .ite hs ?_
  split
  · exact hs.emitOut
  · exact .ite hs hs.rdmaLines

theorem State.Wf.rdmaRead {s : State} (hs : s.Wf) {qpn rkey va len : Nat} : (rdmaRead qpn rkey va len s).Wf := by
  unfold Machine.rdmaRead
  refine .ite hs ?_
  split
  · exact hs.emitOut
  · split
    · exact hs.emitOut
    · exact hs.touchRange.emitOut

theorem State.Wf.rdmaSend {s : State} (hs : s.Wf) {qpn : Nat} {p : BitVec 128} : (rdmaSend qpn p s).Wf := by
  unfold Machine.rdmaSend
  refine .ite hs ?_
  split
  · exact hs.emitOut
  · refine .ite hs.send.emitOut ?_
    split
    · exact hs.emitOut
    · exact hs.send.emitOut

/-! ### Operations of Machine/Startup.lean -/

theorem State.Wf.powerOn {s : State} : s.powerOn.Wf :=
  State.Wf.reset

theorem State.Wf.countFail {s : State} (hs : s.Wf) : s.countFail.Wf :=
  hs

theorem State.Wf.start {s : State} : (Machine.start s).Wf :=
  State.Wf.reset

theorem State.Wf.failStart {s : State} (hs : s.Wf) {die code detail : Nat} : (s.failStart die code detail).Wf :=
  .ite hs hs.of_mem.countFail

theorem State.Wf.setLinks {s : State} (hs : s.Wf) : s.setLinks.Wf :=
  hs

theorem State.Wf.loadMaps {s : State} (hs : s.Wf) : s.loadMaps.Wf :=
  (((hs.foldl fun _ _ h' => h'.modDie).foldl fun _ _ h' => h'.modCluster).foldl fun _ _ h' => h'.modDie).foldl
    fun _ _ h' => h'.loadKey

theorem State.Wf.bootSteward {s : State} (hs : s.Wf) {die : Nat} : (s.bootSteward die).Wf :=
  hs.of_puts.setCore

theorem State.Wf.logStart {s : State} (hs : s.Wf) : s.logStart.Wf :=
  .ite hs hs.logErr

theorem State.Wf.startStewards {s : State} (hs : s.Wf) : s.startStewards.Wf :=
  hs.logStart.foldl fun _ _ h' => h'.bootSteward

theorem State.Wf.completeStart {s : State} (hs : s.Wf) : s.completeStart.Wf :=
  hs

theorem State.Wf.atStage {s : State} (hs : s.Wf) {n : Nat} : State.Wf { s with stage := n } :=
  hs

theorem State.Wf.nextStage {s : State} (hs : s.Wf) : s.nextStage.Wf := by
  unfold State.nextStage
  split
  · exact .ite hs hs.failStart
  · exact .ite hs.failStart <| .ite hs.atStage.startStewards hs
  · exact hs.of_mem.setLinks
  · exact hs
  · exact .ite hs.loadMaps.atStage.startStewards hs.failStart
  · exact hs
  · exact hs.completeStart
  · exact hs

theorem State.Wf.retireDlink {s : State} (hs : s.Wf) {l code : Nat} : (s.retireDlink l code).Wf :=
  hs.of_mem.logErr

theorem State.Wf.startStage {s : State} (hs : s.Wf) {r : StageEnd} : (startStage r s).Wf := by
  unfold Machine.startStage
  split
  · exact hs.nextStage
  · exact .ite hs.retireDlink hs
  · exact .ite hs.failStart hs

theorem State.Wf.stageWatchdog {s : State} (hs : s.Wf) : (stageWatchdog s).Wf :=
  .ite hs.failStart hs

theorem State.Wf.stewardReadyTimeout {s : State} (hs : s.Wf) {die : Nat} : (stewardReadyTimeout die s).Wf :=
  .ite hs.failStart hs

theorem State.Wf.ethernetTimeout {s : State} (hs : s.Wf) {port : Nat} : (ethernetTimeout port s).Wf :=
  .ite hs.failStart hs

theorem State.Wf.minimalModeExit {s : State} (hs : s.Wf) : (minimalModeExit s).Wf :=
  .ite State.Wf.start hs

theorem State.Wf.managed {s : State} (hs : s.Wf) {f : State → State} (hf : (f s).Wf) : (s.managed f).Wf :=
  .ite (hf ..) hs

theorem State.Wf.stewardRestart {s : State} (hs : s.Wf) {die : Nat} : (stewardRestart die s).Wf :=
  .ite (State.Wf.elim hs fun _ => hs.discardHeld).of_mem.modCore hs

theorem State.Wf.linksBack {s : State} (hs : s.Wf) {links : List LinkId} : (s.linksBack links).Wf :=
  hs.foldl fun _ _ h' => h'.redBack

theorem State.Wf.clearHealth {s : State} (hs : s.Wf) {die offset : Nat} {mask : BitVec 32} :
    (s.clearHealth die offset mask).Wf :=
  .ite hs.of_mem.modCluster.linksBack <| .ite hs.of_mem.modDie <| .ite hs.of_mem.linksBack hs

theorem State.Wf.healthMapClear {s : State} (hs : s.Wf) {die offset : Nat} {mask : BitVec 32} :
    (healthMapClear die offset mask s).Wf :=
  hs.managed hs.clearHealth

theorem State.Wf.imageKeyReplace {s : State} (hs : s.Wf) {key : List Byte} : (imageKeyReplace key s).Wf :=
  hs.managed hs

theorem State.Wf.configurationRecordReplace {s : State} (hs : s.Wf) {dx dy dz device : Nat} :
    (configurationRecordReplace dx dy dz device s).Wf :=
  .ite hs hs

theorem State.Wf.firmwareReplace {s : State} (hs : s.Wf) {which : Firmware} {image : SignedImage} :
    (firmwareReplace which image s).Wf :=
  hs.managed hs

theorem State.Wf.touchImage {s : State} (hs : s.Wf) : s.touchImage.Wf :=
  hs.touchPlains

theorem State.Wf.verifyImageResult {s : State} (hs : s.Wf) : (verifyImageResult s).Wf :=
  .ite hs.touchImage hs

theorem State.Wf.spdmAnswer {s : State} (hs : s.Wf) {inTurn : Bool} {f : State → State} (hf : (f s).Wf) :
    (s.spdmAnswer inTurn f).Wf :=
  .ite hs <| .ite (hf ..) hs.emitOut

theorem State.Wf.getVersion {s : State} (hs : s.Wf) : (getVersion s).Wf :=
  hs.spdmAnswer hs.of_mem.emitOut

theorem State.Wf.getCapabilities {s : State} (hs : s.Wf) : (getCapabilities s).Wf :=
  hs.spdmAnswer hs.of_mem.emitOut

theorem State.Wf.negotiateAlgorithms {s : State} (hs : s.Wf) : (negotiateAlgorithms s).Wf :=
  hs.spdmAnswer hs.of_mem.emitOut

theorem State.Wf.getCertificate {s : State} (hs : s.Wf) {offset len : Nat} : (getCertificate offset len s).Wf :=
  hs.spdmAnswer hs.emitOut

theorem State.Wf.signedOut {s : State} (hs : s.Wf) {code : Nat} {body : List Byte} : (s.signedOut code body).Wf :=
  .ite hs.emitOut hs.of_mem.emitOut

theorem State.Wf.challenge {s : State} (hs : s.Wf) {nonce : Rec} : (challenge nonce s).Wf :=
  hs.spdmAnswer hs.signedOut

theorem State.Wf.getMeasurements {s : State} (hs : s.Wf) {nonce : Rec} {signed : Bool} :
    (getMeasurements nonce signed s).Wf :=
  hs.spdmAnswer (State.Wf.ite hs.signedOut hs.emitOut)

theorem State.Wf.powerMeasurement {s : State} (hs : s.Wf) {watts tmax droop : Nat} :
    (powerMeasurement watts tmax droop s).Wf :=
  hs

/-! ### Operations of Machine/Recover.lean -/

theorem State.Wf.linkRecord {s : State} (hs : s.Wf) {link : LinkId} {code unit retry : Nat} {receiver : Bool} :
    (s.linkRecord link code unit retry receiver).Wf := by
  unfold State.linkRecord
  split
  · exact hs.logErr
  · exact hs.logErr

theorem State.Wf.countReplay {s : State} (hs : s.Wf) {link : LinkId} : (s.countReplay link).Wf :=
  .ite hs.modDie.modDie.linkRecord.redLost hs.modDie

theorem State.Wf.reroute {s : State} (hs : s.Wf) {link : LinkId} : (s.reroute link).Wf :=
  hs

theorem State.Wf.retireLink {s : State} (hs : s.Wf) {link : LinkId} : (s.retireLink link).Wf := by
  unfold State.retireLink
  refine State.Wf.redLost ?_
  split
  · exact hs.reroute.retireBit.linkRecord
  · exact hs.reroute.retireDlink

theorem State.Wf.linkReplay {s : State} (hs : s.Wf) {link : LinkId} {corrected : Bool} :
    (linkReplay link corrected s).Wf := by
  unfold Machine.linkReplay
  refine .ite hs ?_
  refine .ite ?_ hs.retireLink
  refine State.Wf.countReplay ?_
  split
  · exact hs.linkRecord.setFlag
  · exact hs.linkRecord

theorem State.Wf.linkDegradationClear {s : State} (hs : s.Wf) {link : LinkId} : (linkDegradationClear link s).Wf :=
  hs.managed hs.modDie.redBack

theorem State.Wf.heldPacketRelease {s : State} (hs : s.Wf) {k : Nat} : (heldPacketRelease k s).Wf := by
  unfold Machine.heldPacketRelease
  split
  · exact hs
  · exact .ite hs hs

theorem State.Wf.blockLost {s : State} (hs : s.Wf) {cluster job : Nat} {isK : Bool} {o : Nat} :
    (s.blockLost cluster job isK o).Wf := by
  unfold State.blockLost
  split
  · exact hs
  · exact .ite hs hs.modJob.failCopy

theorem State.Wf.refusePacket {s : State} (hs : s.Wf) {p : Packet} : (s.refusePacket p).Wf := by
  unfold State.refusePacket
  extract_lets
  split
  · exact hs.sendResp
  · exact hs.sendResp
  · exact hs.sendResp
  · exact hs.sendResp
  · exact hs.sendResp
  · exact hs.failSource
  · split
    · exact hs.failUse
    · exact hs.failSource
  · exact hs.blockLost
  · exact hs.refuseToken

theorem State.Wf.kerfGuardDrop {s : State} (hs : s.Wf) {k : Nat} : (kerfGuardDrop k s).Wf := by
  unfold Machine.kerfGuardDrop
  split
  · exact hs
  · split
    · exact hs
    · exact .ite hs hs.dropPkt.kerfDrop.refusePacket

theorem State.Wf.noRouteDrop {s : State} (hs : s.Wf) {k : Nat} : (noRouteDrop k s).Wf := by
  unfold Machine.noRouteDrop
  split
  · exact hs
  · exact .ite hs hs.dropPkt.noRouteNote.refusePacket

theorem State.Wf.poisonWords {s : State} (hs : s.Wf) {ws : List Nat} : (s.poisonWords ws).Wf :=
  hs

theorem State.Wf.poisonLine {s : State} (hs : s.Wf) {pa : Nat} : (s.poisonLine pa).Wf :=
  hs.poisonWords

theorem State.Wf.retireWay {s : State} (hs : s.Wf) {cluster : Nat} : (s.retireWay cluster).Wf :=
  .ite (State.Wf.setFlag (State.Wf.trimSlice (State.Wf.of_mem hs))) hs

theorem State.Wf.noteError {s : State} (hs : s.Wf) {e : ErrInfo} {retry : Nat} : (s.noteError e retry).Wf :=
  hs.logErr.setFlag

theorem State.Wf.pressFails {s : State} (hs : s.Wf) {e : ErrInfo} {core : Nat} : (s.pressFails e core).Wf := by
  unfold State.pressFails
  split
  · exact hs
  · exact hs.modPress.retireJob.retireBit.logErr.faultToken

theorem State.Wf.dropLine {s : State} (hs : s.Wf) {pa : Nat} : (s.dropLine pa).Wf :=
  .ite hs.evictLine.poisonLine hs.evictLine

theorem State.Wf.atomicFails {s : State} (hs : s.Wf) {e : ErrInfo} {k : Nat} {r : Req} : (s.atomicFails e k r).Wf :=
  hs.dropPkt.poisonWords.logErr.faultToken.retireWay.sendResp

theorem State.Wf.lasting {s : State} (hs : s.Wf) {e : ErrInfo} {a : ErrorArray} : (s.lasting e a).Wf := by
  unfold State.lasting
  split
  · exact hs.setSide.logErr.retireCore
  · exact hs.pressFails
  · exact hs.pressFails
  · exact hs.logErr.poisonLine.retireWay
  · exact hs.logErr.dropLine.retireWay
  · exact hs.logErr.poisonLine
  · exact (State.Wf.elim hs fun _ => hs.faultFiring).retireCore
  · exact hs.logErr.modCore.retireCore
  · exact hs
  · exact State.Wf.elim hs fun _ => hs.atomicFails

theorem State.Wf.uncorrectableError {s : State} (hs : s.Wf) {a : ErrorArray} {how : ErrorEnd} :
    (uncorrectableError a how s).Wf := by
  unfold Machine.uncorrectableError
  split
  · exact hs
  · split
    · exact .ite hs.noteError hs
    · exact hs.noteError
    · exact hs.lasting

theorem State.Wf.stallFrame {s : State} (hs : s.Wf) {core i : Nat} : (s.stallFrame core i).Wf := by
  unfold State.stallFrame
  refine .ite hs ?_
  split
  · exact hs
  · exact hs.logErr.setFlag.modFrame

theorem State.Wf.stallJob {s : State} (hs : s.Wf) {q : JobQueue} {id : Nat} : (s.stallJob q id).Wf := by
  unfold State.stallJob
  split
  · exact hs
  · exact .ite hs hs.logErr.setFlag.modJob

theorem State.Wf.stallDetection {s : State} (hs : s.Wf) {obj : StallObject} : (stallDetection obj s).Wf := by
  unfold Machine.stallDetection
  split
  · exact hs.stallFrame
  · exact hs.stallJob

/-! ### Operations of Machine/Peer.lean -/

theorem State.Wf.takePeer {s : State} (hs : s.Wf) {dev : Nat} {p : Packet} : optWf (s.takePeer dev p) := by
  unfold State.takePeer
  split
  · exact hs.landBlock
  · exact hs.modJob
  · exact hs.redTree
  · exact hs.redReady
  · exact hs.endUnits
  · exact State.Wf.ite hs.failUse hs
  · exact State.Wf.ite hs hs.cutTree
  · exact hs.cutUnits
  · exact hs.holdWait
  · exact hs.putStatus
  · exact trivial

theorem State.Wf.peerArrival {s : State} (hs : s.Wf) {p : Packet} : (peerArrival p s).Wf := by
  unfold Machine.peerArrival
  split
  · refine .ite hs ?_
    split
    next e =>
      exact (hs.takePeer.of_some e)
    · exact hs
  · exact hs

theorem State.Wf.peerDepart {s : State} (hs : s.Wf) {k : Nat} : (peerDepart k s).Wf := by
  unfold Machine.peerDepart
  split
  · exact hs
  · split
    · exact hs
    · exact hs.dropPkt.emitOut
    · exact hs

/-! ### Every instruction and every event -/

/-- Every instruction and every event keeps the canonical form of memory. -/
theorem State.Wf.exec {s : State} (hs : s.Wf) {i : Instr} : nextWf (exec i s) := by
  unfold Machine.exec
  cases i with
  | nop => exact hs.issue fun _ => hs
  | endf => exact hs.issue fun _ => hs.endFiring
  | trap => exact hs.issue fun _ => .ite hs.logErr trivial
  | halt => exact hs.stewardIssue fun _ => .ite hs.modCore trivial
  | roinv | lgstop | fence | trel | jcan | cancel => exact hs.issue fun _ => hs.onlyHold
  | cont => exact hs.issue fun _ => .ite trivial hs.endFiring
  | csrr => exact hs.csrOp fun _ => hs.csrDraw.setFiring
  | csrw => exact hs.csrOp fun _ => hs.csrWrite
  | csrs => exact hs.csrOp fun _ => hs.csrDraw.csrWrite.setFiring
  | li | sel | fself | fidx | vcmp | vsel | vperm | vbcast | vext | vins | vred | tstat | jstat | ingq =>
    exact hs.issue fun _ => hs.onlyFiring
  | lih | addi | andi | ori | xori | shli | shri | srai | clz | popc => exact hs.intOp1
  | add | sub | mul | mulh | div | divu | rem | and | or | xor | shl | shr | sra | min | max | slt | sltu =>
    exact hs.intOp
  | br => exact hs.issue fun _ => .ite hs hs
  | jmpi => exact hs.stewardIssue fun _ => hs
  | fld => exact hs.issue fun _ => .ite trivial (.ite trivial hs.setFiring)
  | fst => exact hs.issue fun _ => .ite trivial (.ite trivial hs.setFwords)
  | falloc => exact hs.execFalloc
  | ffree => exact hs.issue fun _ => .ite trivial hs.hold
  | slotset | slotarm | slotdis => exact hs.issue fun _ => .slotBody fun _ => hs.onlyHold
  | slotrd => exact hs.issue fun _ => .slotBody fun _ => hs.onlyFiring
  | send | sendv | sig | sigReg => exact hs.issue fun _ => hs.sendBody
  | chpop => exact hs.issue fun _ => .readBody fun _ _ => hs.setFiring.hold
  | chpeek => exact hs.execChpeek
  | chpush | chend | chrcfg => exact hs.issue fun _ => hs.outBody
  | lgen => exact hs.issue fun _ => .ite hs.setFiring.hold trivial
  | launch => exact hs.execLaunch
  | ld => exact hs.execLd
  | st | stt | pst => exact hs.issue fun _ => hs.storeBody
  | lds | ldro => exact hs.issue fun _ => hs.splitBody
  | aadd | aand | aor | axor | amin | amax | aswap | afadd | acas => exact hs.atomic
  | hpdef | hpput | hpwait | turndef | reddef | redput | pbdef => exact hs.collective
  | turngo | mxldw | mxstrm | mxgang | mxrd | mxscan | cpy | cpym | cpyx | gath => exact hs.issue fun _ => hs.jobBody
  | publ | ctld | tdef => exact hs.issue fun _ => .ite hs.hold trivial
  | vadd | vsub | vmul | vfma | vfms | vmin | vmax | vdiv | vsqrt | vrcp | vrsq | vexp2 | vlog2 => exact hs.varith
  | viadd | visub | vimul | vand | vor | vxor | vshl | vshr | vsra => exact hs.vint
  | vcvt | vdec | venc => exact hs.issue fun _ => .ite trivial hs.setFiring
  | mxfmt | mxepi | mxclr => exact hs.pressCommand
  | ings => exact hs.execIngs
  | rplay | tlbinv => exact hs.stewardIssue fun _ => hs.onlyHold
  | codeseal | place | cfgld => exact hs.privCommand
  | commitQueueRelease => exact hs.commitQueueRelease
  | dispatch => exact hs.dispatch
  | ageing => exact hs.ageing
  | frameTokenArrival => exact hs.frameTokenArrival
  | channelTokenArrival => exact hs.channelTokenArrival
  | creditReturn => exact hs.creditReturn
  | homeAccess => exact hs.homeAccess
  | loadCompletion => exact hs.loadCompletion
  | atomicCompletion => exact hs.atomicCompletion
  | storeAcknowledgement => exact hs.storeAcknowledgement
  | hostResponse => exact hs.hostResponse
  | continuationPush => exact hs.tryCont
  | spilledArrival => exact hs.spilledArrival
  | writeBackComplete => exact hs.writeBackComplete
  | fillBackStart => exact hs.fillBackStart
  | fillBackComplete => exact hs.fillBackComplete
  | generatorEmit => exact hs.generatorEmit
  | lgenArrival => exact hs.lgenArrival
  | launchAtTarget => exact hs.launchAtTarget
  | workCounterUpdate => exact hs.workCounterUpdate
  | purge => exact hs.purge
  | purgeAcknowledgement => exact hs.purgeAcknowledgement
  | descriptorFetchComplete => exact hs.descriptorFetchComplete
  | jobIssue => exact hs.jobIssue
  | pressJobRetire => exact hs.pressJobRetire
  | copyLineWrite => exact hs.copyLineWrite
  | copySourceRelease => exact hs.copySourceRelease
  | copyVisibleCompletion => exact hs.copyVisibleCompletion
  | mxrdTokenSend => exact hs.mxrdTokenSend
  | reconfigRelocation => exact hs.reconfigRelocation
  | checkpointPass => exact hs.checkpointPass
  | spillRingAppend => exact hs.spillRingAppend
  | monitorSample => exact hs.monitorSample
  | publHoldEnd => exact hs.publHoldEnd
  | walkCompletion => exact hs.walkCompletion
  | placeArrival => exact hs.placeArrival
  | codesealScan => exact hs.codesealScan
  | cfgldCompletion => exact hs.cfgldCompletion
  | tlbinvAcknowledgement => exact hs.tlbinvAcknowledgement
  | definitionReport => exact hs.definitionReport
  | reductionChunk => exact hs.reductionChunk
  | hoopDecision => exact hs.hoopDecision
  | turnGrantArrival => exact hs.turnGrantArrival
  | blockLanding => exact hs.blockLanding
  | slotRegrant => exact hs.slotRegrant
  | absenceNotice => exact hs.absenceNotice
  | presenceNotice => exact hs.presenceNotice
  | holdExpiry => exact hs.holdExpiry
  | ingestToken => exact hs.ingestToken
  | quarantine => exact hs.quarantine
  | ingestWatchdog => exact hs.ingestWatchdog
  | rdmaWrite => exact hs.rdmaWrite
  | rdmaRead => exact hs.rdmaRead
  | rdmaSend => exact hs.rdmaSend
  | jobSubmission => exact hs.jobSubmission
  | getVersion => exact hs.getVersion
  | getCapabilities => exact hs.getCapabilities
  | negotiateAlgorithms => exact hs.negotiateAlgorithms
  | getCertificate => exact hs.getCertificate
  | challenge => exact hs.challenge
  | getMeasurements => exact hs.getMeasurements
  | stewardRestart => exact hs.stewardRestart
  | healthMapClear => exact hs.healthMapClear
  | imageKeyReplace => exact hs.imageKeyReplace
  | configurationRecordReplace => exact hs.configurationRecordReplace
  | firmwareReplace => exact hs.firmwareReplace
  | minimalModeExit => exact hs.minimalModeExit
  | start => exact State.Wf.start
  | startStage => exact hs.startStage
  | stageWatchdog => exact hs.stageWatchdog
  | stewardReadyTimeout => exact hs.stewardReadyTimeout
  | ethernetTimeout => exact hs.ethernetTimeout
  | powerMeasurement => exact hs.powerMeasurement
  | verifyImage => exact hs.verifyImage
  | verifyImageResult => exact hs.verifyImageResult
  | logAppend => exact hs.logAppend
  | firstxEmpty => exact hs.csrWrite
  | logOverflowClear => exact hs.logOverflowClear
  | clusterFlagClear => exact hs.clusterFlagClear
  | kerfrepClear | qringOverflowClear => exact hs.modDie
  | throttleFlagClear => exact hs
  | monitorClear => exact hs.monitorClear
  | replayPurge => exact hs.replayPurge
  | debugStop => exact hs.debugStop
  | debugStep => exact hs.debugStep
  | debugResume => exact hs.debugResume
  | registerWrite => exact hs.registerWrite
  | stallDetection => exact hs.stallDetection
  | drainTimeout => exact hs.drainTimeout
  | linkReplay => exact hs.linkReplay
  | heldPacketRelease => exact hs.heldPacketRelease
  | kerfGuardDrop => exact hs.kerfGuardDrop
  | noRouteDrop => exact hs.noRouteDrop
  | refusalAcknowledgement => exact hs.refusalAcknowledgement
  | voteDecision => exact hs.voteDecision
  | uncorrectableError => exact hs.uncorrectableError
  | checkpointInjection => exact hs.checkpointInjection
  | linkDegradationClear => exact hs.linkDegradationClear

/-! ### One step -/

theorem State.Wf.issueStep {s : State} (hs : s.Wf) : nextWf (issueStep s) := by
  unfold Machine.issueStep
  split
  · exact hs
  · refine .ite hs ?_
    split
    · exact hs.takeFault
    · split
      · exact hs.exec
      · exact trivial

theorem State.Wf.moveStep {s : State} (hs : s.Wf) {m : Move} : nextWf (moveStep m s) := by
  unfold Machine.moveStep
  split
  · exact hs.tick.turn.issueStep
  · exact .ite hs.tick.exec hs.tick
  · exact hs.tick.peerArrival
  · exact hs.tick.peerDepart

theorem State.Wf.step {s : State} (hs : s.Wf) : nextWf (step s) := by
  unfold Machine.step
  split
  · exact hs.tick.issueStep
  · exact State.Wf.moveStep hs.of_mem

/-- Settles O57: a step is one move, and each operation that a move is made of keeps the canonical form of memory. -/
theorem stepsKeepMemoryCanonical : Obligations.StepsKeepMemoryCanonical :=
  fun _ _ hs e => hs.step.of_next e

end Sys2Proof.Machine


/-! LD: the bytes of its value, the order of the stores that it forwards from, and what its issue does (R128, R236, R237). -/

namespace Sys2Proof.Machine

/-! ### Little-endian numbers and their bytes (R19) -/

theorem leNat_lt (l : List Byte) : leNat l < 256 ^ l.length := by
  induction l with
  | nil => simp [leNat]
  | cons b t ih =>
    have hb : b.toNat < 256 := b.isLt
    rw [leNat, List.length_cons, Nat.pow_succ]
    omega

/-- Digit j in base 256 of the number that bytes hold is byte j, and 0 past the last byte. -/
theorem leNat_digit (l : List Byte) (j : Nat) : leNat l / 256 ^ j % 256 = (l[j]?.getD 0).toNat := by
  induction j generalizing l with
  | zero =>
    cases l with
    | nil => rfl
    | cons b t =>
      have hb : b.toNat < 256 := b.isLt
      simp only [leNat, Nat.pow_zero, Nat.div_one, List.getElem?_cons_zero, Option.getD_some]
      omega
  | succ j ih =>
    cases l with
    | nil => simp [leNat]
    | cons b t =>
      have hb : b.toNat < 256 := b.isLt
      have hd : (b.toNat + 256 * leNat t) / 256 = leNat t := by omega
      rw [leNat, Nat.pow_succ', ← Nat.div_div_eq_div_mul, hd, ih, List.getElem?_cons_succ]

/-- Byte j of a word of n bytes that holds at most as many. -/
theorem extractByte_leNat {l : List Byte} {n : Nat} (hl : l.length ≤ n) (j : Nat) :
    (BitVec.ofNat (8 * n) (leNat l)).extractLsb' (8 * j) 8 = l[j]?.getD 0 := by
  have hlt : leNat l < 2 ^ (8 * n) := by
    calc leNat l < 256 ^ l.length := leNat_lt l
      _ ≤ 256 ^ n := Nat.pow_le_pow_right (by decide) hl
      _ = 2 ^ (8 * n) := (Nat.pow_mul 2 8 n).symm
  apply BitVec.eq_of_toNat_eq
  rw [BitVec.extractLsb'_toNat, BitVec.toNat_ofNat, Nat.mod_eq_of_lt hlt, Nat.shiftRight_eq_div_pow, Nat.pow_mul]
  exact leNat_digit l j

theorem memBytes_eq_map (m : List Host.Cell) (a n : Nat) :
    memBytes m a n = (List.range n).map (fun j => memByte m (a + j)) := by
  induction n generalizing a with
  | zero => rfl
  | succ n ih =>
    rw [memBytes, ih, List.range_succ_eq_map, List.map_cons, List.map_map]
    simp [Function.comp_def, Nat.add_comm, Nat.add_left_comm]

/-! ### The stores that a load forwards from (R48, R128 rule 5) -/

/-- The held action is a store of w's offset, size and data into the own local SRAM. -/
def HeldStores (s : State) (core : Nat) (h : Held) (w : FwdStore) : Prop :=
  ∃ (k : AccKind) (va : Word) (side : Byte) (fm sl : Nat),
    h.act = .access k va w.size w.data side fm sl ∧ (k = .st ∨ k = .stt ∨ k = .pst) ∧ s.ownOfs core va = some w.ofs

/-- The request is a store of w's offset, size and data into the own local SRAM. -/
def ReqStores (s : State) (core : Nat) (r : Req) (w : FwdStore) : Prop :=
  s.ownOfs core r.va = some w.ofs ∧ r.size = w.size ∧ r.data = w.data

/-- The store covers the byte at an offset. -/
def FwdStore.Hits (w : FwdStore) (o : Nat) : Prop := w.ofs ≤ o ∧ o < w.ofs + w.size

theorem FwdStore.covers_iff {w : FwdStore} {o : Nat} : w.covers o = true ↔ w.Hits o := by
  simp [FwdStore.covers, FwdStore.Hits]

theorem AccKind.isStore_iff {k : AccKind} : k.isStore = true ↔ k = .st ∨ k = .stt ∨ k = .pst := by
  cases k <;> simp [AccKind.isStore]

/-- What forwarding makes of a held store: w with the action's side-band. -/
theorem HeldStores.heldFwd {s : State} {core : Nat} {h : Held} {w : FwdStore} (hw : HeldStores s core h w) :
    ∃ side, heldFwd s core h = some { w with side := side } := by
  obtain ⟨k, va, side, fm, sl, ha, hk, ho⟩ := hw
  exact ⟨side, by simp [Machine.heldFwd, ha, AccKind.isStore_iff.2 hk, ho]⟩

theorem heldStores_of_heldFwd {s : State} {core : Nat} {h : Held} {w : FwdStore} (e : heldFwd s core h = some w) :
    HeldStores s core h w := by
  unfold heldFwd at e
  split at e
  · next k va size data side fm sl ha =>
    split at e
    · next hk =>
      obtain ⟨o, ho, rfl⟩ := Option.map_eq_some_iff.1 e
      exact ⟨k, va, side, fm, sl, ha, AccKind.isStore_iff.1 hk, ho⟩
    · cases e
  · cases e

/-- What forwarding makes of a released store: w with the request's side-band. -/
theorem ReqStores.reqFwd {s : State} {core : Nat} {r : Req} {w : FwdStore} (hw : ReqStores s core r w) :
    reqFwd s core r = some { w with side := r.side } := by
  obtain ⟨ho, hs, hd⟩ := hw
  simp [Machine.reqFwd, ho, hs, hd]

theorem reqStores_of_reqFwd {s : State} {core : Nat} {r : Req} {w : FwdStore} (e : reqFwd s core r = some w) :
    ReqStores s core r w := by
  obtain ⟨o, ho, rfl⟩ := Option.map_eq_some_iff.1 e
  exact ⟨ho, rfl, rfl⟩

/-- The stores youngest first: those held, from the queue's tail, and then those in flight, the last released first. -/
theorem State.fwdStores_eq (s : State) (core : Nat) :
    s.fwdStores core = (s.core core).queue.reverse.filterMap (heldFwd s core) ++
      (s.inflightStores core).reverse.filterMap (reqFwd s core) := by
  simp [State.fwdStores]

/-! Requests in flight stand in the order of their numbers. -/

theorem mem_insertReq {r x : Req} {l : List Req} : x ∈ insertReq r l ↔ x = r ∨ x ∈ l := by
  induction l with
  | nil => simp [insertReq]
  | cons q t ih =>
    unfold insertReq
    split
    · simp
    · simp [ih, or_left_comm]

theorem insertReq_pairwise {r : Req} {l : List Req} (hl : l.Pairwise (fun a b => a.id ≤ b.id)) :
    (insertReq r l).Pairwise (fun a b => a.id ≤ b.id) := by
  induction l with
  | nil => simp [insertReq]
  | cons q t ih =>
    obtain ⟨hq, ht⟩ := List.pairwise_cons.1 hl
    unfold insertReq
    split
    · next hle =>
      refine List.pairwise_cons.2 ⟨fun x hx => ?_, hl⟩
      rcases List.mem_cons.1 hx with rfl | hx
      · exact hle
      · exact hle.trans (hq x hx)
    · next hgt =>
      refine List.pairwise_cons.2 ⟨fun x hx => ?_, ih ht⟩
      rcases mem_insertReq.1 hx with rfl | hx
      · omega
      · exact hq x hx

theorem foldr_insertReq_pairwise (l : List Req) : (l.foldr insertReq []).Pairwise (fun a b => a.id ≤ b.id) := by
  induction l with
  | nil => exact .nil
  | cons r t ih => exact insertReq_pairwise ih

theorem State.inflightStores_pairwise (s : State) (core : Nat) :
    (s.inflightStores core).Pairwise (fun a b => a.id ≤ b.id) := foldr_insertReq_pairwise _

/-! ### One byte of LD's value (R237) -/

theorem find?_filterMap_of_first {α β : Type} {f : α → Option β} {p : β → Bool} {before after : List α} {x : α} {w : β}
    (hx : f x = some w) (hw : p w = true) (hb : ∀ y ∈ before, ∀ v, f y = some v → p v ≠ true) :
    ((before ++ x :: after).filterMap f).find? p = some w := by
  rw [List.filterMap_append, List.find?_append, List.find?_eq_none.2, Option.none_or, List.filterMap_cons_some hx,
    List.find?_cons_of_pos hw]
  intro v hv
  obtain ⟨y, hy, e⟩ := List.mem_filterMap.1 hv
  exact hb y hy v e

theorem find?_filterMap_eq_none {α β : Type} {f : α → Option β} {p : β → Bool} {l : List α}
    (h : ∀ y ∈ l, ∀ v, f y = some v → p v ≠ true) : (l.filterMap f).find? p = none := by
  rw [List.find?_eq_none]
  intro v hv
  obtain ⟨y, hy, e⟩ := List.mem_filterMap.1 hv
  exact h y hy v e

section
variable {s : State} {core o : Nat}

/-- No held store covers the byte. -/
def NoHeldHit (s : State) (core o : Nat) : Prop := ∀ h ∈ (s.core core).queue, ∀ w, HeldStores s core h w → ¬w.Hits o

theorem NoHeldHit.find? (hn : NoHeldHit s core o) :
    ((s.core core).queue.reverse.filterMap (heldFwd s core)).find? (fun w => w.covers o) = none :=
  find?_filterMap_eq_none fun h hh w e hw =>
    hn h (List.mem_reverse.1 hh) w (heldStores_of_heldFwd e) (FwdStore.covers_iff.1 hw)

/-- The youngest held store that covers the byte gives it. -/
theorem ldByte_of_held {q rest : List Held} {h : Held} {w : FwdStore} (hq : (s.core core).queue = q ++ h :: rest)
    (hw : HeldStores s core h w) (hit : w.Hits o) (hrest : ∀ h2 ∈ rest, ∀ w2, HeldStores s core h2 w2 → ¬w2.Hits o) :
    ldByte s core (s.fwdStores core) o = w.byte o := by
  obtain ⟨side, e⟩ := hw.heldFwd
  have hf : ((s.core core).queue.reverse.filterMap (heldFwd s core)).find? (fun w => w.covers o) =
      some { w with side := side } := by
    rw [hq, List.reverse_append, List.reverse_cons, List.append_assoc]
    exact find?_filterMap_of_first e (FwdStore.covers_iff.2 hit) fun h2 hh w2 e2 hw2 =>
      hrest h2 (List.mem_reverse.1 hh) w2 (heldStores_of_heldFwd e2) (FwdStore.covers_iff.1 hw2)
  unfold ldByte
  rw [s.fwdStores_eq, List.find?_append, hf]
  rfl

/-- Where no held store covers the byte, the last released of those in flight that do gives it. -/
theorem ldByte_of_inflight {r : Req} {w : FwdStore} (hn : NoHeldHit s core o) (hr : r ∈ s.inflightStores core)
    (hw : ReqStores s core r w) (hit : w.Hits o)
    (hlast : ∀ r2 ∈ s.inflightStores core, ∀ w2, ReqStores s core r2 w2 → w2.Hits o → r2 = r ∨ r2.id < r.id) :
    ldByte s core (s.fwdStores core) o = w.byte o := by
  obtain ⟨later, earlier, hl, hnot⟩ := List.eq_append_cons_of_mem (List.mem_reverse.2 hr)
  have hsorted : ∀ r2 ∈ later, r.id ≤ r2.id := by
    have hp := List.pairwise_reverse.2 (s.inflightStores_pairwise core)
    rw [hl] at hp
    exact fun r2 h2 => (List.pairwise_append.1 hp).2.2 r2 h2 r List.mem_cons_self
  have hf : ((s.inflightStores core).reverse.filterMap (reqFwd s core)).find? (fun w => w.covers o) =
      some { w with side := r.side } := by
    rw [hl]
    refine find?_filterMap_of_first hw.reqFwd (FwdStore.covers_iff.2 hit) fun r2 h2 w2 e2 hw2 => ?_
    have hm : r2 ∈ s.inflightStores core := List.mem_reverse.1 (hl ▸ List.mem_append_left _ h2)
    rcases hlast r2 hm w2 (reqStores_of_reqFwd e2) (FwdStore.covers_iff.1 hw2) with rfl | hlt
    · exact hnot h2
    · exact absurd (hsorted r2 h2) (by omega)
  unfold ldByte
  rw [s.fwdStores_eq, List.find?_append, hn.find?, hf]
  rfl

/-- A byte that no store covers comes from the SRAM. -/
theorem ldByte_of_sram (hn : NoHeldHit s core o)
    (hr : ∀ r ∈ s.inflightStores core, ∀ w, ReqStores s core r w → ¬w.Hits o) :
    ldByte s core (s.fwdStores core) o = memByte s.mem (winAddr core o) := by
  have hf : ((s.inflightStores core).reverse.filterMap (reqFwd s core)).find? (fun w => w.covers o) = none :=
    find?_filterMap_eq_none fun r h w e hw =>
      hr r (List.mem_reverse.1 h) w (reqStores_of_reqFwd e) (FwdStore.covers_iff.1 hw)
  unfold ldByte
  rw [s.fwdStores_eq, List.find?_append, hn.find?, hf]
  rfl

end

/-- Byte j of LD's value is the byte that LD reads there. -/
theorem extractByte_ldValue {s : State} {core o n j : Nat} (hn : n ≤ 64) (hj : j < n) :
    (ldValue s core o n).extractLsb' (8 * j) 8 = ldByte s core (s.fwdStores core) (o + j) := by
  rw [ldValue, extractByte_leNat (n := 64) (by simpa using hn)]
  simp [hj]

/-- LD's value is zero-extended. -/
theorem extractByte_ldValue_above {s : State} {core o n j : Nat} (hn : n ≤ 64) (hj : n ≤ j) :
    (ldValue s core o n).extractLsb' (8 * j) 8 = 0#8 := by
  rw [ldValue, extractByte_leNat (n := 64) (by simpa using hn)]
  simp [hj]

/-- With no store to forward from, LD's value is the number in the SRAM. -/
theorem ldValue_of_no_store {s : State} {core : Nat} (o n : Nat) (h : s.fwdStores core = []) :
    ldValue s core o n = BitVec.ofNat 512 (leNat (memBytes s.mem (winAddr core o) n)) := by
  simp [ldValue, ldByte, h, memBytes_eq_map, winAddr, Nat.add_assoc]

/-! ### LD at issue (R236, R237, R374) -/

/-- The address lies in the own local SRAM, at which LD reads. -/
abbrev InOwnSram (va : Word) : Prop := selfBase ≤ va.toNat ∧ va.toNat < selfBase + sramSize

/-- The own local SRAM passes TRANSLATION. -/
theorem xlatFault_of_inOwnSram {va : Word} (steward : Bool) (h : InOwnSram va) : xlatFault steward false va = none := by
  obtain ⟨hlo, hhi⟩ := h
  have hc : canonical va = true := by
    unfold selfBase at hlo
    rw [canonical, beq_iff_eq]
    apply BitVec.eq_of_toInt_eq
    rw [BitVec.toInt_signExtend_of_le (by decide), BitVec.toInt_setWidth, BitVec.toInt_eq_toNat_bmod, Int.bmod, Int.bmod]
    omega
  have ho : ¬sramSize ≤ selfOfs va := by unfold selfOfs; omega
  simp [xlatFault, hc, ho]

theorem addrCheck_of_inOwnSram {s : State} {va : Word} {n : Nat} (code : Nat) (ok : Body) (h : InOwnSram va) :
    addrCheck s va n code false false ok = if va.toNat % n ≠ 0 then .trap 0x03 code (some va.toNat) else ok := by
  simp [addrCheck, xlatFault_of_inOwnSram _ h]

/-- The free value that a load of n bytes of the token pool brings (log 6). -/
def ldFreeValue (s : State) (n : Nat) : Vec := BitVec.ofNat 512 ((Config.freeVec s.fresh).toNat % 2 ^ (8 * n))

/-- What LD does behind its address checks. -/
def ldBody (s : State) (f : Firing) (t : Temp) (va : Word) (n : Nat) : Body :=
  let o := selfOfs va
  if s.loadOut s.cur then .wait
  else if s.poolRange s.cur o n then
    if poisoned s s.freeSide then .poison (some va.toNat)
    else .done (s.drawn.setFiring ((f.setT t (ldFreeValue s n)).orFlags s.freeSide))
  else if poisoned s (ldSides s s.cur o n) then .poison (some va.toNat)
  else .done (s.setFiring ((f.setT t (ldValue s s.cur o n)).orFlags (ldSides s s.cur o n)))

/-- LD as an issue: its address is checked, then its body runs. -/
theorem exec_ld (size : MemSize) (t tb : Temp) (off : BitVec 14) (s : State) :
    exec (.ld size t tb off) s = issue false (fun f s =>
      let va := memAddr f size tb off
      if InOwnSram va then addrCheck s va (memSz size) 0x02 false false (ldBody s f t va (memSz size))
      else .trap 0x05 0x02 (some va.toNat)) s := rfl

section
variable {s : State} {f : Firing} {size : MemSize} {t tb : Temp} {off : BitVec 14}

theorem execLd_of_outside (h : s.Issues f false) (hin : ¬InOwnSram (memAddr f size tb off)) :
    exec (.ld size t tb off) s = .next (s.takeFault s.cur f 0x05 0x02 (some (memAddr f size tb off).toNat)) := by
  rw [exec_ld]
  exact issue_trap _ _ _ _ _ _ _ h (if_neg hin)

theorem execLd_of_misaligned (h : s.Issues f false) (hin : InOwnSram (memAddr f size tb off))
    (hal : (memAddr f size tb off).toNat % memSz size ≠ 0) :
    exec (.ld size t tb off) s = .next (s.takeFault s.cur f 0x03 0x02 (some (memAddr f size tb off).toNat)) := by
  rw [exec_ld]
  exact issue_trap _ _ _ _ _ _ _ h (by simp only [if_pos hin, addrCheck_of_inOwnSram _ _ hin, if_pos hal])

theorem execLd_of_aligned (h : s.Issues f false) (hin : InOwnSram (memAddr f size tb off))
    (hal : (memAddr f size tb off).toNat % memSz size = 0) :
    exec (.ld size t tb off) s = .next ((ldBody s f t (memAddr f size tb off) (memSz size)).apply false f s) := by
  rw [exec_ld, issue_eq _ _ _ _ h]
  simp only [if_pos hin, addrCheck_of_inOwnSram _ _ hin, if_neg (not_not_intro hal)]

end

section
variable {s : State} {f : Firing} {t : Temp} {va : Word} {n : Nat}

/-- Data without POISON, or on a steward core, goes into the firing. -/
theorem apply_of_unpoisoned {s' : State} {g : Firing} {side : Byte} {a : Option Nat}
    (hc : isSteward s.cur = true ∨ side.getLsbD 5 = false) (hpc : g.pc = f.pc) :
    (if poisoned s side then Body.poison a else .done (s'.setFiring g)).apply false f s = s'.ran g := by
  have hp : poisoned s side = false := by
    rcases hc with h | h
    · simp [poisoned, h]
    · rw [poisoned, isPoison, h, Bool.false_and]
  simp [hp, Body.apply, State.advance, State.ran, Firing.next, b2n, hpc]

/-- Data with POISON is consumed by a tenant firing (R357). -/
theorem apply_of_poisoned {b : Body} {side : Byte} {a : Option Nat} (ht : isSteward s.cur = false)
    (hp : side.getLsbD 5 = true) : (if poisoned s side then Body.poison a else b).apply false f s = s.takePoison s.cur f a := by
  have h : poisoned s side = true := by rw [poisoned, isPoison, hp, ht, Bool.true_and, Bool.not_false]
  rw [if_pos h, Body.apply]

theorem ldBody_wait (hout : s.loadOut s.cur = true) : ldBody s f t va n = .wait := if_pos hout

theorem ldBody_pool (hout : s.loadOut s.cur = false) (hpool : s.poolRange s.cur (selfOfs va) n = true) :
    ldBody s f t va n = if poisoned s s.freeSide then .poison (some va.toNat)
      else .done (s.drawn.setFiring ((f.setT t (ldFreeValue s n)).orFlags s.freeSide)) := by
  simp [ldBody, hout, hpool]

theorem ldBody_sram (hout : s.loadOut s.cur = false) (hpool : s.poolRange s.cur (selfOfs va) n = false) :
    ldBody s f t va n = if poisoned s (ldSides s s.cur (selfOfs va) n) then .poison (some va.toNat) else .done (s.setFiring
      ((f.setT t (ldValue s s.cur (selfOfs va) n)).orFlags (ldSides s s.cur (selfOfs va) n))) := by
  simp [ldBody, hout, hpool]

end

/-- Settles O15: the issue of LD by the branches of its body, and its value byte by byte from the order in which the stores that
it forwards from are searched. -/
theorem loadsReadMemory : Obligations.LoadsReadMemory := by
  unfold Obligations.LoadsReadMemory
  refine ⟨fun s f size t tb off h => ⟨fun hin hal hout hpool => ?_, fun hin hal hout hpool => ?_, fun hin hal hout => ?_,
      fun hin hal => execLd_of_misaligned h hin hal, fun hin => execLd_of_outside h hin⟩,
    fun s core o n => ⟨ldValue_of_no_store o n, fun hn j hj _ => extractByte_ldValue_above hn hj, fun hn j hj => ?_⟩⟩
  · rw [execLd_of_aligned h hin hal, ldBody_sram hout hpool]
    exact ⟨fun hc => congrArg Host.Outcome.next (apply_of_unpoisoned hc rfl),
      fun ht hp => congrArg Host.Outcome.next (apply_of_poisoned ht hp)⟩
  · rw [execLd_of_aligned h hin hal, ldBody_pool hout hpool]
    exact ⟨ldFreeValue s (memSz size), s.freeSide, fun hc => congrArg Host.Outcome.next (apply_of_unpoisoned hc rfl),
      fun ht hp => congrArg Host.Outcome.next (apply_of_poisoned ht hp)⟩
  · rw [execLd_of_aligned h hin hal, ldBody_wait hout, Body.apply]
  · rw [extractByte_ldValue hn hj]
    exact ⟨fun _ _ _ _ hq hw hit hrest => ldByte_of_held hq hw hit hrest,
      fun _ _ hno hr hw hit hlast => ldByte_of_inflight hno hr hw hit hlast, fun hno hr => ldByte_of_sram hno hr⟩

end Sys2Proof.Machine


/-! The scheduler's events: ageing, the debugger, continuations and descriptors fetched on demand (R63 to R68, R74, R407, R410). -/

namespace Sys2Proof.Machine

/-! ### The waiting CONT (R68) -/

@[simp] theorem CoreSt.want_ready (c : CoreSt) (v : Nat) : (c.want v).ready = c.ready := by
  unfold CoreSt.want
  split <;> rfl

@[simp] theorem CoreSt.want_frames (c : CoreSt) (v : Nat) : (c.want v).frames = c.frames := by
  unfold CoreSt.want
  split <;> rfl

@[simp] theorem CoreSt.setFrame_frame (c : CoreSt) (i : Nat) (f : Frame) : (c.setFrame i f).frame i = f :=
  tabGet_tabSet_same _ _ _ _

@[simp] theorem pushReady_ready (s : State) (core : Nat) (r : Ready) :
    ((s.pushReady core r).core core).ready = (s.core core).ready ++ [{ r with since := s.cycle }] := by
  simp [State.pushReady]

@[simp] theorem pushReady_frame (s : State) (core i : Nat) (r : Ready) :
    ((s.pushReady core r).core core).frame i = (s.core core).frame i := by
  simp [State.pushReady, CoreSt.frame]

@[simp] theorem pushReady_mem (s : State) (core : Nat) (r : Ready) : (s.pushReady core r).mem = s.mem := rfl

/-- A ready entry of a frame whose words are in local SRAM enters the queue at once. -/
theorem wake_of_local {s : State} {core : Nat} {r : Ready} (h : ((s.core core).frame r.frame).state = .local) :
    s.wake core r = s.pushReady core r := by
  simp [State.wake, State.frameSpilled, h]

/-- A waiting CONT of a local frame whose limits hold, with room in the ready queue, pushes its continuation and waits no more. -/
theorem tryCont_of_local {s : State} {core i : Nat} (hf : ((s.core core).frame i).contHolds = true)
    (hl : ((s.core core).frame i).state = .local) (hr : (s.core core).ready.length < 64) :
    let f := (s.core core).frame i
    let w := s.fword core i f.contslot
    s.tryCont core i = (s.modFrame core i (fun f => { f with contwait := false })).pushReady core
      (newReady i (slotEntry w) (slotPrio w) f.contslot true) := by
  have hw : ∀ r : Ready, r.frame = i →
      (s.modFrame core i (fun f => { f with contwait := false })).wake core r =
        (s.modFrame core i (fun f => { f with contwait := false })).pushReady core r := by
    rintro r rfl
    exact wake_of_local (by simp [State.modFrame, hl])
  simp [State.tryCont, hf, hl, CoreSt.readyRoom, readyMax, hr, hw, newReady]

theorem execContinuationPush_of_local {s : State} {core i : Nat} (hf : ((s.core core).frame i).contHolds = true)
    (hl : ((s.core core).frame i).state = .local) (hr : (s.core core).ready.length < 64) :
    let f := (s.core core).frame i
    let w := s.fword core i f.contslot
    ∃ t, exec (.continuationPush core i) s = .next t ∧
      (t.core core).ready = (s.core core).ready ++
        [{ newReady i (slotEntry w) (slotPrio w) f.contslot true with since := s.cycle }] ∧
      ((t.core core).frame i).contwait = false ∧ t.mem = s.mem := by
  refine ⟨_, congrArg Host.Outcome.next (tryCont_of_local hf hl hr), ?_, ?_, rfl⟩
  · simp [State.modFrame, CoreSt.setFrame]
  · simp [State.modFrame]

/-! ### Ageing (R66) -/

/-- A ready entry older than the limit at its level goes to the tail of the next. -/
theorem ageReady_of_old {cycle n : Nat} {l : List Ready} {r : Ready} (hr : l[n]? = some r) (hp : r.prio < 3)
    (ha : 4096 < cycle - r.since) :
    ageReady cycle n l = l.eraseIdx n ++ [{ r with prio := r.prio + 1, since := cycle }] := by
  simp [ageReady, hr, hp, ageLimit, ha]

/-! ### Descriptors on demand (R63, R64) -/

section
variable {s : State} {core v : Nat}

/-- The store takes one more descriptor while it has room, and then gives up none. -/
theorem makeRoom_of_room {c : CoreSt} (h : c.descs.length < 64) : c.makeRoom = some { c with descs := c.descs } := if_pos h

/-- A full store gives up the descriptor that went longest without dispatch among those it can give up. -/
theorem makeRoom_of_full {c : CoreSt} {e : Nat × Rec} (h : 64 ≤ c.descs.length)
    (he : c.descs.find? (fun e => c.evictable e.1) = some e) :
    c.makeRoom = some { c with descs := c.descs.filter (fun x => x.1 != e.1) } := by
  simp [CoreSt.makeRoom, Nat.not_lt.2 h, he]

theorem makeRoom_of_stuck {c : CoreSt} (h : 64 ≤ c.descs.length) (he : c.descs.find? (fun e => c.evictable e.1) = none) :
    c.makeRoom = none := by
  simp [CoreSt.makeRoom, Nat.not_lt.2 h, he]

/-- The descriptor area gives what its page holds, and the read touches the page. -/
theorem areaDesc_of_read {bs : List Byte} {d : Rec} {u : State}
    (hb : s.readVirt (dieOf core) (s.core core).asid ((s.core core).areaVa v) 32 = some bs)
    (hd : d = BitVec.ofNat 256 (leNat bs))
    (hu : u = s.touchVirt (dieOf core) (s.core core).asid ((s.core core).areaVa v) 32) :
    s.areaDesc core v = some (d, u) := by
  simp [State.areaDesc, hb, hd, hu]

/-- Without the page, the area gives what CFGLD gave it (log 25). -/
theorem areaDesc_of_table {d : Rec} (hb : s.readVirt (dieOf core) (s.core core).asid ((s.core core).areaVa v) 32 = none)
    (ht : tabFind (s.core core).dareaTab v = some d) : s.areaDesc core v = some (d, s) := by
  simp [State.areaDesc, hb, ht]

/-- A fetch finds the descriptor in the cluster's cache, or else in the descriptor area; u is the state after its read. -/
def State.FetchFinds (s : State) (core v : Nat) (d : Rec) (u : State) : Prop :=
  (tabFind (s.cluster (clusterOf core)).dcache v = some d ∧ u = s) ∨
    (tabFind (s.cluster (clusterOf core)).dcache v = none ∧ s.areaDesc core v = some (d, u))

/-- A descriptor that is found and for which the store has room enters the store and the cluster's cache, and the nodes are
tested. -/
theorem descriptorFetchComplete_of_room {u : State} {d : Rec} {store : List (Nat × Rec)}
    (hv : (s.core core).fetching.contains v = true) (hd : s.FetchFinds core v d u)
    (hc : (s.core core).makeRoom = some { s.core core with descs := store }) :
    descriptorFetchComplete core v s =
      ((u.setCore core { s.core core with descs := store.filter (fun e => e.1 != v) ++ [(v, d)],
                                          fetching := (s.core core).fetching.filter (fun x => x != v) }).modCluster (clusterOf core)
        (fun k => { k with dcache := dcachePut k.dcache v d })).evalCore core := by
  rcases hd with ⟨hcache, rfl⟩ | ⟨hcache, harea⟩
  · simp only [descriptorFetchComplete, hv, hcache, hc]
  · simp only [descriptorFetchComplete, hv, hcache, harea, hc]

/-- A descriptor for which the store has no room stays outside. -/
theorem descriptorFetchComplete_of_stuck (hc : (s.core core).makeRoom = none) : descriptorFetchComplete core v s = s := by
  simp [descriptorFetchComplete, hc]

theorem exec_descriptorFetchComplete :
    exec (.descriptorFetchComplete core v) s = .next (descriptorFetchComplete core v s) := rfl

end

/-! ### The obligation -/

/-- Settles O28, event by event: the debugger and the ageing of jobs are their definitions, and the others follow from the lemmas
above on the ready queue, the waiting CONT and the descriptor store. -/
theorem schedulerEventsHappen : Obligations.SchedulerEventsHappen := by
  unfold Obligations.SchedulerEventsHappen
  intro s core n id r d
  refine ⟨fun hr hp ha => ?_, ⟨rfl, rfl, rfl⟩, rfl, fun hd => ?_, fun hw hl hr hld hst hcp htl => ?_,
    fun store hv hstore u hu => ?_, fun hv hfull hnone => ?_⟩
  case refine_1 =>
    exact congrArg (fun l => Host.Outcome.next (s.setCore core { s.core core with ready := l })) (ageReady_of_old hr hp ha)
  case refine_2 => exact congrArg Host.Outcome.next (if_pos hd)
  case refine_3 =>
    exact execContinuationPush_of_local (by simp [Frame.contHolds, hw, hld, hst, hcp, htl]) hl hr
  case refine_4 =>
    have hfind : s.FetchFinds core n d u := by
      rcases hu with hcache | ⟨hcache, ⟨bs, hbs, hd, hu⟩ | ⟨hbs, htab, rfl⟩⟩
      · exact .inl hcache
      · exact .inr ⟨hcache, areaDesc_of_read hbs hd hu⟩
      · exact .inr ⟨hcache, areaDesc_of_table hbs htab⟩
    have hroom : (s.core core).makeRoom = some { s.core core with descs := store } := by
      rcases hstore with ⟨hroom, rfl⟩ | ⟨hfull, e, he, rfl⟩
      · exact makeRoom_of_room hroom
      · exact makeRoom_of_full hfull he
    rw [exec_descriptorFetchComplete, descriptorFetchComplete_of_room hv hfind hroom]
    rfl
  case refine_5 =>
    rw [exec_descriptorFetchComplete, descriptorFetchComplete_of_stuck (makeRoom_of_stuck hfull hnone)]

end Sys2Proof.Machine


/-! Channel tokens, credits and refusals at a core (R42, R58, R63, R364, R384). -/

namespace Sys2Proof.Machine

/-! ### Channel tokens, credits and refusals (R42, R58, R63, R364, R384) -/

section
variable {s : State} {k core v port : Nat} {p : Packet} {tok : Token} {units : Int}

theorem channelTokenArrival_of_recv (hp : s.recv k = some p) (hd : p.dst = .core core) (hm : p.msg = .chan v port tok)
    (hc : s.coreClosed core = false) (hf : s.foreign p core = false) (i : Nat) (hi : (s.core core).chanOf v port = some i) :
    channelTokenArrival k s =
      ((((s.dropPkt k).modChan core i (fun ch => ch.push tok s.cycle))).modCore core (fun c => c.want v)).evalCore core := by
  simp [channelTokenArrival, hp, hd, hm, hc, hf, hi]

theorem channelTokenArrival_of_closed (hp : s.recv k = some p) (hd : p.dst = .core core) (hm : p.msg = .chan v port tok)
    (hc : s.coreClosed core = true) : channelTokenArrival k s = (s.dropPkt k).dropToken core p := by
  simp [channelTokenArrival, hp, hd, hm, hc]

/-- The refusal of a channel token, which restores its credit. -/
theorem refundToken_of_chan (hm : p.msg = .chan v port tok) :
    s.refundToken core p = s.send { src := .core core, dst := p.src, cls := .token, tenant := p.tenant,
                                    msg := .refuseTok v port tok.cost, held := false } := by
  simp [State.refundToken, hm]

theorem channelTokenArrival_of_no_channel (hp : s.recv k = some p) (hd : p.dst = .core core) (hm : p.msg = .chan v port tok)
    (hc : s.coreClosed core = false) (hf : s.foreign p core = false) (hi : (s.core core).chanOf v port = none) :
    channelTokenArrival k s = ((s.dropPkt k).logErr { coreErr 0x05 0x0D 5 core (s.tenantOf core) with vnode := v }).send
      { src := .core core, dst := p.src, cls := .token, tenant := p.tenant, msg := .refuseTok v port tok.cost, held := false } := by
  rw [← refundToken_of_chan hm]
  simp [channelTokenArrival, hp, hd, hm, hc, hf, hi]

/-- Where no pair is being rerouted, a packet sent stands last in the network as it is. -/
theorem send_getLast? {q : Packet} (hr : s.rerouting = []) (hq : q.held = false) : (s.send q).net.getLast? = some q := by
  simp [State.send, hr, ← hq]

/-- The part of a drop that is not the refusal: the record of it, and that the core has dropped a token. -/
theorem dropToken_eq_refundToken (s : State) (core : Nat) (p : Packet) :
    ∃ u : State, s.dropToken core p = u.refundToken core p ∧ (u.core core).chans = (s.core core).chans ∧
      (u.core core).dropped = true ∧ u.rerouting = s.rerouting := by
  unfold State.dropToken
  split
  · next h => exact ⟨s, rfl, rfl, (Bool.and_eq_true _ _ ▸ h).1, rfl⟩
  · exact ⟨_, rfl, by simp [State.logErr, State.logRec], by simp, rfl⟩

theorem creditReturn_of_recv (hp : s.recv k = some p) (hd : p.dst = .core core) (hm : p.msg = .credit v port units) :
    creditReturn k s = (s.dropPkt k).takeCredit core v port units := by
  obtain ⟨src, dst, cls, tenant, msg, held⟩ := p
  subst hm hd
  simp only [creditReturn, hp]

theorem refusalAcknowledgement_of_token (hp : s.recv k = some p) (hd : p.dst = .core core)
    (hm : p.msg = .refuseTok v port units) :
    refusalAcknowledgement k s = (s.dropPkt k).takeCredit core v port units := by
  obtain ⟨src, dst, cls, tenant, msg, held⟩ := p
  subst hm hd
  simp only [refusalAcknowledgement, hp]

theorem takeCredit_of_port {key : Nat} (h : (s.core core).creditKey v port = some key) :
    s.takeCredit core v port units = (s.modCore core (fun q =>
      { q with credits := tabSet q.credits key (tabGet 0 q.credits key + units) })).evalCore core := by
  simp [State.takeCredit, h, CoreSt.addCredit]

theorem takeCredit_of_no_port (h : (s.core core).creditKey v port = none) : s.takeCredit core v port units = s := by
  simp [State.takeCredit, h]

end

theorem exec_channelTokenArrival (k : Nat) (s : State) :
    exec (.channelTokenArrival k) s = .next (channelTokenArrival k s) := rfl
theorem exec_creditReturn (k : Nat) (s : State) : exec (.creditReturn k) s = .next (creditReturn k s) := rfl
theorem exec_refusalAcknowledgement (k : Nat) (s : State) :
    exec (.refusalAcknowledgement k) s = .next (refusalAcknowledgement k s) := rfl

/-- Settles O34, by what a channel token, a credit and a refusal find at their core. -/
theorem channelTokensAndCreditsArrive : Obligations.ChannelTokensAndCreditsArrive := by
  unfold Obligations.ChannelTokensAndCreditsArrive
  intro s k core v port p tok units hp hd c d r
  simp only [exec_channelTokenArrival, exec_creditReturn, exec_refusalAcknowledgement, Host.Outcome.next.injEq]
  refine ⟨fun hm hc hf => ⟨channelTokenArrival_of_recv hp hd hm hc hf, channelTokenArrival_of_no_channel hp hd hm hc hf⟩,
    fun hm hc => ?_, fun hm => ?_, fun hm => refusalAcknowledgement_of_token hp hd hm⟩
  · obtain ⟨u, hu, hchans, hdropped, hrr⟩ := dropToken_eq_refundToken d core p
    refine ⟨_, channelTokenArrival_of_closed hp hd hm hc, ?_⟩
    rw [show (s.dropPkt k).dropToken core p = _ from hu, refundToken_of_chan hm]
    exact ⟨hchans, hdropped, fun h => send_getLast? (hrr.trans h) rfl⟩
  · rw [creditReturn_of_recv hp hd hm]
    exact ⟨fun key hk => takeCredit_of_port hk, fun hk => takeCredit_of_no_port hk⟩

end Sys2Proof.Machine


/-! The error log and the registers of a CSR window (R365 to R368, R389, R407, R411, R420, R437, log 9). -/

namespace Sys2Proof.Machine

/-! ### Fields of a word after one is written -/

section
variable {w : Nat} {v : BitVec w} {lo n x : Nat}

/-- The word parted at a field: what is above it, the field, what is below. -/
theorem toNat_eq_parts (v : BitVec w) (lo n : Nat) :
    v.toNat = v.toNat / 2 ^ (lo + n) * 2 ^ (lo + n) + fieldN v lo n * 2 ^ lo + v.toNat % 2 ^ lo := by
  have hb := Nat.div_add_mod v.toNat (2 ^ lo)
  have hf := Nat.div_add_mod (v.toNat / 2 ^ lo) (2 ^ n)
  rw [Nat.div_div_eq_div_mul, ← pow_add] at hf
  rw [fieldN, pow_add, ← mul_assoc, mul_right_comm, ← add_mul, ← pow_add, mul_comm _ (2 ^ n), hf, mul_comm _ (2 ^ lo), hb]

/-- Writing a field replaces its part of the word. -/
theorem toNat_setFieldN (h : lo + n ≤ w) : (setFieldN v lo n x).toNat =
    (v.toNat / 2 ^ (lo + n) * 2 ^ n + x % 2 ^ n) * 2 ^ lo + v.toNat % 2 ^ lo := by
  have hv := toNat_eq_parts v lo n
  have hx : (x % 2 ^ n + 1) * 2 ^ lo ≤ 2 ^ (lo + n) :=
    pow_add 2 lo n ▸ mul_comm (2 ^ lo) (2 ^ n) ▸ Nat.mul_le_mul_right _ (Nat.mod_lt x (Nat.two_pow_pos n))
  have hr := Nat.mod_lt v.toNat (Nat.two_pow_pos lo)
  have hq : (v.toNat / 2 ^ (lo + n) + 1) * 2 ^ (lo + n) ≤ 2 ^ w := by
    have hw : 2 ^ w = 2 ^ (w - (lo + n)) * 2 ^ (lo + n) := by rw [← pow_add]; congr 1; omega
    exact hw ▸ Nat.mul_le_mul_right _ ((Nat.div_lt_iff_lt_mul (Nat.two_pow_pos (lo + n))).mpr (hw ▸ v.isLt))
  have hp : v.toNat / 2 ^ (lo + n) * 2 ^ n * 2 ^ lo = v.toNat / 2 ^ (lo + n) * 2 ^ (lo + n) := by
    rw [mul_assoc, ← pow_add, add_comm n]
  rw [add_mul, hp, setFieldN, BitVec.toNat_ofNat, Nat.mod_eq_of_lt] <;> grind

/-- A field reads as what was written to it. -/
theorem fieldN_setFieldN_same (h : lo + n ≤ w) : fieldN (setFieldN v lo n x) lo n = x % 2 ^ n := by
  rw [fieldN, toNat_setFieldN h, mul_comm, Nat.mul_add_div (Nat.two_pow_pos lo),
    Nat.div_eq_of_lt (Nat.mod_lt _ (Nat.two_pow_pos lo)), add_zero, Nat.mul_add_mod_self_right, Nat.mod_mod]

/-- A bit below a field stands when the field is written. -/
theorem getLsbD_setFieldN_below {j : Nat} (h : lo + n ≤ w) (hj : j < lo) : (setFieldN v lo n x).getLsbD j = v.getLsbD j := by
  rw [BitVec.getLsbD, BitVec.getLsbD, toNat_setFieldN h, mul_comm, Nat.testBit_two_pow_mul_add _ (Nat.mod_lt _ (Nat.two_pow_pos lo)),
    if_pos hj, Nat.testBit_mod_two_pow, decide_eq_true hj, Bool.true_and]

end

/-! ### The error log (R367, R437) -/

theorem append_of_room {l : ErrLog} {r : Rec} (h : l.full = false) :
    l.append r = { l with recs := tabSet l.recs l.tail r, tail := (l.tail + 1) % 256, full := (l.tail + 1) % 256 == l.head } := by
  simp [ErrLog.append, h]

theorem append_of_full {l : ErrLog} {r : Rec} (h : l.full = true) :
    l.append r = { l with ovf := true, dropped := min 65535 (l.dropped + 1) } := by
  simp [ErrLog.append, h]

/-! ### Registers of a die's CSR window (R365 to R368, R407, R411, log 9) -/

section
variable {s : State} {die i core : Nat} {v : Word}

theorem registerWrite_resctl : registerWrite die 0x300 v s = s.modDie die (fun d => { d with resctl := resctlOf v }) := by
  simp [registerWrite, State.regWrite]

theorem registerWrite_clusterFlags :
    registerWrite die 0x2000 v s = s.modCluster (die * 120) (fun k => { k with flags := k.flags &&& ~~~(v.setWidth 8) }) := by
  simp [registerWrite, State.regWrite]

theorem registerWrite_aligned {o : Nat} (h : o % 8 = 0) : registerWrite die o v s = s.regWrite die o v v := by
  rw [registerWrite, Nat.div_mul_cancel (Nat.dvd_of_mod_eq_zero h)]

theorem registerWrite_root (h : i < 4096) : registerWrite die (0x300000 + 8 * i) v s =
    s.modDie die (fun d => { d with roots := tabSet d.roots i (v.toNat % 2 ^ 52) }) := by
  rw [registerWrite_aligned (by omega), State.regWrite]
  simp (disch := omega) only [if_neg, if_pos, show (0x300000 + 8 * i - 0x300000) / 8 = i by omega]

theorem registerWrite_debug (h : core < 2048) : registerWrite die (0x10000 + 8 * core) v s = s.debugWrite (die * 2048 + core) v v := by
  rw [registerWrite_aligned (by omega), State.regWrite]
  simp (disch := omega) only [if_neg, if_pos, show (0x10000 + 8 * core - 0x10000) / 8 = core by omega]

theorem registerWrite_work (h : i < 256) : registerWrite die (0x308000 + 16 * i) v s = s.writeWork die i v := by
  rw [registerWrite_aligned (by omega), State.regWrite]
  simp (disch := omega) only [if_neg, if_pos, show (0x308000 + 16 * i - 0x308000) / 16 = i by omega]

theorem registerWrite_workHigh (h : i < 256) : registerWrite die (0x308008 + 16 * i) v s =
    s.setWork die i { (s.work die i) with chandle := v.setWidth 32, cslot := fieldN v 32 6 } := by
  rw [registerWrite_aligned (by omega), State.regWrite]
  simp (disch := omega) only [if_neg, if_pos, show (0x308008 + 16 * i - 0x308000) / 16 = i by omega]

theorem registerWrite_parkedCtx (h : i < 16) : registerWrite die (0x309000 + 8 * i) v s = s.modDie die (fun d =>
    { d with overrun := d.overrun.filter (fun t => t != fieldN v 1 12),
             parkedCtx := if bitN v 0 then tabSet d.parkedCtx i (fieldN v 1 12, fieldN v 16 48) else tabDel d.parkedCtx i }) := by
  rw [registerWrite_aligned (by omega), State.regWrite]
  simp (disch := omega) only [if_neg, if_pos, show (0x309000 + 8 * i - 0x309000) / 8 = i by omega]

theorem registerWrite_region (h : i < 256) : registerWrite die (0x30A000 + 8 * i) v s =
    { s with regions := if bitN v 0 then tabSet s.regions i (regionOf v) else tabDel s.regions i } := by
  rw [registerWrite_aligned (by omega), State.regWrite]
  simp (disch := omega) only [if_neg, if_pos, show (0x30A000 + 8 * i - 0x30A000) / 8 = i by omega]

theorem registerWrite_key (h : i < 512) : registerWrite die (0x30B000 + 8 * i) v s =
    if bitN v 0 then s.loadKey i (fieldN v 1 12) (fieldN v 13 16) else { s with keys := tabDel s.keys i } := by
  rw [registerWrite_aligned (by omega), State.regWrite]
  simp (disch := omega) only [if_neg, if_pos, show (0x30B000 + 8 * i - 0x30B000) / 8 = i by omega]

/-! ### What the registers do -/

theorem debugWrite_of_stop (h3 : v.getLsbD 3 = false) (h0 : v.getLsbD 0 = true) :
    s.debugWrite core v v = s.modCore core (fun k => { k with dbgStop := true }) := by
  simp only [State.debugWrite, bitN, h3, h0, debugStop, if_true, if_false, Bool.false_eq_true]

theorem debugWrite_of_resume (h3 : v.getLsbD 3 = false) (h0 : v.getLsbD 0 = false) :
    s.debugWrite core v v = debugResume core s := by
  simp only [State.debugWrite, bitN, h3, h0, if_false, Bool.false_eq_true]

theorem debugResume_of_stopped (h : (s.core core).dbgStop = true) : debugResume core s =
    s.modCore core (fun k => { k with dbgStop := false, ready := k.ready.map (s.reread core) }) := by
  rw [debugResume, if_pos h]

theorem debugResume_of_running (h : (s.core core).dbgStop = false) : debugResume core s = s := by
  rw [debugResume, if_neg (by simp [h])]

theorem writeWork_of_open (h : (s.work die i).state = .opened) (ho : fieldN v 3 2 = 1) (hl : fieldN v 0 3 = (s.work die i).level) :
    s.writeWork die i v =
      s.sendWork (.core (stewardOf die)) (s.workId die i) ((fieldN v 8 24 : Int) - ((s.work die i).counter : Int)) 0 :=
  if_pos ⟨h, ho, hl⟩

theorem writeWork_of_other (h : (s.work die i).state ≠ .opened ∨ fieldN v 3 2 ≠ 1 ∨ fieldN v 0 3 ≠ (s.work die i).level) :
    s.writeWork die i v = s.setWork die i ((s.work die i).opened v) :=
  if_neg (by tauto)

/-- The state field of an opened entry is the word's. -/
theorem workStateCode_opened (w : Work) (v : Word) : workStateCode (w.opened v).state = fieldN v 3 2 := by
  have h : fieldN v 3 2 < 4 := Nat.mod_lt _ (by decide)
  unfold Work.opened
  generalize fieldN v 3 2 = n at h
  interval_cases n <;> rfl

/-! ### Events on registers (R366, R367, R389, R420) -/

theorem firstxEmpty_eq : s.csrWrite core 0x008 0xFF 0xFF =
    s.setCore core { s.core core with firstx := (s.core core).firstx &&& ~~~(0xFF#256) } := rfl

theorem write_ovf_log (l : ErrLog) : (l.write l.control 0x20000).ovf = false ∧ (l.write l.control 0x20000).dropped = 0 ∧
    (l.write l.control 0x20000).recs = l.recs ∧ (l.write l.control 0x20000).tail = l.tail := by
  simp [ErrLog.write, bitN]

theorem write_ovf_qring (q : Qring) : (q.write q.word (BitVec.ofNat 64 (2 ^ 57))).ovf = false ∧
    (q.write q.word (BitVec.ofNat 64 (2 ^ 57))).tail = q.tail := by
  simp [Qring.write, bitN]

/-- Clearing KERFREP clears its valid bit and its count. -/
theorem kerfrepClear_one (k : Word) : (kerfrepClear k 1).getLsbD 0 = false ∧ fieldN (kerfrepClear k 1) 43 16 = 0 := by
  have h : kerfrepClear k 1 = setFieldN (setFieldN k 0 1 0) 43 16 0 := if_pos rfl
  have hb : fieldN (setFieldN k 0 1 0) 0 1 = 0 := fieldN_setFieldN_same (by decide)
  rw [h]
  refine ⟨(getLsbD_setFieldN_below (by decide) (by decide)).trans ?_, fieldN_setFieldN_same (by decide)⟩
  simpa [fieldN, BitVec.getLsbD, Nat.testBit_zero] using hb

end

theorem exec_logAppend {die : Nat} {s : State} : exec (.logAppend die) s = .next (logAppend die s) := rfl
theorem exec_firstxEmpty {core : Nat} {s : State} : exec (.firstxEmpty core) s = .next (s.csrWrite core 0x008 0xFF 0xFF) := rfl
theorem exec_logOverflowClear {die : Nat} {s : State} : exec (.logOverflowClear die) s = .next (logOverflowClear die s) := rfl
theorem exec_kerfrepClear {die : Nat} {s : State} : exec (.kerfrepClear die) s =
    .next (s.modDie die (fun d => { d with kerfrep := kerfrepClear d.kerfrep 1 })) := rfl
theorem exec_qringOverflowClear {die : Nat} {s : State} : exec (.qringOverflowClear die) s =
    .next (s.modDie die (fun d => { d with qring := d.qring.write d.qring.word (BitVec.ofNat 64 (2 ^ 57)) })) := rfl
theorem exec_registerWrite {die o : Nat} {v : Word} {s : State} :
    exec (.registerWrite die o v) s = .next (registerWrite die o v s) := rfl

/-- Settles O50: every clause is a rule of the log or of one register. -/
theorem logsAndRegistersAreWritten : Obligations.LogsAndRegistersAreWritten := by
  intro s die core cl i v r
  simp only [exec_logAppend, exec_firstxEmpty, exec_logOverflowClear, exec_kerfrepClear, exec_qringOverflowClear, exec_registerWrite,
    Host.Outcome.next.injEq]
  refine ⟨?_, ?_, ?_, firstxEmpty_eq, ?_, rfl, ?_, ?_, registerWrite_resctl, registerWrite_clusterFlags, fun a ha => registerWrite_root ha,
    ?_, ?_, rfl, rfl, rfl, workStateCode_opened _ _, rfl, ?_, ?_, ?_⟩
  · intro l hl
    simp [append_of_room hl]
  · intro l hl hd
    rw [append_of_full hl]
    exact ⟨rfl, rfl, rfl, by simp only; omega⟩
  · exact ⟨_, rfl, congrArg Die.log (modDie_die_same ..), rfl, rfl⟩
  · exact ⟨_, rfl, by rw [logOverflowClear, modDie_die_same]; exact write_ovf_log _⟩
  · exact ⟨_, rfl, by rw [modDie_die_same]; exact kerfrepClear_one _⟩
  · exact ⟨_, rfl, by rw [modDie_die_same]; exact write_ovf_qring _⟩
  · intro hc h3
    rw [registerWrite_debug hc]
    exact ⟨debugWrite_of_stop h3, fun h0 hs => (debugWrite_of_resume h3 h0).trans (debugResume_of_stopped hs),
      fun h0 hs => (debugWrite_of_resume h3 h0).trans (debugResume_of_running hs)⟩
  · intro hi
    rw [registerWrite_work hi, registerWrite_workHigh hi]
    exact ⟨writeWork_of_open, writeWork_of_other, rfl⟩
  · intro hi
    rw [registerWrite_parkedCtx hi]
    exact ⟨_, rfl, rfl, rfl, by rw [modDie_die_same]; rfl⟩
  · exact fun hi => registerWrite_region hi
  · intro hi
    rw [registerWrite_key hi]
    exact ⟨fun h => if_pos h, fun h => if_neg (ne_true_of_eq_false h)⟩

end Sys2Proof.Machine


/-! The machine at reset, and what a step runs (R95, R176, R206, R364, R373, R448). -/

namespace Sys2Proof.Machine

@[simp] theorem reset_core (core : Nat) : State.reset.core core = CoreSt.reset := rfl
@[simp] theorem reset_die (die : Nat) : State.reset.die die = Die.reset := rfl
@[simp] theorem reset_work (die n : Nat) : State.reset.work die n = Work.zero := rfl
@[simp] theorem reset_cycle : State.reset.cycle = 0 := rfl
@[simp] theorem CoreSt.reset_frame (i : Nat) : CoreSt.reset.frame i = Frame.zero := rfl

/-- The counters that a core shows in its CSRs stand at 0. -/
theorem reset_csrRead {core n : Nat} (hn : n ∈ [0x002, 0x003, 0x004, 0x005, 0x006]) : State.reset.csrRead core n = 0 := by
  simp only [List.mem_cons, List.not_mem_nil, or_false] at hn
  rcases hn with rfl | rfl | rfl | rfl | rfl <;> simp [State.csrRead, CoreSt.reset, Unack.word, b2n, zx]

/-- Settles O56: a key that no table lists reads as that table's default, so each value is that of the default core, die, frame or
work table entry. -/
theorem resetHoldsTheStatedValues : Obligations.ResetHoldsTheStatedValues := by
  unfold Obligations.ResetHoldsTheStatedValues
  intro core die i n
  simp only [reset_core, reset_die, reset_work, reset_cycle, CoreSt.reset_frame]
  simp [State.Wf.reset, reset_csrRead, CoreSt.reset, Die.reset, Work.zero, Frame.zero]

/-! ### Fetch and issue (R95, R176, R373) -/

section
variable {s : State} {f : Firing}

/-- A word address that may be fetched: in the instruction store, in a sealed block. -/
theorem CoreSt.sealedAt_iff {c : CoreSt} {pc : Nat} :
    c.sealedAt pc = true ↔ pc < 16384 ∧ c.sealed.getLsbD (pc / 1024) = true := by
  rw [CoreSt.sealedAt, Bool.and_eq_true, decide_eq_true_eq]
  rfl

theorem fetch_of_sealed {core pc : Nat} (hpc : pc < 16384) (hs : (s.core core).sealed.getLsbD (pc / 1024) = true) :
    s.fetch core pc = some (BitVec.ofNat 32 (leNat (memBytes s.mem (codeAddr core pc) 4))) :=
  if_pos (CoreSt.sealedAt_iff.2 ⟨hpc, hs⟩)

theorem fetch_of_unsealed {core pc : Nat} (h : 16384 ≤ pc ∨ (s.core core).sealed.getLsbD (pc / 1024) = false) :
    s.fetch core pc = none := by
  refine if_neg fun hs => ?_
  obtain ⟨hpc, hb⟩ := CoreSt.sealedAt_iff.1 hs
  rcases h with h | h
  · omega
  · simp [h] at hb

/-- The core runs firing f, has not halted and is not retired. -/
def State.Runs (s : State) (f : Firing) : Prop :=
  (s.core s.cur).firing = some f ∧ (s.core s.cur).halted = false ∧ s.coreRetired s.cur = false

theorem issueStep_of_decoded {w : IWord} {i : Instr} (h : s.Runs f) (hw : s.fetch s.cur f.pc = some w) (hd : decode w = .ok i) :
    issueStep s = exec i s := by
  obtain ⟨hf, hh, hr⟩ := h
  simp [issueStep, hf, hh, hr, hw, hd]

theorem issueStep_of_undecoded {w : IWord} {r : Reject} (h : s.Runs f) (hw : s.fetch s.cur f.pc = some w)
    (hd : decode w = .error r) : issueStep s = .refused (.reservedEncoding r.code) := by
  obtain ⟨hf, hh, hr⟩ := h
  simp [issueStep, hf, hh, hr, hw, hd]

theorem issueStep_of_unfetched (h : s.Runs f) (hw : s.fetch s.cur f.pc = none) :
    issueStep s = .next (s.takeFault s.cur f 0x05 0x01 none) := by
  obtain ⟨hf, hh, hr⟩ := h
  simp [issueStep, hf, hh, hr, hw]

theorem issueStep_of_idle (h : (s.core s.cur).firing = none ∨ (s.core s.cur).halted = true ∨ s.coreRetired s.cur = true) :
    issueStep s = .next s := by
  unfold issueStep
  split
  · rfl
  · next f hf => exact if_pos (by simpa [hf] using h)

end

/-! ### The clock (R206, R448) -/

/-- As a step begins, a launch entry that is DONE returns to FREE; every other entry stands. -/
theorem tick_work (s : State) (n d i : Nat) : (s.tick n).work d i = (s.work d i).freeDone := by
  unfold State.work
  rw [tick_die]
  exact tabGet_map Work.freeDone rfl _ i

/-- Settles O55: a step is an issue, an event or a packet by the kind of the move, and an issue is decided by the fetch. -/
theorem stepRunsTheDecodedInstruction : Obligations.StepRunsTheDecodedInstruction := by
  unfold Obligations.StepRunsTheDecodedInstruction
  intro s m l core k e p rest live issues
  have key : ∀ t u, step t = issueStep u → issues t u := by
    intro t u h
    refine ⟨fun f i hf hu hpc hs hd => ?_, fun f r hf hu hpc hs hd => ?_, fun f hf hu hs => ?_, fun hi => ?_⟩
    · exact h.trans (issueStep_of_decoded ⟨hf, hu⟩ (fetch_of_sealed hpc hs) hd)
    · exact h.trans (issueStep_of_undecoded ⟨hf, hu⟩ (fetch_of_sealed hpc hs) hd)
    · exact h.trans (issueStep_of_unfetched ⟨hf, hu⟩ (fetch_of_unsealed hs))
    · exact h.trans (issueStep_of_idle hi)
  have hmove : step { s with agenda := m :: l } = moveStep m { s with agenda := l } := rfl
  refine ⟨key _ _ rfl, fun n => ⟨rfl, rfl, rfl, rfl, fun d i => tick_work s n d i⟩, fun hk => key _ _ ?_, fun hk he => ?_,
    fun hk he => ?_, fun hk => ?_, fun hk => ?_⟩
  all_goals rw [hmove, moveStep, hk]
  · rfl
  · exact if_pos he
  · exact if_neg (by simp [he])

end Sys2Proof.Machine


/-! System instructions, the end of a firing, and the issue limits (R46, R47, R51, R201 to R203, R450). -/

namespace Sys2Proof.Machine

/-! ### NOP, TRAP, HALT and ROINV (R201, R202) -/

section
variable {s : State} {f : Firing}

/-- The issue of an instruction that does something beside its firing and goes on to the next word. -/
theorem issue_done_ran {body : Firing → State → Body} {s' : State} (h : s.Issues f false) (hb : body f s = .done s')
    (hf : (s'.core s'.cur).firing = some f) : issue false body s = .next (s'.ran f) :=
  issue_done false body s s' f f h hb hf

/-- The issue of an instruction that ends the firing. -/
theorem issue_ends {body : Firing → State → Body} {s' : State} (h : s.Issues f false) (hb : body f s = .ends s') :
    issue false body s = .next s' := by
  rw [issue_eq _ _ _ _ h, hb, Body.apply]

theorem stewardIssue_of_steward {m : String} {held : Bool} {body : Firing → State → Body} (h : isSteward s.cur = true) :
    stewardIssue m held body s = issue held body s := if_pos h

theorem stewardIssue_of_tenant {m : String} {held : Bool} {body : Firing → State → Body} (h : isSteward s.cur = false) :
    stewardIssue m held body s = .refused (.stewardOnly m) := if_neg (by simp [h])

theorem exec_trap (code : BitVec 6) : exec (.trap code) s = execTrap code s := rfl

theorem execTrap_of_tenant (h : s.Issues f false) (ht : isSteward s.cur = false) (code : BitVec 6) :
    exec (.trap code) s = .next (s.takeFault s.cur f 0x01 code.toNat none) := by
  rw [exec_trap]
  exact issue_trap _ _ _ _ _ _ _ h (if_neg (by simp [ht]))

theorem execTrap_of_steward (h : s.Issues f false) (ht : isSteward s.cur = true) (code : BitVec 6) :
    exec (.trap code) s = .next ((s.logErr (ctxErr 0x01 code.toNat 5 f.ctx f.pc)).ran f) := by
  rw [exec_trap]
  exact issue_done_ran h (if_pos ht) h.1

theorem execHalt_of_empty (h : s.Issues f false) (ht : isSteward s.cur = true) (hq : (s.core s.cur).queue = []) :
    exec .halt s = .next (s.setCore s.cur { s.core s.cur with halted := true, firing := some f.next }) := by
  have hs : exec .halt s = .next ((s.modCore s.cur (fun c => { c with halted := true })).ran f) :=
    (stewardIssue_of_steward ht).trans (issue_done_ran h (if_pos (by simp [hq])) (by simp [h.1]))
  rw [hs]
  simp [State.ran, State.setFiring, State.modCore]

theorem execHalt_of_waiting (h : s.Issues f false) (ht : isSteward s.cur = true) (hq : (s.core s.cur).queue ≠ []) :
    exec .halt s = .next s :=
  (stewardIssue_of_steward ht).trans (issue_wait _ _ _ _ h (if_neg (by simpa using hq)))

/-- Settles O1, instruction by instruction. -/
theorem systemInstructionsTakeEffect : Obligations.SystemInstructionsTakeEffect := by
  unfold Obligations.SystemInstructionsTakeEffect
  refine ⟨fun s f => ⟨fun h => ⟨issue_done_ran h rfl h.1, fun code ht => execTrap_of_tenant h ht code,
      fun code ht => execTrap_of_steward h ht code, execHalt_of_empty h, execHalt_of_waiting h⟩,
    fun h => issue_onlyHold _ s f h⟩, fun s td ta ht => ?_⟩
  exact ⟨stewardIssue_of_tenant ht, stewardIssue_of_tenant ht, stewardIssue_of_tenant ht, stewardIssue_of_tenant ht,
    stewardIssue_of_tenant ht, stewardIssue_of_tenant ht, stewardIssue_of_tenant ht⟩

/-! ### END and CONT (R47, R68, R201, R203) -/

theorem dropFiring_core (s : State) (core i : Nat) :
    ∃ frames, (s.dropFiring core i).core core = { s.core core with frames := frames, firing := none } := by
  unfold State.dropFiring
  rw [modCore_core_same]
  dsimp only
  split
  · exact ⟨_, rfl⟩
  · exact ⟨_, rfl⟩

theorem dropFiring_core_other {s : State} {core i c : Nat} (h : c ≠ core) : (s.dropFiring core i).core c = s.core c :=
  modCore_core_other _ _ _ _ h.symm

/-- The end of a firing that was not purged: the closing mark stands behind its actions, all of them may be released, and the rest of
the core keeps its values. -/
theorem endFiring_effect {mark : Act} (hp : f.purged = false) :
    let t := endFiring mark f s
    (t.core s.cur).firing = none ∧
      (t.core s.cur).queue = (s.core s.cur).queue.map (fun (h : Held) => { h with ended := true }) ++
        [{ act := mark, ctx := f.ctx, pc := f.pc, ended := true }] ∧
      (t.core s.cur).fflags = (s.core s.cur).fflags ||| f.flags.setWidth 7 ∧
      (t.core s.cur).firings = (s.core s.cur).firings + 1 ∧
      (t.core s.cur).firstx = (s.core s.cur).firstx ∧ (t.core s.cur).ready = (s.core s.cur).ready ∧
      t.mem = s.mem ∧ t.net = s.net ∧ (∀ c, c ≠ s.cur → t.core c = s.core c) := by
  intro t
  have ht : t = endFiring mark f s := rfl
  simp only [endFiring, hp, Bool.false_eq_true, if_false] at ht
  obtain ⟨frames, hc⟩ := dropFiring_core ((s.hold f mark).modCore s.cur (fun c =>
    { c with queue := markEnded c.queue, fflags := c.fflags ||| f.flags.setWidth 7, firings := c.firings + 1 })) s.cur f.ctx.frame
  rw [← ht] at hc
  have hother : ∀ c, c ≠ s.cur → t.core c = s.core c := fun c h => by
    rw [ht, dropFiring_core_other h, modCore_core_other _ _ _ _ h.symm, State.hold, modCore_core_other _ _ _ _ h.symm]
  rw [hc]
  refine ⟨rfl, ?_, ?_, ?_, ?_, ?_, by rw [ht]; rfl, by rw [ht]; rfl, hother⟩ <;> simp [State.hold, markEnded]

theorem exec_endf : exec .endf s = execEnd s := rfl

theorem exec_cont (ld st cp tl : BitVec 5) (sl : Slot) : exec (.cont ld st cp tl sl) s = execCont ld st cp tl sl s := rfl

theorem execEnd_of_issues (h : s.Issues f false) : execEnd s = .next (endFiring .endMark f s) := issue_ends h rfl

section
variable {ld st cp tl : BitVec 5} {sl : Slot}

theorem execCont_of_inside (h : s.Issues f false) (hsl : sl.toNat < ((s.core s.cur).frame f.ctx.frame).nslot) :
    execCont ld st cp tl sl s = .next (endFiring
      (.cont { ld := ld.toNat, st := st.toNat, cp := cp.toNat, tl := tl.toNat } sl.toNat) f s) :=
  issue_ends h (if_neg (Nat.not_le.2 hsl))

theorem execCont_of_beyond (h : s.Issues f false) (hsl : ((s.core s.cur).frame f.ctx.frame).nslot ≤ sl.toNat) :
    execCont ld st cp tl sl s = .next (s.takeFault s.cur f 0x05 0x04 none) :=
  issue_trap _ _ _ _ _ _ _ h (if_pos hsl)

end

/-- Settles O2: END and CONT both end the firing by the same operation. -/
theorem endAndContEndTheFiring : Obligations.EndAndContEndTheFiring := by
  unfold Obligations.EndAndContEndTheFiring
  intro s f ld st cp tl sl h hp ends
  exact ⟨⟨_, exec_endf.trans (execEnd_of_issues h), endFiring_effect hp⟩,
    fun hsl => ⟨_, (exec_cont ..).trans (execCont_of_inside h hsl), endFiring_effect hp⟩,
    fun hsl => (exec_cont ..).trans (execCont_of_beyond h hsl)⟩

end

/-! ### Every instruction is an issue (R46, R51, R450) -/

/-- The outcome is that of the issue of some body, which holds an action or does not. -/
def IsIssue (s : State) (o : Host.Outcome State Fault Refusal) (held : Bool) : Prop := ∃ body, o = issue held body s

section
variable {s : State} {held : Bool} {body : Firing → State → Body}

theorem isIssue_issue : IsIssue s (issue held body s) held := ⟨body, rfl⟩

theorem isIssue_stewardIssue {m : String} (h : isSteward s.cur = true) : IsIssue s (stewardIssue m held body s) held :=
  ⟨body, stewardIssue_of_steward h⟩

theorem isIssue_csrOp {m : String} {csr : BitVec 12} (h : isSteward s.cur = true ∨ csrTenant csr.toNat = true) :
    IsIssue s (csrOp m csr body s) false := ⟨body, if_pos (by simpa using h)⟩

theorem isIssue_execChpeek {vec : Bool} {td : Temp} {p : Port} : IsIssue s (execChpeek vec td p s) false := by
  unfold execChpeek
  split
  · exact isIssue_issue
  · exact isIssue_issue

theorem isIssue_atomic {op : Nat} {wd : AWidth} {scope : Scope} {k : FWord} {tb : Temp} {sl : Slot} :
    IsIssue s (atomic op wd scope k tb sl s) true := isIssue_issue

theorem isIssue_collective {td ta : Temp} {a : Vec → Act} : IsIssue s (collective td ta a s) true := isIssue_issue

theorem isIssue_pressCommand {td ta : Temp} {ok : Vec → Bool} {a : Vec → Act} :
    IsIssue s (pressCommand td ta ok a s) true := isIssue_issue

end

/-- An instruction that its core may issue is an issue, held where `Instr.holds` says so; only events are not. -/
theorem isIssue_exec {s : State} {i : Instr} (he : i.isEvent = false)
    (hs : stewardOnly i = true → isSteward s.cur = true)
    (hc : ∀ n, csrOf i = some n → isSteward s.cur = true ∨ csrTenant n = true) : IsIssue s (exec i s) i.holds := by
  unfold exec
  cases i with
  | nop | endf | trap | roinv | cont | li | lih | addi | andi | ori | xori | shli | shri | srai | add | sub | mul | mulh
  | div | divu | rem | and | or | xor | shl | shr | sra | min | max | slt | sltu | clz | popc | sel | br | fld | fst
  | falloc | ffree | fself | fidx | slotset | slotarm | slotrd | slotdis | send | sendv | sig | sigReg | chpop | chpush
  | chend | chrcfg | lgen | lgstop | launch | ld | st | stt | pst | lds | ldro | fence | turngo | publ | vadd | vsub | vmul
  | vfma | vfms | vmin | vmax | vdiv | vsqrt | vrcp | vrsq | vexp2 | vlog2 | viadd | visub | vimul | vand | vor | vxor
  | vshl | vshr | vsra | vcmp | vsel | vperm | vbcast | vext | vins | vred | vcvt | vdec | venc | ctld | tdef | tstat | trel
  | mxldw | mxstrm | mxgang | mxrd | mxscan | cpy | cpym | cpyx | gath | jstat | jcan | ings | ingq | cancel =>
    exact isIssue_issue
  | halt | jmpi | rplay | tlbinv | codeseal | place | cfgld => exact isIssue_stewardIssue (hs rfl)
  | csrr | csrw | csrs => exact isIssue_csrOp (hc _ rfl)
  | chpeek => exact isIssue_execChpeek
  | aadd | aand | aor | axor | amin | amax | aswap | afadd | acas => exact isIssue_atomic
  | hpdef | hpput | hpwait | turndef | reddef | redput | pbdef => exact isIssue_collective
  | mxfmt | mxepi | mxclr => exact isIssue_pressCommand
  | _ => exact Bool.noConfusion he

section
variable {s : State} {f : Firing} {o : Host.Outcome State Fault Refusal} {held : Bool}

/-- A tenant firing past its instruction limit faults. -/
theorem IsIssue.of_issued (h : IsIssue s o held) (hf : (s.core s.cur).firing = some f) (hh : (s.core s.cur).halted = false)
    (ht : isSteward s.cur = false) (hi : 256 ≤ f.issued) : o = .next (s.takeFault s.cur f 0x02 0x01 none) := by
  obtain ⟨body, rfl⟩ := h
  simp [issue, hf, hh, ht, hi]

/-- A tenant firing past its limit of held actions faults. -/
theorem IsIssue.of_held (h : IsIssue s o true) (hf : (s.core s.cur).firing = some f) (hh : (s.core s.cur).halted = false)
    (ht : isSteward s.cur = false) (hi : f.issued < 256) (hl : 48 ≤ f.held) :
    o = .next (s.takeFault s.cur f 0x02 0x02 none) := by
  obtain ⟨body, rfl⟩ := h
  simp [issue, hf, hh, ht, Nat.not_le.2 hi, hl]

/-- With no room in the commit queue, an instruction that holds an action waits. -/
theorem IsIssue.of_full (h : IsIssue s o true) (hf : (s.core s.cur).firing = some f) (hh : (s.core s.cur).halted = false)
    (hl : isSteward s.cur = true ∨ (f.issued < 256 ∧ f.held < 48)) (hq : 48 ≤ (s.core s.cur).occupied) : o = .next s := by
  obtain ⟨body, rfl⟩ := h
  rcases hl with ht | ⟨hi, hl⟩
  · simp [issue, hf, hh, ht, hq]
  · simp [issue, hf, hh, Nat.not_le.2 hi, Nat.not_le.2 hl, hq]

end

/-- Settles O58: the limits are those of the one issue operation, which every instruction that may issue is. -/
theorem issueLimitsAreKept : Obligations.IssueLimitsAreKept := by
  unfold Obligations.IssueLimitsAreKept
  intro s f i hf hh he hmay
  have hi : IsIssue s (exec i s) i.holds := by
    rcases hsc : isSteward s.cur with _ | _
    · obtain ⟨hns, hcsr⟩ := hmay hsc
      exact isIssue_exec he (fun h => by simp [hns] at h) fun n hn => .inr (hcsr n hn)
    · exact isIssue_exec he (fun _ => hsc) fun _ _ => .inl hsc
  refine ⟨fun ht h => hi.of_issued hf hh ht h, fun ht h hold hl => ?_, fun hl hold hq => ?_⟩
  all_goals rw [hold] at hi
  · exact hi.of_held hf hh ht h hl
  · exact hi.of_full hf hh hl hq

end Sys2Proof.Machine


/-! Frame words and slot words of a LOCAL frame (R19, R26, R34, R35, R92, R93). -/

namespace Sys2Proof.Machine

/-! ### Numbers as bytes and back (R19) -/

@[simp] theorem leBytes_length (n v : Nat) : (leBytes n v).length = n := by
  induction n generalizing v with
  | zero => rfl
  | succ n ih => simp [leBytes, ih]

theorem leNat_leBytes (n v : Nat) : leNat (leBytes n v) = v % 256 ^ n := by
  induction n generalizing v with
  | zero => simp [leBytes, leNat, Nat.mod_one]
  | succ n ih =>
    rw [leBytes, leNat, ih, BitVec.toNat_ofNat, Nat.pow_succ' (n := n)]
    exact (Nat.mod_mul (a := 256)).symm

/-- A word written as eight bytes reads as the word. -/
theorem ofNat_leNat_leBytes (v : Word) : BitVec.ofNat 64 (leNat (leBytes 8 v.toNat)) = v := by
  have hv : v.toNat < 256 ^ 8 := v.isLt
  rw [leNat_leBytes, Nat.mod_eq_of_lt hv, BitVec.ofNat_toNat, BitVec.setWidth_eq]

/-- Bytes written are the bytes read there. -/
theorem memBytes_memPuts_same {m : List Host.Cell} (a : Nat) (bs : List Byte) (hm : memWf m = true) :
    memBytes (memPuts m a bs) a bs.length = bs := by
  rw [memBytes_eq_map]
  refine List.ext_getElem (by simp) fun i _ hi => ?_
  simp [memByte_memPuts_in m a i bs hm hi]

/-! ### Frames in local SRAM (R26, R92, R93) -/

theorem isHbm_of_le {pa : Nat} (h : 0x8000000000 ≤ pa) : isHbm pa = false := by
  rw [isHbm, decide_eq_false_iff_not]
  omega

/-- Core windows lie above HBM. -/
theorem isHbm_winAddr (core o : Nat) : isHbm (winAddr core o) = false := isHbm_of_le (by unfold winAddr; omega)

theorem readBytes_of_not_hbm {s : State} {key : Nat} {pa : Nat} (n : Nat) (h : 0x8000000000 ≤ pa) :
    s.readBytes key pa n = memBytes s.mem pa n := by
  induction n generalizing pa with
  | zero => rfl
  | succ n ih =>
    rw [State.readBytes, memBytes, ih (by omega), State.readByte, isHbm_of_le h, Bool.false_and, Bool.false_and]
    rfl

theorem isSram_winAddr {core o : Nat} (hc : core < 8192) (ho : o < sramSize) : isSram (winAddr core o) = true := by
  rw [isSram, isWin, winOfs, Bool.and_eq_true, Bool.and_eq_true, decide_eq_true_eq, decide_eq_true_eq, decide_eq_true_eq]
  unfold winAddr
  unfold sramSize at *
  omega

/-- The address of frame word k of frame i in the local SRAM of its core. -/
def State.sramWord (s : State) (core i k : Nat) : Nat := winAddr core (256 * ((s.core core).frame i).poolofs + 8 * k)

/-- A LOCAL frame whose word k lies within the local SRAM of a core of the package. -/
structure State.InSram (s : State) (core i k : Nat) : Prop where
  isLocal : ((s.core core).frame i).state = .local
  core_lt : core < 8192
  bound : 256 * ((s.core core).frame i).poolofs + 8 * k + 8 ≤ sramSize

section
variable {s : State} {core i k : Nat}

theorem frameSpilled_of_local (h : ((s.core core).frame i).state = .local) : s.frameSpilled core i = false := by
  simp [State.frameSpilled, h]

theorem frameBase_of_local (h : ((s.core core).frame i).state = .local) (k : Nat) :
    s.frameBase core i + 8 * k = s.sramWord core i k := by
  simp [State.frameBase, State.sramWord, winAddr, h, Nat.add_assoc]

theorem fword_of_local (h : ((s.core core).frame i).state = .local) (k : Nat) :
    s.fword core i k = BitVec.ofNat 64 (leNat (memBytes s.mem (s.sramWord core i k) 8)) := by
  rw [State.fword, frameBase_of_local h, readBytes_of_not_hbm _ (by unfold State.sramWord winAddr; omega)]

theorem fside_of_local (h : ((s.core core).frame i).state = .local) (k : Nat) :
    s.fside core i k = tabGet 0 s.side (s.sramWord core i 0 / 8 + k) := by
  rw [State.fside, frameSpilled_of_local h, frameBase_of_local h, State.sideAt]
  simp only [Bool.false_eq_true, if_false, State.sramWord, winAddr]
  congr 1
  omega

/-- Writing a word of a LOCAL frame writes its bytes and its side-band, and nothing else. -/
theorem setFword_of_inSram (h : s.InSram core i k) (v : Word) (side : Byte) :
    s.setFword core i k v side = { s with mem := memPuts s.mem (s.sramWord core i k) (leBytes 8 v.toNat),
                                          side := tabSet s.side (s.sramWord core i 0 / 8 + k) side } := by
  have hsram : isSram (s.sramWord core i k) = true := isSram_winAddr h.core_lt (by have := h.bound; omega)
  have hword : wordsOf (s.sramWord core i k) 8 = [s.sramWord core i 0 / 8 + k] := by
    have hmod : s.sramWord core i k % 8 = 0 := by unfold State.sramWord winAddr; omega
    have hdiv : s.sramWord core i k / 8 = s.sramWord core i 0 / 8 + k := by unfold State.sramWord winAddr; omega
    simp [wordsOf, hmod, hdiv]
  have hhbm : isHbm (s.sramWord core i k) = false := isHbm_winAddr _ _
  rw [State.setFword, frameSpilled_of_local h.isLocal, frameBase_of_local h.isLocal]
  simp [State.writeBytes, hsram, hhbm, hword]

theorem setFword_core (h : s.InSram core i k) (v : Word) (side : Byte) (c : Nat) :
    (s.setFword core i k v side).core c = s.core c := by
  rw [setFword_of_inSram h]
  rfl

/-- A word written to a LOCAL frame reads back, after updates that leave memory and the frame's place. -/
theorem fword_of_written (h : s.InSram core i k) (hw : s.Wf) {v : Word} {side : Byte} {t : State}
    (hm : t.mem = (s.setFword core i k v side).mem) (hf : (t.core core).frame i = (s.core core).frame i) :
    t.fword core i k = v := by
  have ha : t.sramWord core i k = s.sramWord core i k := by rw [State.sramWord, hf]; rfl
  rw [fword_of_local (hf ▸ h.isLocal), hm, setFword_of_inSram h, ha]
  have hb := memBytes_memPuts_same (s.sramWord core i k) (leBytes 8 v.toNat) hw
  rw [leBytes_length] at hb
  exact (congrArg (fun l => BitVec.ofNat 64 (leNat l)) hb).trans (ofNat_leNat_leBytes v)

theorem fword_setFword_same (h : s.InSram core i k) (hw : s.Wf) (v : Word) (side : Byte) :
    (s.setFword core i k v side).fword core i k = v :=
  fword_of_written h hw rfl (by rw [setFword_core h])

theorem fside_setFword (h : s.InSram core i k) (v : Word) (side : Byte) (j : Nat) :
    (s.setFword core i k v side).fside core i j = if j = k then side else s.fside core i j := by
  have hl : (((s.setFword core i k v side).core core).frame i).state = .local := by rw [setFword_core h]; exact h.isLocal
  have hw : (s.setFword core i k v side).sramWord core i 0 = s.sramWord core i 0 := by
    rw [State.sramWord, setFword_core h]; rfl
  rw [fside_of_local hl, fside_of_local h.isLocal, hw, setFword_of_inSram h]
  split
  · next e => rw [e, tabGet_tabSet_same]
  · next e => rw [tabGet_tabSet_other _ _ _ _ _ (by omega)]

end

/-- Settles O8, from what writing a word of a LOCAL frame makes of the state. -/
theorem frameWordReadsBack : Obligations.FrameWordReadsBack := by
  unfold Obligations.FrameWordReadsBack
  intro s core i k v side hw hl hc hb t
  have h : s.InSram core i k := ⟨hl, hc, hb⟩
  refine ⟨fword_setFword_same h hw v side, ?_, fun a ha => ?_, fun j hj => ?_⟩
  · rw [fside_setFword h, if_pos rfl]
  · rw [show t = s.setFword core i k v side from rfl, setFword_of_inSram h]
    exact memByte_memPuts_other _ _ _ _ (by simpa [State.sramWord] using ha)
  · rw [show t = s.setFword core i k v side from rfl, fside_setFword h, if_neg hj]

/-! ### Slot words of a LOCAL frame (R34, R35, R49, R82) -/

/-- A COUNT slot, valid and armed at count 0, fires. -/
theorem slotFires_iff (w : Word) :
    slotFires w = true ↔ fieldN w 26 2 = 0 ∧ w.getLsbD 25 = true ∧ w.getLsbD 24 = true ∧ fieldN w 0 24 = 0 := by
  have hc : slotCount w = 0#24 ↔ fieldN w 0 24 = 0 := by
    rw [slotCount, ← BitVec.toNat_inj, BitVec.extractLsb'_toNat]
    simp [fieldN]
  simp [slotFires, hc, slotKind, slotValid, slotArmed, and_assoc]

theorem mayFire_iff (c : CoreSt) (i : Nat) : c.mayFire i = true ↔ c.ready.length < 64 ∧ c.frameParked i = false := by
  rw [CoreSt.mayFire, CoreSt.readyRoom, Bool.and_eq_true, decide_eq_true_eq, Bool.not_eq_true']
  rfl

/-- With reload mode 1 a slot that fires takes its count from the bind field (R35, rule 5). -/
theorem reloadWord_of_count {w : Word} (h : fieldN w 30 2 = 1) : reloadWord w = setFieldN w 0 24 (fieldN w 48 16) := by
  have hb : fieldN w 48 16 < 2 ^ 24 := (Nat.mod_lt _ (by decide)).trans (by decide)
  simp only [reloadWord, slotReload, h, withCount, slotBind, BitVec.toNat_ofNat, Nat.mod_eq_of_lt hb]

theorem reloadWord_of_once {w : Word} (h : fieldN w 30 2 = 2) : reloadWord w = setFieldN w 25 1 0 := by
  simp only [reloadWord, slotReload, h, withValid]
  rfl

theorem reloadWord_of_disarm {w : Word} (h : fieldN w 30 2 = 0) : reloadWord w = setFieldN w 24 1 0 := by
  simp only [reloadWord, slotReload, h, withArmed]
  rfl

theorem arrive_core (s : State) (src : Agent) (tenant : Nat) (h : Handle) (slot amount c : Nat) :
    (s.arrive src tenant h slot amount).core c = s.core c := by
  unfold State.arrive
  split <;> rfl

theorem arrive_mem (s : State) (src : Agent) (tenant : Nat) (h : Handle) (slot amount : Nat) :
    (s.arrive src tenant h slot amount).mem = s.mem := by
  unfold State.arrive
  split <;> rfl

section
variable {s : State} {core i j : Nat} {w : Word}

/-- A slot that fires and may do so pushes its entry and takes its reload mode. -/
theorem updateSlot_of_fire (h : s.InSram core i j) (hw : s.Wf) (hf : slotFires w = true) (hm : (s.core core).mayFire i = true) :
    ((s.updateSlot core i j w).core core).ready =
        (s.core core).ready ++ [{ newReady i (slotEntry w) (slotPrio w) j false with since := s.cycle }] ∧
      (s.updateSlot core i j w).fword core i j = reloadWord w := by
  let u := s.setFword core i j (reloadWord w) (s.fside core i j)
  let e := newReady i (slotEntry w) (slotPrio w) j false
  have hu : s.updateSlot core i j w = u.pushReady core e := by
    have hl : ((u.core core).frame e.frame).state = .local := by rw [setFword_core h]; exact h.isLocal
    rw [← wake_of_local hl]
    simp only [State.updateSlot, hf, hm, if_true, Bool.true_eq_false, if_false]
    rfl
  have hc : u.cycle = s.cycle := by rw [show u = _ from setFword_of_inSram h _ _]
  rw [hu, pushReady_ready, setFword_core h, hc]
  exact ⟨rfl, fword_of_written h hw (pushReady_mem _ _ _) (by rw [pushReady_frame, setFword_core h])⟩

/-- A slot that does not fire is written and pushes nothing. -/
theorem updateSlot_of_quiet (h : s.InSram core i j) (hw : s.Wf) (hf : slotFires w = false) :
    ((s.updateSlot core i j w).core core).ready = (s.core core).ready ∧ (s.updateSlot core i j w).fword core i j = w := by
  have hu : s.updateSlot core i j w = s.setFword core i j w (s.fside core i j) := by simp [State.updateSlot, hf]
  rw [hu, setFword_core h]
  exact ⟨rfl, fword_setFword_same h hw w _⟩

/-- A slot whose test waits is written and pushes nothing. -/
theorem updateSlot_of_waiting (h : s.InSram core i j) (hw : s.Wf) (hf : slotFires w = true) (hm : (s.core core).mayFire i = false) :
    ((s.updateSlot core i j w).core core).ready = (s.core core).ready ∧ (s.updateSlot core i j w).fword core i j = w := by
  have hu : s.updateSlot core i j w = (s.setFword core i j w (s.fside core i j)).testLater core i j := by
    simp [State.updateSlot, hf, hm]
  have hc : ((s.updateSlot core i j w).core core) = s.core core := by rw [hu, State.testLater, arrive_core, setFword_core h]
  exact ⟨by rw [hc], fword_of_written h hw (by rw [hu, State.testLater, arrive_mem]) (by rw [hc])⟩

end

/-- Settles O32: the slot's test decides between firing, waiting and staying quiet. -/
theorem slotWordsFireAtZero : Obligations.SlotWordsFireAtZero := by
  unfold Obligations.SlotWordsFireAtZero
  intro s core i j w hw hl hc hb t fires e
  have h : s.InSram core i j := ⟨hl, hc, hb⟩
  refine ⟨fun hf hr hp => ?_, fun hf hr => ?_, fun hf => ?_⟩
  · obtain ⟨hready, hword⟩ := updateSlot_of_fire h hw ((slotFires_iff w).2 hf) ((mayFire_iff _ _).2 ⟨hr, hp⟩)
    exact ⟨hready, fun hm => hword.trans (reloadWord_of_count hm), fun hm => hword.trans (reloadWord_of_once hm),
      fun hm => hword.trans (reloadWord_of_disarm hm)⟩
  · refine updateSlot_of_waiting h hw ((slotFires_iff w).2 hf) (Bool.eq_false_iff.2 fun hm => ?_)
    obtain ⟨hlt, hnp⟩ := (mayFire_iff _ _).1 hm
    rcases hr with hr | hr
    · omega
    · simp [hnp] at hr
  · exact updateSlot_of_quiet h hw (Bool.eq_false_iff.2 fun hs => hf ((slotFires_iff w).1 hs))

end Sys2Proof.Machine


/-! The dispatcher and the generators (R52, R53, R64 to R67, R81, R224, R407). -/

namespace Sys2Proof.Machine

/-! ### The dispatcher's choice (R66) -/

/-- What the dispatcher picks stands in the queue, is eligible and comes with its priority. -/
theorem mem_of_pickReady {ok : Ready → Bool} {b m q : Nat} {l : List Ready} (h : pickReady ok b l = some (m, q)) :
    ∃ j x, l[j]? = some x ∧ ok x = true ∧ x.prio = q ∧ m = b + j := by
  induction l generalizing b with
  | nil => cases h
  | cons r t ih =>
    have later : ∀ m', pickReady ok (b + 1) t = some (m', q) → m' = m →
        ∃ j x, (r :: t)[j]? = some x ∧ ok x = true ∧ x.prio = q ∧ m = b + j := by
      rintro _ ht rfl
      obtain ⟨j, x, hx, hok, hp, hm⟩ := ih ht
      exact ⟨j + 1, x, hx, hok, hp, by omega⟩
    unfold pickReady at h
    split at h
    · split at h
      · next hr => cases h; exact ⟨0, r, rfl, hr, rfl, rfl⟩
      · cases h
    · next m' q' ht =>
      split at h
      · next hr => cases h; exact ⟨0, r, rfl, hr.1, rfl, rfl⟩
      · cases h; exact later _ ht rfl

/-- The dispatcher picks the eligible entry of the highest priority, the first in push order among equals. -/
theorem pickReady_of_best {ok : Ready → Bool} {l : List Ready} {n : Nat} {r : Ready} (b : Nat) (hr : l[n]? = some r)
    (hok : ok r = true) (hbest : ∀ m q, l[m]? = some q → ok q = true → q.prio < r.prio ∨ (q.prio = r.prio ∧ n ≤ m)) :
    pickReady ok b l = some (b + n, r.prio) := by
  induction l generalizing b n with
  | nil => simp at hr
  | cons a t ih =>
    cases n with
    | zero =>
      obtain rfl : a = r := by simpa using hr
      unfold pickReady
      split
      · simp [hok]
      · next m q ht =>
        obtain ⟨j, x, hx, hxok, rfl, -⟩ := mem_of_pickReady ht
        have hle : x.prio ≤ a.prio := by rcases hbest (j + 1) x hx hxok with h | h <;> omega
        simp [hok, hle]
    | succ n =>
      have ht := ih (n := n) (b + 1) hr fun m q hq hqok => by
        rcases hbest (m + 1) q hq hqok with h | h
        · exact .inl h
        · exact .inr ⟨h.1, by omega⟩
      have ha : ¬(ok a = true ∧ r.prio ≤ a.prio) := by
        rintro ⟨haok, hle⟩
        rcases hbest 0 a rfl haok with h | h <;> omega
      simp only [pickReady, ht, ha, if_false]
      congr 2
      omega

section
variable {s : State} {core : Nat}

/-- The chosen entry leaves the queue, its firing begins, its frame makes progress, and the nodes are tested. -/
theorem startFiring_of_best {n : Nat} {r : Ready} (hr : (s.core core).ready[n]? = some r)
    (hok : (s.core core).eligibleEntry core r = true)
    (hbest : ∀ m q, (s.core core).ready[m]? = some q → (s.core core).eligibleEntry core q = true →
      q.prio < r.prio ∨ (q.prio = r.prio ∧ n ≤ m)) :
    s.startFiring core = (({ s with fresh := s.fresh + 8 }.modCore core (fun k =>
        { (k.useDesc ((s.core core).ctxOf core r).vnode) with
          ready := k.ready.eraseIdx n, firing := some (newFiring ((s.core core).ctxOf core r) r.entry s.fresh) })).modFrame core
          r.frame (fun f => f.touch s.cycle)).evalCore core := by
  have hp := pickReady_of_best 0 hr hok hbest
  rw [Nat.zero_add] at hp
  simp only [State.startFiring, hp, hr]

theorem mayDispatch_of_busy (h : (s.core core).firing ≠ none ∨ (s.core core).halted = true ∨ (s.core core).cfg = .blocked ∨
    s.coreRetired core = true) : s.mayDispatch core = false := by
  rcases h with h | h | h | h <;> simp [State.mayDispatch, h]

end

theorem exec_dispatch (core : Nat) (s : State) : exec (.dispatch core) s = .next (dispatch core s) := rfl
theorem exec_debugStep (core : Nat) (s : State) : exec (.debugStep core) s = .next (debugStep core s) := rfl

/-- Settles O27: DISPATCH and DEBUG_STEP start the same firing, and differ in what the debugger lets them do. -/
theorem dispatchStartsTheBestReadyEntry : Obligations.DispatchStartsTheBestReadyEntry := by
  unfold Obligations.DispatchStartsTheBestReadyEntry
  intro s core n r c x started
  simp only [exec_dispatch, exec_debugStep, dispatch, debugStep]
  refine ⟨fun hmay hr hok hbest => ?_, fun hbusy => ?_, rfl, rfl, rfl, rfl, rfl, rfl, rfl, rfl⟩
  · have hs : s.startFiring core = started := startFiring_of_best hr hok hbest
    refine ⟨fun hd => ?_, fun hd => ?_⟩ <;> simp [hmay, hs, show (s.core core).dbgStop = _ from hd]
  · simp [mayDispatch_of_busy hbusy]

/-! ### Generators (R52, R53, R81, R224) -/

section
variable {s : State} {core k : Nat} {p : Packet} {d : Vec} {x : Ctx} {pc : Nat}

theorem lgenArrival_of_recv (hp : s.recv k = some p) (hm : p.msg = .lgen d x pc) (hd : p.dst = .core core) :
    lgenArrival k s =
      if ndKind ((s.core core).nodeDesc (fieldN d 16 20)) ≠ 1 ∨ ((s.core core).gen (fieldN d 36 2)).state ≠ .idle then
        (s.dropPkt k).refuseAct x pc 0x05 0x0C none
      else ((s.dropPkt k).modGen core (fieldN d 36 2) (fun _ => armGen d)).modCore core (fun c => c.want (fieldN d 16 20)) := by
  obtain ⟨src, dst, cls, tenant, msg, held⟩ := p
  subst hm hd
  simp only [lgenArrival, hp]

end

section
variable {s : State} {core n : Nat}

/-- A generator that is resident and sends no CHECKPOINT, runs, and is not at the end of its nest: its next step is decided by the
levels that still need their bound. -/
structure State.GenRuns (s : State) (core n : Nat) : Prop where
  resident : (s.core core).resident ((s.core core).gen n).vnode = true
  parked : ((s.core core).gen n).parked = false
  marked : ((s.core core).gen n).marked = false
  busy : ((s.core core).gen n).state ≠ .idle
  notDone : ((s.core core).gen n).done = false
  notStopped : ((s.core core).gen n).stop = false

theorem generatorEmit_marked (hr : (s.core core).resident ((s.core core).gen n).vnode = true)
    (hp : ((s.core core).gen n).parked = false) (hm : ((s.core core).gen n).marked = true)
    (hs : (s.core core).canSend ((s.core core).gen n).vnode
      (outPorts ((s.core core).nodeDesc ((s.core core).gen n).vnode)) 1 = true) :
    generatorEmit core n s = (s.modGen core n (fun q => { q with marked := false, parked := true })).genSend core
      ((s.core core).gen n).vnode ((s.core core).marker ((s.core core).gen n).vnode .checkpoint) := by
  simp [generatorEmit, hr, hp, hm, hs]

theorem generatorEmit_over (hr : (s.core core).resident ((s.core core).gen n).vnode = true)
    (hp : ((s.core core).gen n).parked = false) (hm : ((s.core core).gen n).marked = false)
    (hi : ((s.core core).gen n).state ≠ .idle) (ho : ((s.core core).gen n).done = true ∨ ((s.core core).gen n).stop = true)
    (hs : (s.core core).canSend ((s.core core).gen n).vnode
      (outPorts ((s.core core).nodeDesc ((s.core core).gen n).vnode)) 1 = true) :
    generatorEmit core n s = (s.modGen core n (fun q => { Gen.zero with vnode := q.vnode })).genSend core
      ((s.core core).gen n).vnode ((s.core core).marker ((s.core core).gen n).vnode .endm) := by
  simp [generatorEmit, hr, hp, hm, hi, ho, hs]

theorem generatorEmit_vector (h : s.GenRuns core n) (hn : ((s.core core).gen n).need = [])
    (hs : (s.core core).canSend ((s.core core).gen n).vnode
      (outPorts ((s.core core).nodeDesc ((s.core core).gen n).vnode)) 1 = true) :
    generatorEmit core n s = (s.modGen core n (fun q => (q.next 4 0).settleState)).genSend core ((s.core core).gen n).vnode
      (((s.core core).gen n).token ((s.core core).nodeColour ((s.core core).gen n).vnode) 0) := by
  simp [generatorEmit, h.resident, h.parked, h.marked, h.busy, h.notDone, h.notStopped, hn, hs]

variable {l : Nat} {t : List Nat}

theorem generatorEmit_bound (h : s.GenRuns core n) (hn : ((s.core core).gen n).need = l :: t)
    (hl : ((s.core core).gen n).fromToken l = false) :
    generatorEmit core n s =
      s.modGen core n (fun q => (q.begin l (tabGet 0 ((s.core core).gen n).dbound l) t).settleState) := by
  change _ = s.modGen core n (fun q => (q.begin l (tabGet 0 q.dbound l) t).settleState)
  simp [generatorEmit, h.resident, h.parked, h.marked, h.busy, h.notDone, h.notStopped, hn, hl]

theorem generatorEmit_token {tok : Token} (h : s.GenRuns core n) (hn : ((s.core core).gen n).need = l :: t)
    (hl : ((s.core core).gen n).fromToken l = true) (ht : (s.core core).headOf ((s.core core).gen n).vnode l = some tok)
    (hk : tok.kind = .data) :
    generatorEmit core n s = (s.consume core ((s.core core).gen n).vnode l 1).modGen core n (fun q =>
      (q.begin l (fieldN tok.data 0 16) t).settleState) := by
  simp [generatorEmit, h.resident, h.parked, h.marked, h.busy, h.notDone, h.notStopped, hn, hl, ht, hk]

end

theorem exec_lgenArrival (k : Nat) (s : State) : exec (.lgenArrival k) s = .next (lgenArrival k s) := rfl
theorem exec_generatorEmit (core n : Nat) (s : State) : exec (.generatorEmit core n) s = .next (generatorEmit core n s) := rfl

/-- Settles O30: the arrival of LGEN, and each kind of step of a generator. -/
theorem generatorsRunTheirNests : Obligations.GeneratorsRunTheirNests := by
  unfold Obligations.GeneratorsRunTheirNests
  intro s core n k p d x pc c g outs
  simp only [exec_lgenArrival, exec_generatorEmit, Host.Outcome.next.injEq]
  refine ⟨fun hp hm hd => ?_, fun hr hp => ⟨generatorEmit_marked hr hp, generatorEmit_over hr hp,
    fun hm hi hd hs => generatorEmit_vector ⟨hr, hp, hm, hi, hd, hs⟩,
    fun l t hm hi hd hs => generatorEmit_bound ⟨hr, hp, hm, hi, hd, hs⟩,
    fun l t tok hm hi hd hs => generatorEmit_token ⟨hr, hp, hm, hi, hd, hs⟩⟩⟩
  rw [lgenArrival_of_recv hp hm hd]
  exact ⟨fun hk hi => if_neg (by simp [c, hk, hi]), fun h => if_pos h⟩

end Sys2Proof.Machine


/-! The work table and its completion counters (R55, R56, R61, R448, R449). -/

namespace Sys2Proof.Machine

/-! ### The work table (R55, R56) -/

theorem setWork_work (s : State) (die i d j : Nat) (w : Work) :
    (s.setWork die i w).work d j = if d = die ∧ j = i then w else s.work d j := by
  unfold State.work State.setWork
  by_cases hd : d = die
  · subst hd
    by_cases hj : j = i
    · simp [hj]
    · simp [hj, tabGet_tabSet_other _ _ _ _ _ (Ne.symm hj)]
  · simp [hd, modDie_die_other _ _ _ _ (Ne.symm hd)]

@[simp] theorem setWork_work_same (s : State) (die i : Nat) (w : Work) : (s.setWork die i w).work die i = w := by
  rw [setWork_work, if_pos ⟨rfl, rfl⟩]

@[simp] theorem dropPkt_work (s : State) (k die i : Nat) : (s.dropPkt k).work die i = s.work die i := rfl

/-- A write to an entry that leaves its level and sequence leaves those of every entry. -/
theorem setWork_level_seq {s : State} {die i : Nat} {w : Work} (hl : w.level = (s.work die i).level)
    (hs : w.seq = (s.work die i).seq) (d j : Nat) :
    ((s.setWork die i w).work d j).level = (s.work d j).level ∧ ((s.setWork die i w).work d j).seq = (s.work d j).seq := by
  rw [setWork_work]
  split
  · next h => rw [h.1, h.2]; exact ⟨hl, hs⟩
  · exact ⟨rfl, rfl⟩

@[simp] theorem setWork_mem (s : State) (die i : Nat) (w : Work) : (s.setWork die i w).mem = s.mem := rfl
@[simp] theorem setWork_cores (s : State) (die i : Nat) (w : Work) : (s.setWork die i w).cores = s.cores := rfl
@[simp] theorem setWork_rerouting (s : State) (die i : Nat) (w : Work) : (s.setWork die i w).rerouting = s.rerouting := rfl

/-! ### The completion of an entry (R56, R448, R449) -/

/-- The completion token of an entry (R56). -/
def completionToken (die : Nat) (w : Work) (status : Nat) : Packet :=
  { src := .work die, dst := .core (handleCore w.chandle), cls := .token, tenant := w.tenant,
    msg := .frame (.handle w.chandle) w.cslot 0 1 0 (BitVec.ofNat 512 status) 0 0 false, held := false }

/-- The completion token changes the network alone. -/
theorem workToken_eq (s : State) (die : Nat) (w : Work) (status : Nat) :
    ∃ l, s.workToken die w status = { s with net := s.net ++ l } ∧
      (w.chandle ≠ 0 → s.rerouting = [] → completionToken die w status ∈ l) := by
  unfold State.workToken
  split
  · next h => exact ⟨[], by simp, fun hn => absurd h hn⟩
  · exact ⟨_, rfl, fun _ hr => by simp [hr, completionToken]⟩

/-- The change of a work table entry's counter on its way to its die (R56). -/
def counterChange (src : Agent) (id : Nat) (delta : Int) (status : Nat) : Packet :=
  { src := src, dst := .work (id / 2 ^ 14 % 4), cls := .token, tenant := 0,
    msg := .work (id % 256) (id / 256 % 64) delta status, held := false }

/-- The completion that travels to the entry above changes the network alone. -/
theorem sendParent_eq (s : State) (src : Agent) (level id status : Nat) :
    ∃ l, s.sendParent src level id status = { s with net := s.net ++ l } ∧
      ((s.workOf id).level = level → s.rerouting = [] → counterChange src id (-1) status ∈ l) := by
  unfold State.sendParent
  split
  · exact ⟨_, rfl, fun _ hr => by simp [hr, counterChange]⟩
  · next h => exact ⟨[], by simp, fun hn => absurd hn h⟩

section
variable {s : State} {die i status : Nat}

/-- An entry that completes, as it stands then. -/
def Work.finished (w : Work) (status : Nat) : Work := { w with state := .done, counter := 0, status := status }

/-- A launch's or a graph's entry completes: it is DONE, its token is sent, and its parent's counter falls; a launch gives it no
status. -/
theorem finishWork_of_low (hl : (s.work die i).level = 1 ∨ (s.work die i).level = 2) :
    let w := s.work die i
    s.finishWork die i status = ((s.setWork die i (w.finished status)).workToken die w status).sendParent (.work die) (w.level + 1)
      (s.workId w.pdie w.pidx) (if w.level = 1 then 0 else status) := by
  rcases hl with h | h
  · simp [State.finishWork, Work.finished, h]
  · simp [State.finishWork, Work.finished, h]

/-- What the completion of a launch's or a graph's entry leaves. -/
theorem finishWork_effect (hl : (s.work die i).level = 1 ∨ (s.work die i).level = 2) :
    let w := s.work die i
    let parent := s.workId w.pdie w.pidx
    ∃ net, s.finishWork die i status = { s.setWork die i (w.finished status) with net := net } ∧
      (w.chandle ≠ 0 → s.rerouting = [] → completionToken die w status ∈ net) ∧
      ((s.workOf parent).level = w.level + 1 → s.rerouting = [] →
        counterChange (.work die) parent (-1) (if w.level = 1 then 0 else status) ∈ net) := by
  intro w parent
  obtain ⟨l, hu, htok⟩ := workToken_eq (s.setWork die i (w.finished status)) die w status
  obtain ⟨m, ht, hlow⟩ := sendParent_eq { s.setWork die i (w.finished status) with net := (s.setWork die i (w.finished status)).net ++ l }
    (.work die) (w.level + 1) parent (if w.level = 1 then 0 else status)
  refine ⟨(s.setWork die i (w.finished status)).net ++ l ++ m, ?_, fun hc hr => ?_, fun hp hr => ?_⟩
  · rw [finishWork_of_low hl]
    simp only [hu, ht, w, parent]
  · simp [htok hc hr]
  · have hlev := (setWork_level_seq (s := s) (die := die) (i := i) (w := w.finished status) rfl rfl
      (parent / 2 ^ 14 % 4) (parent % 256)).1
    simp [hlow (hlev.trans hp) hr]

end

/-! ### WORK_COUNTER_UPDATE (R56, R61, R448, R449) -/

section
variable {s : State} {k die i seq status : Nat} {delta : Int} {p : Packet}

theorem workCounterUpdate_of_recv (hp : s.recv k = some p) (hd : p.dst = .work die) (hm : p.msg = .work i seq delta status) :
    let w := s.work die i
    let c := ((w.counter : Int) + delta).toNat
    let st := max w.status status
    let u := (s.dropPkt k).setWork die i { w with counter := c, status := st }
    let v := if w.level = 4 ∧ delta < 0 ∧ status ≠ 0 then u.cancelPhases die i else u
    workCounterUpdate k s =
      if w.freedBy delta = true ∧ w.seq = seq then (s.dropPkt k).freeJob die i
      else if w.state ≠ .opened ∨ w.seq ≠ seq then s.dropPkt k
      else if delta < 0 ∧ c = 0 then v.finishWork die i st else v := by
  obtain ⟨src, dst, cls, tenant, msg, held⟩ := p
  subst hm hd
  simp only [workCounterUpdate, hp]

theorem Work.freedBy_iff (w : Work) (delta : Int) : w.freedBy delta = true ↔ w.level = 4 ∧ w.state = .done ∧ delta = 0 := by
  simp [Work.freedBy, and_assoc]

/-- An update that an OPEN entry of its sequence takes. -/
theorem workCounterUpdate_of_open (hp : s.recv k = some p) (hd : p.dst = .work die) (hm : p.msg = .work i seq delta status)
    (ho : (s.work die i).state = .opened) (hs : (s.work die i).seq = seq) :
    let w := s.work die i
    let c := ((w.counter : Int) + delta).toNat
    let st := max w.status status
    let u := (s.dropPkt k).setWork die i { w with counter := c, status := st }
    let v := if w.level = 4 ∧ delta < 0 ∧ status ≠ 0 then u.cancelPhases die i else u
    workCounterUpdate k s = if delta < 0 ∧ (w.counter : Int) + delta ≤ 0 then v.finishWork die i st else v := by
  have hfreed : (s.work die i).freedBy delta ≠ true := by simp [Work.freedBy_iff, ho]
  intro w c st u v
  have hupd := workCounterUpdate_of_recv hp hd hm
  dsimp only at hupd
  rw [if_neg (fun h => hfreed h.1), if_neg (by simp [ho, hs])] at hupd
  simpa only [Int.toNat_eq_zero] using hupd

end

theorem exec_workCounterUpdate (k : Nat) (s : State) : exec (.workCounterUpdate k) s = .next (workCounterUpdate k s) := rfl

/-- Settles O36: the branches of the update, and then what the completion of a launch's or a graph's entry leaves. -/
theorem workCountersComplete : Obligations.WorkCountersComplete := by
  unfold Obligations.WorkCountersComplete
  intro s k die i seq status delta p hp hd hm w d st u zero parent
  have hupd := workCounterUpdate_of_recv hp hd hm
  dsimp only at hupd
  simp only [exec_workCounterUpdate, Host.Outcome.next.injEq]
  refine ⟨fun hl hdone hz hs => ?_, fun hn ho => ?_, fun hs => ?_, fun ho hs hl => ?_, fun ho hs hl => ?_⟩
  · rw [hupd, if_pos ⟨(Work.freedBy_iff _ _).2 ⟨hl, hdone, hz⟩, hs⟩]
  · rw [hupd, if_neg (fun h => hn ((Work.freedBy_iff _ _).1 h.1)), if_pos (.inl ho)]
  · rw [hupd, if_neg (fun h => hs h.2), if_pos (.inr hs)]
  · have hopen := workCounterUpdate_of_open hp hd hm ho hs
    have hv : (if w.level = 4 ∧ delta < 0 ∧ status ≠ 0 then u.cancelPhases die i else u) =
        if delta < 0 ∧ status ≠ 0 then u.cancelPhases die i else u := by simp [hl]
    dsimp only at hopen
    rw [hv] at hopen
    exact ⟨fun hz => hopen.trans (if_neg hz), fun hz => hopen.trans (if_pos hz)⟩
  · have hopen := workCounterUpdate_of_open hp hd hm ho hs
    have h4 : ¬((s.work die i).level = 4 ∧ delta < 0 ∧ status ≠ 0) := fun h => hl h.1
    dsimp only at hopen
    rw [if_neg h4] at hopen
    refine ⟨fun hz => hopen.trans (if_neg hz), fun hz => hopen.trans (if_pos hz), fun hz hlow => ?_⟩
    have hu : u.work die i = { w with counter := ((w.counter : Int) + delta).toNat, status := st } := setWork_work_same _ _ _ _
    have hkeep : ∀ e j, (u.work e j).level = (s.work e j).level ∧ (u.work e j).seq = (s.work e j).seq :=
      setWork_level_seq (s := d) (w := { w with counter := ((w.counter : Int) + delta).toNat, status := st }) rfl rfl
    have hpar : u.workId w.pdie w.pidx = parent := by simp only [State.workId, (hkeep _ _).2, parent]
    have hplev : (u.workOf parent).level = (s.workOf parent).level := (hkeep _ _).1
    have heff := finishWork_effect (s := u) (die := die) (i := i) (status := st) (by rw [hu]; exact hlow)
    simp only [hu, hpar] at heff
    obtain ⟨net, ht, htok, hlower⟩ := heff
    refine ⟨_, (hopen.trans (if_pos hz)).trans ht, ?_⟩
    let t : State := { u.setWork die i (Work.finished { w with counter := ((w.counter : Int) + delta).toNat, status := st } st) with
      net := net }
    have hti : t.work die i = { w with state := .done, counter := 0, status := st } := setWork_work_same _ _ _ _
    have htick : ∀ dt, (t.tick dt).work die i = (t.work die i).freeDone := fun dt => tick_work t dt die i
    refine ⟨congrArg Work.state hti, congrArg Work.counter hti, congrArg Work.status hti, rfl, rfl, fun hc hr => htok hc hr,
      fun hp hr => hlower (hplev.trans hp) hr, fun dt h1 => ?_, fun dt h2 => ?_⟩
    · rw [htick, hti]
      simp [Work.freeDone, h1, Work.freed, Work.zero]
    · rw [htick, hti]
      simp [Work.freeDone, h2]

end Sys2Proof.Machine


/-! The spill engine (R30, R118 to R121, R403). -/

namespace Sys2Proof.Machine

/-! ### The spill engine (R30, R118 to R121, R403) -/

section
variable {s : State} {core i k : Nat}

theorem writeBackComplete_of_other (h : ((s.core core).frame i).state ≠ .spilling) : writeBackComplete core i s = s :=
  if_pos h

theorem writeBackComplete_of_dying (h : ((s.core core).frame i).state = .spilling) (hd : ((s.core core).frame i).dying = true) :
    writeBackComplete core i s = s.freeNow core i := by
  simp [writeBackComplete, h, hd]

theorem writeBackComplete_of_live (h : ((s.core core).frame i).state = .spilling) (hd : ((s.core core).frame i).dying = false) :
    writeBackComplete core i s = ((s.modFrame core i (fun g => { g with state := .spilled, poolofs := noRun })).putWords core i 0
      (s.frameWords core i)).tryCont core i := by
  simp [writeBackComplete, h, hd]

theorem evict_of_idle {v b : Nat} (hv : (s.core core).idleFrame v = true) (hb : (s.core core).freeBody = some b) :
    s.evict core v = s.modFrame core v (fun g => { g with state := .spilling, body := some b }) := by
  simp [State.evict, hv, hb]

section
variable (h : ((s.core core).frame i).state = .filling) (hp : ((s.core core).frame i).poolofs = noRun)
include h hp

theorem fillBackStart_of_run {r : Nat} {v : Option Nat} (hr : (s.core core).freeRun (classUnits ((s.core core).frame i).fclass) = some r) :
    fillBackStart core i v s = s.modFrame core i (fun g => { g with poolofs := r }) := by
  simp [fillBackStart, h, hp, hr]

theorem fillBackStart_of_victim {v : Nat} (hr : (s.core core).freeRun (classUnits ((s.core core).frame i).fclass) = none) :
    fillBackStart core i (some v) s = s.evict core v := by
  simp [fillBackStart, h, hp, hr]

theorem fillBackStart_of_none (hr : (s.core core).freeRun (classUnits ((s.core core).frame i).fclass) = none) :
    fillBackStart core i none s = s := by
  simp [fillBackStart, h, hp, hr]

end

/-- The frame's body as the spill engine reads it at the end of a fill. -/
def State.filledBody (s : State) (core i : Nat) : State :=
  (s.modFrame core i (fun g => { g with state := .spilled })).touchBody core i

theorem fillBackComplete_of_wake {r : Ready} (h : ((s.core core).frame i).state = .filling)
    (hp : ((s.core core).frame i).poolofs ≠ noRun) (hd : ((s.core core).frame i).dying = false)
    (hw : ((s.core core).frame i).wake = [r]) (hpo : (s.filledBody core i).poisonedSlot core i = none)
    (hr : (s.core core).ready.length < 64) :
    fillBackComplete core i s = (((s.filledBody core i).modFrame core i
      (fun g => { g with state := .local, body := none, wake := [] })).putWords core i 0
        ((s.filledBody core i).frameWords core i)).pushReady core r := by
  have hroom : ¬ readyMax < (s.core core).ready.length + 1 := by unfold readyMax; omega
  unfold State.filledBody at *
  simp [fillBackComplete, h, hp, hd, hw, hpo, hroom]

/-- What the spill engine does with an arrival at a SPILLED frame that has room and is open to it. -/
theorem spilledArrival_of_recv {p : Packet} {dest : FrameDest} {slot fw am pl dt sd sn lost}
    (hp : s.recv k = some p) (hd : p.dst = .core core) (hm : p.msg = .frame dest slot fw am pl dt sd sn lost)
    (hf : s.frameOf core dest = some i) (hs : ((s.core core).frame i).state = .spilled) (hc : s.coreClosed core = false)
    (hfo : s.foreign p core = false) (hr : (s.core core).ready.length < 64) :
    spilledArrival k s = if slot < ((s.core core).frame i).nslot ∧ isPoison (s.fside core i slot) = true
      then (s.dropPkt k).loseFrame core i slot else (s.dropPkt k).applyFrame core i slot fw am pl dt sd sn := by
  have hsp : s.frameSpilled core i = true := by simp [State.frameSpilled, hs]
  have hroom : (s.core core).readyRoom = true := decide_eq_true hr
  simp [spilledArrival, hp, hd, hm, hf, hsp, hroom, hc, hfo]

end

theorem exec_writeBackComplete {core i : Nat} {s : State} :
    exec (.writeBackComplete core i) s = .next (writeBackComplete core i s) := rfl
theorem exec_fillBackStart {core i : Nat} {v : Option Nat} {s : State} :
    exec (.fillBackStart core i v) s = .next (fillBackStart core i v s) := rfl
theorem exec_fillBackComplete {core i : Nat} {s : State} :
    exec (.fillBackComplete core i) s = .next (fillBackComplete core i s) := rfl
theorem exec_spilledArrival {k : Nat} {s : State} : exec (.spilledArrival k) s = .next (spilledArrival k s) := rfl

/-- Settles O41: each clause is a case of one of the spill engine's four steps. -/
theorem spillEngineMovesFrames : Obligations.SpillEngineMovesFrames := by
  intro s core i k p
  simp only [exec_writeBackComplete, exec_fillBackStart, exec_fillBackComplete, exec_spilledArrival, Host.Outcome.next.injEq]
  refine ⟨writeBackComplete_of_other, writeBackComplete_of_dying, writeBackComplete_of_live, ?_, ?_, ?_⟩
  · intro h hp
    exact ⟨fun r v hr => fillBackStart_of_run h hp hr,
      fun v b hr hv hb => (fillBackStart_of_victim h hp hr).trans (evict_of_idle hv hb), fillBackStart_of_none h hp⟩
  · intro h hp hd r hw hpo hr
    exact fillBackComplete_of_wake h hp hd hw hpo hr
  · intro dest slot fw am pl dt sd sn lost hp hd hm hf hs hc hfo hr
    have key := spilledArrival_of_recv hp hd hm hf hs hc hfo hr
    exact ⟨fun hn => key.trans (if_neg (by simp [hn])), fun hl hy => key.trans (if_pos ⟨hl, hy⟩)⟩

end Sys2Proof.Machine


/-! Frame tokens (R33, R35, R40, R49, R82, R219, R376). -/

namespace Sys2Proof.Machine

/-! ### What a token does to its frame (R35, R40, R219) -/

theorem coreErr_eq_unitErr (cls code unit core tenant : Nat) : coreErr cls code unit core tenant =
    unitErr cls code unit core (if isSteward core then 9 else 0) (if isSteward core then 0 else coreInCluster core) tenant := by
  unfold coreErr
  split <;> rfl

section
variable {s : State} {core i slot fw am pl : Nat} {dt : Vec} {sd : Byte} {sn : Handle}

/-- The state with a frame token's payload written and its frame's progress noted. -/
def State.payloadIn (s : State) (core i fw pl : Nat) (dt : Vec) (sd : Byte) : State :=
  (s.setFwords core i fw sd (payloadWords dt pl)).modFrame core i (fun g => { g with progress := s.cycle, reported := false })

theorem applyFrame_of_beyond (h : ((s.core core).frame i).nslot ≤ slot) : s.applyFrame core i slot fw am pl dt sd sn =
    s.logErr (coreErr 0x05 0x0D 5 core (s.tenantOf core)) :=
  if_pos h

theorem applyFrame_of_handler (h : slot < ((s.core core).frame i).nslot) (hk : slotKind (s.fword core i slot) = 3)
    (hv : slotValid (s.fword core i slot) = true) (ha : slotArmed (s.fword core i slot) = true)
    (hp : (s.core core).frameParked i = false) : s.applyFrame core i slot fw am pl dt sd sn =
      (s.modFrame core i (fun g => { g with progress := s.cycle, reported := false })).handlerArrival core i slot fw dt pl sd sn := by
  simp [State.applyFrame, Nat.not_le.mpr h, hk, hv, ha, hp, Frame.touch]

theorem applyFrame_of_long (h : slot < ((s.core core).frame i).nslot) (hk : slotKind (s.fword core i slot) ≠ 3) (hp : pl ≠ 0)
    (hl : ((s.core core).frame i).words < fw + pl / 8) : s.applyFrame core i slot fw am pl dt sd sn =
      s.logErr (coreErr 0x05 0x0D 5 core (s.tenantOf core)) := by
  simp [State.applyFrame, Nat.not_le.mpr h, hk, hp, hl]

/-- A token that fits its frame writes its payload and then lowers the slot, where that is a COUNT slot. -/
theorem applyFrame_of_fits (h : slot < ((s.core core).frame i).nslot) (hk : slotKind (s.fword core i slot) ≠ 3)
    (hp : pl = 0 ∨ fw + pl / 8 ≤ ((s.core core).frame i).words) : s.applyFrame core i slot fw am pl dt sd sn =
      if slotKind ((s.payloadIn core i fw pl dt sd).fword core i slot) = 0 then
        (s.payloadIn core i fw pl dt sd).updateSlot core i slot (withCount ((s.payloadIn core i fw pl dt sd).fword core i slot)
          (slotCount ((s.payloadIn core i fw pl dt sd).fword core i slot) - BitVec.ofNat 24 am))
      else s.payloadIn core i fw pl dt sd := by
  have hl : ¬ (pl ≠ 0 ∧ ((s.core core).frame i).words < fw + pl / 8) := by omega
  exact (if_neg (Nat.not_le.mpr h)).trans ((if_neg fun hh => hk hh.1).trans (if_neg hl))

end

/-! ### The arrival of a frame token (R33, R49, R82, log 67) -/

section
variable {s : State} {k core i slot fw am pl : Nat} {p : Packet} {dest : FrameDest} {dt : Vec} {sd : Byte} {sn : Handle} {lost : Bool}
variable (hp : s.recv k = some p) (hd : p.dst = .core core) (hm : p.msg = .frame dest slot fw am pl dt sd sn lost)
  (hc : s.coreClosed core = false) (hfo : s.foreign p core = false)
include hp hd hm hc hfo

theorem frameTokenArrival_of_noFrame (hf : s.frameOf core dest = none) (hl : lost = false) :
    frameTokenArrival k s = s.discard k p core dest := by
  have hdv : s.diverted p core = false := by simp [State.diverted, hfo]
  simp [frameTokenArrival, hp, hd, hm, hc, hdv, hf, hl]

theorem frameTokenArrival_of_frame (hf : s.frameOf core dest = some i) (hs : ((s.core core).frame i).state = .local) :
    frameTokenArrival k s = if (s.core core).ready.length < 64 ∧ s.slotWaits core i slot am = false
      then (s.dropPkt k).applyFrame core i slot fw am pl dt sd sn else s := by
  have hdv : s.diverted p core = false := by simp [State.diverted, hfo]
  have hr : (s.core core).readyRoom = decide ((s.core core).ready.length < 64) := rfl
  simp [frameTokenArrival, hp, hd, hm, hc, hdv, hf, hfo, hs, hr]

end

theorem exec_frameTokenArrival {k : Nat} {s : State} : exec (.frameTokenArrival k) s = .next (frameTokenArrival k s) := rfl

/-- Settles O33: a token that finds its frame is applied or waits, and one that finds none is discarded. -/
theorem frameTokensArrive : Obligations.FrameTokensArrive := by
  intro s k core i slot fw am pl p dest dt sd sn lost hp hd hm hc hfo
  simp only [exec_frameTokenArrival, Host.Outcome.next.injEq, ← coreErr_eq_unitErr]
  refine ⟨fun hf hl => ?_, fun hf hs => ?_⟩
  · have key := frameTokenArrival_of_noFrame hp hd hm hc hfo hf hl
    refine ⟨fun h hh => ?_, fun v hv => ?_⟩
    · rw [key, hh, State.discard]
    · rw [key, hv, State.discard, hfo, if_neg Bool.false_ne_true]
  · have key := frameTokenArrival_of_frame hp hd hm hc hfo hf hs
    refine ⟨fun hw => key.trans (if_neg ?_), fun hr hw => ?_⟩
    · rcases hw with hw | hw
      · omega
      · simp [hw]
    have key := key.trans (if_pos ⟨hr, hw⟩)
    refine ⟨fun h => key.trans (applyFrame_of_beyond h),
      fun h hk hv ha hpk => key.trans (applyFrame_of_handler h hk hv ha hpk), fun h hk => ⟨fun hp hl =>
        key.trans (applyFrame_of_long h hk hp hl), fun hfit => ?_⟩⟩
    have key := key.trans (applyFrame_of_fits h hk hfit)
    exact ⟨fun hz => key.trans (if_pos hz), fun hz => key.trans (if_neg hz)⟩

end Sys2Proof.Machine


/-! Launches at their target, purges and job submissions (R57, R226, R337, R404, R434). -/

namespace Sys2Proof.Machine

/-! ### A launch at its target (R226, R404) -/

section
variable {s s1 : State} {k core id made n : Nat} {p : Packet} {d : Vec} {x : Ctx}

/-- The slots that the next activation of a launch asks for: none beyond the words of its class (R27). -/
def State.launchSlots (s : State) (core : Nat) (d : Vec) : Nat :=
  min (fieldN d 24 7) (classWords (clsField ((s.core core).nodeDesc (fieldN d 0 20)) (fieldN d 20 3)))

/-- What the next activation of a launch finds in the core's frame table. -/
def State.launchFrame (s : State) (core id made : Nat) (d : Vec) (x : Ctx) : Alloc :=
  s.allocFrame core (clsField ((s.core core).nodeDesc (fieldN d 0 20)) (fieldN d 20 3)) (s.launchSlots core d) (fieldN d 0 20) id
    (mkHandle x.core x.frame x.gen) (iterVec d made) false

/-- The state with the words of a frame just made for a launch of a core: slots of the descriptor's form, or its image. -/
def State.launchWords (s s1 : State) (core n : Nat) (d : Vec) : State :=
  if bitN d 179 then s1.initSlots core n (s.launchSlots core d) (freshSlot ((s.core core).nodeDesc (fieldN d 0 20)))
  else s1.copyImage core n (fieldN d 160 19)

variable (hp : s.recv k = some p) (hd : p.dst = .core core) (hm : p.msg = .launch id d x made)
include hp hd hm

theorem launchAtTarget_of_stale (hw : (s.work (id / 2 ^ 14 % 4) (id % 256)).state ≠ .opened ∨
    (s.work (id / 2 ^ 14 % 4) (id % 256)).seq ≠ id / 256 % 64) : launchAtTarget k s = s.dropPkt k := by
  simp only [launchAtTarget, hp, hd, hm, if_pos hw]

section
variable (ho : ¬ ((s.work (id / 2 ^ 14 % 4) (id % 256)).state ≠ .opened ∨
  (s.work (id / 2 ^ 14 % 4) (id % 256)).seq ≠ id / 256 % 64)) (hc : s.coreClosed core = false)
include ho hc

theorem launchAtTarget_of_full (hr : 64 ≤ (s.core core).ready.length) : launchAtTarget k s = s := by
  have hr : readyMax ≤ (s.core core).ready.length := hr
  simp only [launchAtTarget, hp, hd, hm, if_neg ho, hc, if_pos hr, Bool.false_eq_true, if_false]

variable (hr : (s.core core).ready.length < 64)
include hr

theorem launchAtTarget_of_noEntry (hf : s.launchFrame core id made d x = .noEntry) :
    launchAtTarget k s = (s.dropPkt k).launchFail core 0x03 d id := by
  have hr : ¬ readyMax ≤ (s.core core).ready.length := Nat.not_le.mpr hr
  unfold State.launchFrame State.launchSlots at hf
  simp only [launchAtTarget, hp, hd, hm, if_neg ho, hc, if_neg hr, hf, Bool.false_eq_true, if_false]

theorem launchAtTarget_of_noRoom (hf : s.launchFrame core id made d x = .noRoom) :
    launchAtTarget k s = (s.dropPkt k).launchFail core 0x02 d id := by
  have hr : ¬ readyMax ≤ (s.core core).ready.length := Nat.not_le.mpr hr
  unfold State.launchFrame State.launchSlots at hf
  simp only [launchAtTarget, hp, hd, hm, if_neg ho, hc, if_neg hr, hf, Bool.false_eq_true, if_false]

/-- An activation is made where the ready queue takes its first firings; the packet stands until the last one is. -/
theorem launchAtTarget_of_ok (hf : s.launchFrame core id made d x = .ok s1 n)
    (hq : (s.core core).ready.length + ((s.launchWords s1 core n d).freshFires core n).length ≤ 64) : launchAtTarget k s =
      if made + 1 < launchCount d then
        ((s.launchWords s1 core n d).fireFresh core n).setPkt k { p with msg := .launch id d x (made + 1) }
      else ((s.launchWords s1 core n d).fireFresh core n).dropPkt k := by
  have hr : ¬ readyMax ≤ (s.core core).ready.length := Nat.not_le.mpr hr
  have hq : ¬ readyMax < (s.core core).ready.length + ((s.launchWords s1 core n d).freshFires core n).length := Nat.not_lt.mpr hq
  unfold State.launchFrame at hf
  unfold State.launchWords State.launchSlots at *
  simp only [launchAtTarget, hp, hd, hm, if_neg ho, hc, if_neg hr, hf, if_neg hq, Bool.false_eq_true, if_false]

end
end

/-! ### Purges (R57) -/

section
variable {s : State} {k core die i : Nat} {p : Packet}

theorem purge_of_recv (hp : s.recv k = some p) (hd : p.dst = .core core) (hm : p.msg = .purge die i) :
    purge k s = ((((s.core core).frames.filter (fun e =>
      e.2.state != .free && (s.frameLevels core e.2).contains (die, i))).map (·.1)).foldl (fun t n => t.purgeFrame core n)
        (s.dropPkt k)).send
      { src := .core core, dst := .work die, cls := .token, tenant := 0, msg := .purgeAck die i core, held := false } := by
  obtain ⟨src, dst, cls, tenant, msg, held⟩ := p
  subst hm hd
  simp only [purge, hp]

theorem purgeAcknowledgement_of_other (h : (s.work die i).state ≠ .cancelling) : purgeAcknowledgement die i s = s :=
  if_neg fun hh => h hh.1

/-- An entry whose last acknowledgement is in, with nothing below it, completes. -/
theorem purgeAcknowledgement_of_last (h : (s.work die i).state = .cancelling) (ha : (s.work die i).acks = [])
    (hb : s.workBelow 3 die i = []) (hn : s.net.any (isAck die i) = false) :
    purgeAcknowledgement die i s = s.finishWork die i (s.work die i).status := by
  have hnet : s.net.filter (fun p => !isAck die i p) = s.net :=
    List.filter_eq_self.mpr fun p hp => by simp [List.any_eq_false.mp hn p hp]
  simp [purgeAcknowledgement, h, ha, hnet, hb]

end

/-! ### Job submissions (R60, R337, R338, R434, log 37) -/

/-- What no step of a fold changes, the fold leaves unchanged. -/
theorem foldl_keeps {α β γ : Type} (F : α → γ) {f : α → β → α} (h : ∀ a b, F (f a b) = F a) (l : List β) (a : α) :
    F (l.foldl f a) = F a := by
  induction l generalizing a with
  | nil => rfl
  | cons b l ih => exact (ih _).trans (h a b)

section
variable {g : State → Nat → Work} {die j q : Nat} {l : List Nat}

theorem foldl_setWork_other (s : State) (h : j ∉ l) :
    (l.foldl (fun t p => t.setWork die p (g t p)) s).work die j = s.work die j := by
  induction l generalizing s with
  | nil => rfl
  | cons p l ih =>
    obtain ⟨hp, hl⟩ := not_or.mp (fun hh => h (List.mem_cons.mpr hh))
    rw [List.foldl_cons, ih _ hl, setWork_work, if_neg fun hh => hp hh.2]

/-- Each entry that a list names stands as one of the entries written. -/
theorem foldl_setWork_mem {P : Work → Prop} (hg : ∀ t p, P (g t p)) (s : State) (h : q ∈ l) :
    P ((l.foldl (fun t p => t.setWork die p (g t p)) s).work die q) := by
  induction l generalizing s with
  | nil => exact absurd h List.not_mem_nil
  | cons p l ih =>
    by_cases hq : q ∈ l
    · exact ih _ hq
    · obtain rfl : q = p := (List.mem_cons.mp h).resolve_right hq
      rw [List.foldl_cons, foldl_setWork_other _ hq, setWork_work_same]
      exact hg _ _

end

theorem freeEntries_nodup (s : State) (die n : Nat) : (s.freeEntries die n).Nodup :=
  ((List.nodup_range.filter _).sublist (List.take_sublist _ _))

section
variable {s : State} {die src j : Nat} {d : Vec} {ps : List Nat}

theorem firstJob_of_only (h : s.jobs.filter (fun e => e.1 == die) = []) :
    State.firstJob { s with jobs := s.jobs ++ [(die, src, d)] } die = some (src, d) := by
  have hn : s.jobs.find? (fun e => e.1 == die) = none := by
    rw [List.find?_eq_none]; exact List.filter_eq_nil_iff.mp h
  simp [State.firstJob, hn]

theorem dropJob_of_only (l : List (Nat × Nat × Vec)) (h : l.filter (fun e => e.1 == die) = []) :
    dropJob die (l ++ [(die, src, d)]) = l := by
  induction l with
  | nil => simp [dropJob]
  | cons e l ih =>
    rw [List.filter_eq_nil_iff, List.forall_mem_cons] at h
    rw [List.cons_append, dropJob, if_neg (by simpa using h.1), ih (List.filter_eq_nil_iff.mpr h.2)]

/-- The state with the entries of a job and its phases opened. -/
def State.openEntries (s : State) (die j : Nat) (ps : List Nat) (sub : Nat × Vec) : State :=
  ps.foldl (fun t p => t.setWork die p (openedWork (t.work die p) 3 1 (subTenant sub.2) die j (0, 0)))
    (s.setWork die j (openedWork (s.work die j) 4 (fieldN sub.2 248 8) (subTenant sub.2) 0 0 sub))

/-- The state with a submission accepted: its entries open, its keys loaded, its reply sent. -/
def State.acceptJob (s : State) (die j : Nat) (ps : List Nat) (sub : Nat × Vec) : State :=
  let s2 := s.openEntries die j ps sub
  let s3 := (s.freeKeys (fieldN sub.2 240 8)).foldl (fun t k => t.loadKey k (subTenant sub.2) (s2.workId die j))
    { s2 with jobs := dropJob die s2.jobs }
  s3.replyTo sub 0 0 (s3.workId die j)

theorem takeJob_of_free {sub : Nat × Vec} (hj : s.firstJob die = some sub) (hf : s.freeEntries die (fieldN sub.2 248 8 + 1) = j :: ps)
    (hp : ps.length = fieldN sub.2 248 8) (hk : (s.freeKeys (fieldN sub.2 240 8)).length = fieldN sub.2 240 8) :
    s.takeJob die = (s.acceptJob die j ps sub).openImage die j := by
  simp only [State.takeJob, hj, hf, hp, hk, and_self, if_true, State.acceptJob, State.openEntries]

theorem takeJob_of_few {sub : Nat × Vec} (hj : s.firstJob die = some sub)
    (hf : (s.freeEntries die (fieldN sub.2 248 8 + 1)).length ≤ fieldN sub.2 248 8) : s.takeJob die = s := by
  simp only [State.takeJob, hj]
  split
  · next j ps he =>
    rw [he, List.length_cons] at hf
    exact if_neg (by omega)
  · rfl

/-- What opening the entries of a job leaves unchanged. -/
theorem openEntries_frame (sub : Nat × Vec) : (s.openEntries die j ps sub).mem = s.mem ∧ (s.openEntries die j ps sub).jobs = s.jobs ∧
    (s.openEntries die j ps sub).outbox = s.outbox := by
  unfold State.openEntries
  refine ⟨?_, ?_, ?_⟩
  · exact foldl_keeps State.mem (fun _ _ => by rfl) ..
  · exact foldl_keeps State.jobs (fun _ _ => by rfl) ..
  · exact foldl_keeps State.outbox (fun _ _ => by rfl) ..

theorem openEntries_job (sub : Nat × Vec) (h : j ∉ ps) : (s.openEntries die j ps sub).work die j =
    openedWork (s.work die j) 4 (fieldN sub.2 248 8) (subTenant sub.2) 0 0 sub := by
  rw [State.openEntries, foldl_setWork_other _ h, setWork_work_same]

theorem openEntries_phase (sub : Nat × Vec) {q : Nat} (h : q ∈ ps) :
    ((s.openEntries die j ps sub).work die q).state = .opened ∧ ((s.openEntries die j ps sub).work die q).level = 3 :=
  foldl_setWork_mem (P := fun w => w.state = .opened ∧ w.level = 3) (fun _ _ => ⟨rfl, rfl⟩) _ h

/-- Loading keys leaves memory, the queues, what is sent out and the work table unchanged. -/
theorem acceptJob_frame (sub : Nat × Vec) : (s.acceptJob die j ps sub).mem = s.mem ∧
    (s.acceptJob die j ps sub).jobs = dropJob die s.jobs ∧
    (s.acceptJob die j ps sub).work = (s.openEntries die j ps sub).work ∧
    (s.acceptJob die j ps sub).outbox = s.outbox ++ [.reply sub.1 (replyBytes (subTag sub.2) 0 0
      ((s.acceptJob die j ps sub).workId die j))] := by
  obtain ⟨hm, hj, ho⟩ := openEntries_frame (s := s) (die := die) (j := j) (ps := ps) sub
  unfold State.acceptJob
  refine ⟨?_, ?_, ?_, ?_⟩
  · exact (foldl_keeps State.mem (fun _ _ => by rfl) ..).trans hm
  · exact (foldl_keeps State.jobs (fun _ _ => by rfl) ..).trans (congrArg (dropJob die) hj)
  · exact foldl_keeps State.work (fun _ _ => by rfl) ..
  · exact congrArg (· ++ _) ((foldl_keeps State.outbox (fun _ _ => by rfl) ..).trans ho)

theorem jobSubmission_of_down (h : s.ports = []) : jobSubmission die src d s = s := by
  simp [jobSubmission, h]

section
variable (hp : s.ports ≠ [])
include hp

theorem jobSubmission_of_refused (h : s.start.minimal = true ∨ submissionOk d = false) :
    jobSubmission die src d s = s.replyTo (src, d) 2 0 0 := by
  have hr : (s.start.minimal || !submissionOk d) = true := by simpa using h
  simp [jobSubmission, hp, hr]

variable (hm : s.start.minimal = false) (ho : submissionOk d = true)
include hm ho

theorem jobSubmission_of_busy (h : 256 ≤ (s.jobs.filter (fun j => j.1 == die)).length) :
    jobSubmission die src d s = s.replyTo (src, d) 1 0 0 := by
  simp [jobSubmission, hp, hm, ho, h]

theorem jobSubmission_of_only (h : s.jobs.filter (fun j => j.1 == die) = []) :
    jobSubmission die src d s = State.takeJob { s with jobs := s.jobs ++ [(die, src, d)] } die := by
  simp [jobSubmission, hp, hm, ho, h]

end
end

theorem exec_launchAtTarget {k : Nat} {s : State} : exec (.launchAtTarget k) s = .next (launchAtTarget k s) := rfl
theorem exec_purge {k : Nat} {s : State} : exec (.purge k) s = .next (purge k s) := rfl
theorem exec_purgeAcknowledgement {die i : Nat} {s : State} :
    exec (.purgeAcknowledgement die i) s = .next (purgeAcknowledgement die i s) := rfl
theorem exec_jobSubmission {die src : Nat} {d : Vec} {s : State} :
    exec (.jobSubmission die ⟨src, d⟩) s = .next (jobSubmission die src d s) := rfl

/-- Settles O37: a launch by the cases of its entry, its core and its frame; a purge by its acknowledgements; a submission by the steward's
queue and what it finds free. -/
theorem launchesPurgesAndSubmissionsAct : Obligations.LaunchesPurgesAndSubmissionsAct := by
  intro s k core die i src p d
  simp only [exec_launchAtTarget, exec_purge, exec_purgeAcknowledgement, exec_jobSubmission, Host.Outcome.next.injEq]
  refine ⟨fun id x made hp hd hm => ⟨launchAtTarget_of_stale hp hd hm, fun ho hs hc => ?_⟩, purge_of_recv,
    purgeAcknowledgement_of_other, purgeAcknowledgement_of_last, jobSubmission_of_down, fun hp => ⟨jobSubmission_of_refused hp,
      jobSubmission_of_busy hp, fun hm hok hw hf => ?_, fun j ps hm hok hw hf hl hk => ?_⟩⟩
  · have hopen : ¬ ((s.work (id / 2 ^ 14 % 4) (id % 256)).state ≠ .opened ∨
        (s.work (id / 2 ^ 14 % 4) (id % 256)).seq ≠ id / 256 % 64) := fun h => h.elim (absurd ho) (absurd hs)
    refine ⟨launchAtTarget_of_full hp hd hm hopen hc, launchAtTarget_of_noEntry hp hd hm hopen hc,
      launchAtTarget_of_noRoom hp hd hm hopen hc, fun s1 n hr hf hq => ?_⟩
    have key := launchAtTarget_of_ok hp hd hm hopen hc hr hf hq
    exact ⟨fun hl => key.trans (if_neg (by omega)), fun hl => key.trans (if_pos hl)⟩
  · exact (jobSubmission_of_only hp hm hok hw).trans (takeJob_of_few (firstJob_of_only hw) hf)
  · obtain ⟨hmem, hjobs, hwork, hout⟩ := acceptJob_frame (s := { s with jobs := s.jobs ++ [(die, src, d)] }) (die := die) (j := j)
      (ps := ps) (src, d)
    have hj : j ∉ ps := (List.nodup_cons.mp (hf ▸ freeEntries_nodup s die _)).1
    have hopen := (congrFun₂ hwork die j).trans (openEntries_job (src, d) hj)
    refine ⟨_, (jobSubmission_of_only hp hm hok hw).trans (takeJob_of_free (firstJob_of_only hw) hf hl hk),
      hjobs.trans (dropJob_of_only _ hw), hout, hmem, congrArg Work.state hopen, congrArg Work.level hopen,
      congrArg Work.counter hopen, congrArg Work.image hopen, fun q hq => hwork ▸ openEntries_phase _ hq⟩

end Sys2Proof.Machine


/-! The head of the commit queue (R47, R49, R51, R130 to R135, R229). -/

namespace Sys2Proof.Machine

/-! ### What the head of the commit queue waits for (R130, R131, R133, log 70) -/

/-- Accesses that a release at a scope waits for are counted (R129, R130). -/
def Unack.counted (u : Unack) (sc : Scope) : Prop :=
  (sc = .clus ∧ u.clus ≠ 0) ∨ (sc = .die ∧ u.die ≠ 0) ∨ (sc = .pkg ∧ (u.pkg ≠ 0 ∨ u.load ≠ 0)) ∨
    (sc = .sys ∧ (u.sys ≠ 0 ∨ u.load ≠ 0))

theorem releaseOk_iff (u : Unack) (sc : Scope) : u.releaseOk sc = true ↔ ¬ u.counted sc := by
  cases sc <;> simp [Unack.releaseOk, Unack.counted]

theorem ownWritten_iff (s : State) (core : Nat) (sc : Scope) :
    s.ownWritten core sc = true ↔ sc = .core ∨ s.ownStoreOut core = false := by
  simp [State.ownWritten]

section
variable {s : State} {h : Held} {sc : Scope}

/-- What an action that is a release at a scope waits for. -/
theorem orderedOut_of_scope (hs : s.actScope h = some sc) : s.orderedOut h =
    ((s.core h.ctx.core).unack.releaseOk sc && s.ownWritten h.ctx.core sc) := by
  unfold State.orderedOut
  split
  · next ha => simp [State.actScope, ha] at hs
  · next ha => simp [State.actScope, ha] at hs
  · rw [hs]

theorem orderedOut_of_noScope (hs : s.actScope h = none) (hf : ∀ k sc, h.act ≠ .fence k sc) : s.orderedOut h = true := by
  unfold State.orderedOut
  split
  · next ha => exact absurd ha (hf _ _)
  · next ha => exact absurd ha (hf _ _)
  · rw [hs]

theorem not_orderedOut_of_counted (hs : s.actScope h = some sc) (hc : (s.core h.ctx.core).unack.counted sc) :
    s.orderedOut h = false := by
  have hr : (s.core h.ctx.core).unack.releaseOk sc = false := by
    rw [← Bool.not_eq_true, releaseOk_iff]; exact not_not_intro hc
  rw [orderedOut_of_scope hs, hr, Bool.false_and]

theorem orderedOut_of_may (hs : s.actScope h = some sc) (hc : ¬ (s.core h.ctx.core).unack.counted sc)
    (hw : sc = .core ∨ s.ownStoreOut h.ctx.core = false) : s.orderedOut h = true := by
  rw [orderedOut_of_scope hs, (releaseOk_iff _ _).mpr hc, (ownWritten_iff _ _ _).mpr hw, Bool.and_self]

/-- A FENCE mark's condition, and the stores that a release fence waits for besides. -/
theorem orderedOut_of_fence {kind : FenceKind} (ha : h.act = .fence kind sc) (hf : (s.core h.ctx.core).unack.fenceOk kind sc = true)
    (hw : kind = .acq ∨ sc = .core ∨ s.ownStoreOut h.ctx.core = false) : s.orderedOut h = true := by
  cases kind with
  | acq => simp only [State.orderedOut, ha, hf]
  | rel => simp only [State.orderedOut, ha, hf, (ownWritten_iff _ _ _).mpr (hw.resolve_left nofun), Bool.and_self]
  | full => simp only [State.orderedOut, ha, hf, (ownWritten_iff _ _ _).mpr (hw.resolve_left nofun), Bool.and_self]

/-! ### The head leaves, or stays (R47, R49, R229) -/

theorem exec_commitQueueRelease {core : Nat} {s : State} :
    exec (.commitQueueRelease core) s = .next (commitQueueRelease core s) := rfl

/-- A core's commit queue without its head. -/
def State.popHead (s : State) (core : Nat) (t : List Held) : State := s.setCore core { s.core core with queue := t }

variable {core : Nat} {t : List Held} (hq : (s.core core).queue = h :: t)
include hq

/-- The head stays while its firing runs, or an acknowledgement or its order is awaited. -/
theorem commitQueueRelease_of_held (hw : (h.ended || isSteward core) = false ∨ (s.core core).tlbWait ≠ [] ∨
    (s.core core).atomWait.isSome = true ∨ s.orderedOut h = false) : exec (.commitQueueRelease core) s = .next s := by
  simp only [exec_commitQueueRelease, commitQueueRelease, hq, if_pos hw]

theorem commitQueueRelease_of_stuck (he : (s.popHead core t).releaseAct h = none) :
    exec (.commitQueueRelease core) s = .next s := by
  unfold State.popHead at he
  simp only [exec_commitQueueRelease, commitQueueRelease, hq, he, Option.getD_none, ite_self]

/-- A head that nothing holds takes its effect. -/
theorem commitQueueRelease_of_free {e : State} (hf : (h.ended = true ∨ isSteward core = true) ∧ (s.core core).tlbWait = [] ∧
    (s.core core).atomWait = none) (ho : s.orderedOut h = true) (he : (s.popHead core t).releaseAct h = some e) :
    exec (.commitQueueRelease core) s = .next e := by
  unfold State.popHead at he
  have hw : ¬ ((h.ended || isSteward core) = false ∨ (s.core core).tlbWait ≠ [] ∨ (s.core core).atomWait.isSome = true ∨
      s.orderedOut h = false) := by
    obtain ⟨hend, htlb, hatom⟩ := hf
    have hend : (h.ended || isSteward core) = true := by simpa using hend
    simp [htlb, hatom, ho, hend]
  simp only [exec_commitQueueRelease, commitQueueRelease, hq, if_neg hw, he, Option.getD_some]

end

/-! ### What an action does when it leaves -/

section
variable {s : State} {h : Held}

theorem releaseSend_of_handle {dest : Handle} {slot k am pl : Nat} {dt : Vec} {sd : Byte} (hd : dest.getLsbD 0 = true) :
    s.releaseSend h dest slot k am pl dt sd = some (s.sendTok h.ctx.core (.core (handleCore dest))
      (.frame (.handle dest) slot k am pl dt sd (mkHandle h.ctx.core h.ctx.frame h.ctx.gen) false)) := by
  simp only [State.releaseSend, hd, if_true]

theorem releaseRoinv_of_tenant {core : Nat} (hst : isSteward core = false) : s.releaseRoinv core =
    s.modCluster (clusterOf core) (fun k => { k with rocache := [], roEpoch := k.roEpoch + 1 }) := by
  simp only [State.releaseRoinv, hst, Bool.false_eq_true, if_false]
  rfl

theorem fieldN_low {w : Nat} (v : BitVec w) (n : Nat) : fieldN v 0 n = v.toNat % 2 ^ n := by
  rw [fieldN, pow_zero, Nat.div_one]

theorem popHead_frame {core : Nat} {t : List Held} (i : Nat) : ((s.popHead core t).core core).frame i = (s.core core).frame i := by
  simp [State.popHead, CoreSt.frame]

end

/-- Settles O29: the head's waits say when it stays, and a head that nothing holds takes the effect of its action. -/
theorem commitQueueReleasesItsHead : Obligations.CommitQueueReleasesItsHead := by
  rintro s _ h t _ hq rfl
  have stays (sc : Scope) (hs : s.actScope h = some sc) (hc : (s.core h.ctx.core).unack.counted sc) :=
    commitQueueRelease_of_held hq (.inr (.inr (.inr (not_orderedOut_of_counted hs hc))))
  refine ⟨⟨fun he hst => commitQueueRelease_of_held hq (.inl (by simp [he, hst])),
      fun ha => commitQueueRelease_of_held hq (.inr (.inr (.inl ha))), fun ht => commitQueueRelease_of_held hq (.inr (.inl ht))⟩,
    ⟨fun rel dest slot k am pl dt sd ha hc => stays (SendScope.scope rel) (by simp [State.actScope, ha]) hc,
      fun op x y sc va sz dt sd k sl ha hc => stays sc (by simp [State.actScope, ha]) hc,
      fun sc op ha hc => stays sc (by simp [State.actScope, ha]) hc, fun d ha hc => stays .sys ?_ hc⟩, fun hf => ?_⟩
  · rcases ha with ha | ha | ⟨tag, ha⟩ <;> simp [State.actScope, ha]
  have leaves {e : State} := commitQueueRelease_of_free (e := e) hq hf
  have leavesNow {a : Act} {e : State} (ha : h.act = a) (hs : s.actScope h = none) (hn : ∀ k sc, a ≠ .fence k sc) :=
    leaves (e := e) (orderedOut_of_noScope hs (ha ▸ hn))
  refine ⟨fun kind sc ha hok hw => leaves (orderedOut_of_fence ha hok hw) (by rw [State.releaseAct, ha]; rfl),
    fun dest slot k am pl dt sd hd ha => ?_, fun b ha hb hg => leavesNow ha (by simp [State.actScope, ha]) nofun ?_,
    fun port ha => leavesNow ha (by simp [State.actScope, ha]) nofun ?_,
    fun g ha => leavesNow ha (by simp [State.actScope, ha]) nofun ?_, fun d ha => leavesNow ha (by simp [State.actScope, ha]) nofun ?_,
    fun op ha => leavesNow ha (by simp [State.actScope, ha]) nofun ?_,
    fun ha hst => leavesNow ha (by simp [State.actScope, ha]) nofun ?_,
    fun ha => leavesNow ha (by simp [State.actScope, ha]) nofun ?_, fun ho e he => leaves ho he, commitQueueRelease_of_stuck hq⟩
  · rcases ha with ha | ⟨rel, ha, hc, hw⟩
    · exact leavesNow ha (by simp [State.actScope, ha]) nofun (by rw [State.releaseAct, ha]; exact releaseSend_of_handle hd)
    · exact leaves (orderedOut_of_may (by simp [State.actScope, ha]) hc hw) (by rw [State.releaseAct, ha]; exact releaseSend_of_handle hd)
  · rw [State.releaseAct, ha]
    exact congrArg some (if_pos ((congrArg Frame.gen (popHead_frame _)).trans hg))
  · rw [State.releaseAct, ha]; rfl
  · rw [State.releaseAct, ha]; rfl
  · rw [State.releaseAct, ha, ← fieldN_low]; rfl
  · rw [State.releaseAct, ha]; rfl
  · rw [State.releaseAct, ha]; exact congrArg some (releaseRoinv_of_tenant hst)
  · rw [State.releaseAct, ha]; rfl

end Sys2Proof.Machine


/-! The frame table, FALLOC and its slot words (R29 to R31, R214 to R216, R374, R404). -/

namespace Sys2Proof.Machine

/-! ### Fields of an operand -/

theorem fieldN_lt {w : Nat} (v : BitVec w) (lo n : Nat) : fieldN v lo n < 2 ^ n := Nat.mod_lt _ (Nat.two_pow_pos n)

/-- A field that reaches the top of a word is what is above the bits below it. -/
theorem fieldN_top {w : Nat} (v : BitVec w) {lo n : Nat} (h : lo + n = w) : fieldN v lo n = v.toNat / 2 ^ lo := by
  rw [fieldN, Nat.mod_eq_of_lt]
  rw [Nat.div_lt_iff_lt_mul (Nat.two_pow_pos lo), ← pow_add, add_comm n, h]
  exact v.isLt

/-! ### The allocation of a frame (R30, R214, log 7) -/

section
variable {s : State} {core cls nslot vnode launch : Nat} {parent : Handle} {iter : Word} {hframe : Bool}

/-- The frame table entry of a fresh frame, its place left open. -/
def State.freshFrame (s : State) (core i cls nslot vnode launch : Nat) (parent : Handle) (iter : Word) (hframe : Bool) : Frame :=
  { Frame.zero with gen := ((s.core core).frame i).gen, fclass := cls, nslot := nslot, vnode := vnode, launch := launch,
                    parent := parent, iter := iter, hframe := hframe, progress := s.cycle }

theorem allocFrame_of_noEntry (he : (s.core core).freeEntry = none) :
    s.allocFrame core cls nslot vnode launch parent iter hframe = .noEntry := by
  unfold State.allocFrame
  dsimp only
  rw [he]

theorem allocFrame_of_noRoom (he : (s.core core).freeEntry ≠ none) (hr : (s.core core).freeRun (2 ^ cls) = none)
    (hb : (s.core core).freeBody = none) : s.allocFrame core cls nslot vnode launch parent iter hframe = .noRoom := by
  obtain ⟨i, hi⟩ := Option.ne_none_iff_exists'.mp he
  unfold State.allocFrame
  dsimp only
  rw [hi]
  dsimp only
  rw [classUnits, hr, hb]

variable {i : Nat} (he : (s.core core).freeEntry = some i)
include he

theorem allocFrame_of_run {p : Nat} (hr : (s.core core).freeRun (2 ^ cls) = some p) :
    s.allocFrame core cls nslot vnode launch parent iter hframe =
      .ok ((s.modFrame core i (fun _ => { s.freshFrame core i cls nslot vnode launch parent iter hframe with
        state := .local, poolofs := p })).clearFrame core i) i := by
  unfold State.allocFrame
  dsimp only
  rw [he]
  dsimp only
  rw [classUnits, hr]
  rfl

theorem allocFrame_of_body {b : Nat} (hr : (s.core core).freeRun (2 ^ cls) = none) (hb : (s.core core).freeBody = some b) :
    s.allocFrame core cls nslot vnode launch parent iter hframe =
      .ok ((s.modFrame core i (fun _ => { s.freshFrame core i cls nslot vnode launch parent iter hframe with
        state := .spilled, poolofs := noRun, body := some b })).clearFrame core i) i := by
  unfold State.allocFrame
  dsimp only
  rw [he]
  dsimp only
  rw [classUnits, hr, hb]
  rfl

end

/-! ### The slot words of FALLOC (R214) -/

/-- A valid COUNT slot with a count, an arm bit and an entry, of the node's priority. -/
def countSlot (d : Rec) (count armed entry : Nat) : Word :=
  BitVec.ofNat 64 (count + 2 ^ 24 * armed + 2 ^ 25 + 2 ^ 28 * ndPrio d + 2 ^ 32 * entry)

theorem freshSlot_eq (d : Rec) : freshSlot d = countSlot d 0 0 (ndEntry d) := by
  rw [freshSlot, countSlot]
  congr 1
  ring

section
variable {d : Rec} {c a e : Nat}

theorem toNat_countSlot (hc : c < 2 ^ 24) (ha : a < 2) (he : e < 2 ^ 14) :
    (countSlot d c a e).toNat = c + 2 ^ 24 * a + 2 ^ 25 + 2 ^ 28 * ndPrio d + 2 ^ 32 * e := by
  have hp : ndPrio d < 2 ^ 2 := fieldN_lt _ _ _
  rw [countSlot, BitVec.toNat_ofNat, Nat.mod_eq_of_lt]
  omega

theorem setFieldN_count (hc : c < 2 ^ 24) (ha : a < 2) (he : e < 2 ^ 14) {x : Nat} (hx : x < 2 ^ 24) :
    setFieldN (countSlot d c a e) 0 24 x = countSlot d x a e := by
  apply BitVec.eq_of_toNat_eq
  rw [toNat_setFieldN (by decide), toNat_countSlot hc ha he, toNat_countSlot hx ha he]
  omega

theorem setFieldN_armed (hc : c < 2 ^ 24) (ha : a < 2) (he : e < 2 ^ 14) {x : Nat} (hx : x < 2) :
    setFieldN (countSlot d c a e) 24 1 x = countSlot d c x e := by
  apply BitVec.eq_of_toNat_eq
  rw [toNat_setFieldN (by decide), toNat_countSlot hc ha he, toNat_countSlot hc hx he]
  omega

theorem setFieldN_entry (hc : c < 2 ^ 24) (ha : a < 2) (he : e < 2 ^ 14) {x : Nat} (hx : x < 2 ^ 14) :
    setFieldN (countSlot d c a e) 32 14 x = countSlot d c a x := by
  have hp : ndPrio d < 2 ^ 2 := fieldN_lt _ _ _
  apply BitVec.eq_of_toNat_eq
  rw [toNat_setFieldN (by decide), toNat_countSlot hc ha he, toNat_countSlot hc ha hx]
  omega

end

/-- The word that FALLOC gives S0, by its operand. -/
def fallocSlot0 (d : Rec) (r : Word) : Word :=
  countSlot d (fieldN r 26 24) (fieldN r 10 1) (if bitN r 11 then fieldN r 12 14 else ndEntry d)

theorem setFieldN_freshSlot (d : Rec) (r : Word) :
    (if bitN r 11 then setFieldN (setFieldN (setFieldN (freshSlot d) 0 24 (fieldN r 26 24)) 24 1 (fieldN r 10 1)) 32 14 (fieldN r 12 14)
      else setFieldN (setFieldN (freshSlot d) 0 24 (fieldN r 26 24)) 24 1 (fieldN r 10 1)) = fallocSlot0 d r := by
  have hc : fieldN r 26 24 < 2 ^ 24 := fieldN_lt _ _ _
  have ha : fieldN r 10 1 < 2 := fieldN_lt _ _ _
  have he : ndEntry d < 2 ^ 14 := fieldN_lt _ _ _
  rw [freshSlot_eq, setFieldN_count (by decide) (by decide) he hc, setFieldN_armed hc (by decide) he ha,
    setFieldN_entry hc ha he (fieldN_lt _ _ _), fallocSlot0]
  split <;> rfl

/-! ### FALLOC (R214, R374, R404) -/

/-- The slot count that FALLOC's operand asks for. -/
def fallocSlots (r : Word) : Nat := r.toNat % 128

/-- The class that it asks for: the node's, or the one its field names. -/
def fallocClass (d : Rec) (r : Word) : Nat := if r.toNat / 128 % 8 = 0 then ndClass d else r.toNat / 128 % 8 - 1

/-- FALLOC takes the operand. -/
def fallocLegal (d : Rec) (r : Word) : Prop :=
  r.toNat / 128 % 8 < 6 ∧ fallocSlots r ≤ 64 ∧ fallocSlots r ≤ 32 * 2 ^ fallocClass d r ∧ r.toNat / 2 ^ 50 = 0

/-- The operand as the model's body reads it. -/
theorem not_fallocLegal_iff (d : Rec) (r : Word) : ¬ fallocLegal d r ↔
    6 ≤ fieldN r 7 3 ∨ 64 < fieldN r 0 7 ∨ classWords (clsField d (fieldN r 7 3)) < fieldN r 0 7 ∨ fieldN r 50 14 ≠ 0 := by
  have hn : fieldN r 0 7 = fallocSlots r := fieldN_low r 7
  have hc : fieldN r 7 3 = r.toNat / 128 % 8 := rfl
  have hcl : classWords (clsField d (fieldN r 7 3)) = 32 * 2 ^ fallocClass d r := rfl
  rw [hcl, hn, hc, fieldN_top r (by decide), fallocLegal]
  omega

/-- What a firing's FALLOC finds in the frame table of its core. -/
def State.fallocAlloc (s : State) (f : Firing) (d : Rec) (r : Word) : Alloc :=
  s.allocFrame s.cur (fallocClass d r) (fallocSlots r) f.ctx.vnode f.ctx.launch (mkHandle s.cur f.ctx.frame f.ctx.gen) f.ctx.iter false

theorem fallocAlloc_eq (s : State) (f : Firing) (d : Rec) (r : Word) :
    s.allocFrame s.cur (clsField d (fieldN r 7 3)) (fieldN r 0 7) f.ctx.vnode f.ctx.launch (mkHandle s.cur f.ctx.frame f.ctx.gen)
      f.ctx.iter false = s.fallocAlloc f d r :=
  fieldN_low r 7 ▸ rfl

/-- The state after FALLOC has made frame i, whose words stand cleared in s1. -/
def State.fallocRan (s s1 : State) (f : Firing) (td : Temp) (d : Rec) (r : Word) (i : Nat) : State :=
  let h := mkHandle s.cur i ((s.core s.cur).frame i).gen
  let u := s1.initSlots s.cur i (fallocSlots r) (countSlot d 0 0 (ndEntry d))
  let u := if fallocSlots r = 0 then u else u.updateSlot s.cur i 0 (fallocSlot0 d r)
  (u.sendLaunch s.cur f.ctx.launch 1).ran { f.setW td (h.setWidth 64) with allocs := f.allocs ++ [h] }

/-- The issue of an instruction that changes the state beside its firing. -/
theorem issue_done_setFiring {s s' : State} {f g : Firing} {body : Firing → State → Body} (h : s.Issues f false)
    (hb : body f s = .done (s'.setFiring g)) (hpc : g.pc = f.pc) : issue false body s = .next (s'.ran g) := by
  rw [issue_done _ _ _ _ _ g h hb (setFiring_firing ..)]
  simp [State.ran, Firing.next, b2n, hpc]

theorem exec_falloc {td ta : Temp} {s : State} : exec (.falloc td ta) s = execFalloc td ta s := rfl

section
variable {s : State} {f : Firing} (td ta : Temp) (h : s.Issues f false)
include h

theorem falloc_of_illegal (hl : ¬ fallocLegal ((s.core s.cur).nodeDesc f.ctx.vnode) (f.w ta)) :
    exec (.falloc td ta) s = .next (s.takeFault s.cur f 0x05 0x09 none) := by
  rw [exec_falloc]
  exact issue_trap _ _ _ _ _ _ _ h (if_pos ((not_fallocLegal_iff _ _).mp hl))

variable (hl : fallocLegal ((s.core s.cur).nodeDesc f.ctx.vnode) (f.w ta))
include hl

theorem falloc_of_noEntry (ha : s.fallocAlloc f ((s.core s.cur).nodeDesc f.ctx.vnode) (f.w ta) = .noEntry) :
    exec (.falloc td ta) s = .next (s.ran (f.setW td 0)) := by
  rw [exec_falloc]
  refine issue_done_setFiring h ((if_neg (mt (not_fallocLegal_iff _ _).mpr (not_not_intro hl))).trans ?_) rfl
  rw [fallocAlloc_eq, ha]

theorem falloc_of_noRoom (ha : s.fallocAlloc f ((s.core s.cur).nodeDesc f.ctx.vnode) (f.w ta) = .noRoom) :
    exec (.falloc td ta) s = .next (s.takeFault s.cur f 0x0D 0x01 none) := by
  rw [exec_falloc]
  refine issue_trap _ _ _ _ _ _ _ h ((if_neg (mt (not_fallocLegal_iff _ _).mpr (not_not_intro hl))).trans ?_)
  rw [fallocAlloc_eq, ha]

theorem falloc_of_ok {s1 : State} {i : Nat} (ha : s.fallocAlloc f ((s.core s.cur).nodeDesc f.ctx.vnode) (f.w ta) = .ok s1 i) :
    exec (.falloc td ta) s = .next (s.fallocRan s1 f td ((s.core s.cur).nodeDesc f.ctx.vnode) (f.w ta) i) := by
  have hn : fieldN (f.w ta) 0 7 = fallocSlots (f.w ta) := fieldN_low _ 7
  rw [exec_falloc, State.fallocRan, ← freshSlot_eq, ← setFieldN_freshSlot]
  refine issue_done_setFiring h ((if_neg (mt (not_fallocLegal_iff _ _).mpr (not_not_intro hl))).trans ?_) rfl
  rw [fallocAlloc_eq, ha, hn]
  rfl

end

theorem exec_ffree {ta : Temp} {s : State} : exec (.ffree ta) s = execFfree ta s := rfl
theorem exec_fself {td : Temp} {s : State} : exec (.fself td) s = execFself td s := rfl
theorem exec_fidx {td ta : Temp} {s : State} : exec (.fidx td ta) s = execFidx td ta s := rfl

/-- A handle as a scalar. -/
theorem setWidth_mkHandle (core frame gen : Nat) : (mkHandle core frame gen).setWidth 64 =
    BitVec.ofNat 64 ((core * 2 ^ 19 + frame * 2 ^ 9 + gen * 2 + 1) % 2 ^ 32) := by
  apply BitVec.eq_of_toNat_eq
  simp [mkHandle]

/-- Settles O9: FALLOC by what its operand and the core's frame table, pool and spill area allow, and by the arithmetic of the slot
words. -/
theorem frameTableInstructions : Obligations.FrameTableInstructions := by
  refine ⟨fun s f td ta => ⟨fun h => ⟨?_, ?_⟩, fun h => ⟨fun h0 hc hs => ?_, fun hb => ?_⟩⟩, fun s f td ta h => ?_⟩
  · rw [exec_fself, ← setWidth_mkHandle]
    exact issue_onlyFiring _ _ _ h rfl
  · have hi : (f.w ta).toNat % 1024 = fieldN (f.w ta) 0 10 := (fieldN_low _ 10).symm
    rw [exec_fidx, hi]
    exact issue_onlyFiring _ _ _ h rfl
  · rw [exec_ffree]
    exact issue_hold_same _ _ _ _ _ h (if_neg (by rw [h0, hs]; simp [hc]))
  · rw [exec_ffree]
    exact issue_trap _ _ _ _ _ _ _ h (if_pos hb)
  refine ⟨falloc_of_illegal td ta h, fun hl he => falloc_of_noEntry td ta h hl (allocFrame_of_noEntry he),
    fun hl he hr hb => falloc_of_noRoom td ta h hl (allocFrame_of_noRoom he hr hb), fun i hl he => ⟨fun p hr => ?_, fun b hr hb => ?_⟩⟩
  · exact falloc_of_ok td ta h hl (allocFrame_of_run he hr)
  · exact falloc_of_ok td ta h hl (allocFrame_of_body he hr hb)

end Sys2Proof.Machine


/-! CSRR, CSRW and CSRS, and what the CSRs of a core read and keep (R89, R204 to R206, R366, R389, R420). -/

namespace Sys2Proof.Machine

/-! ### CSR instructions (R204, R205, log 9, log 14) -/

theorem exec_csrr {td : Temp} {csr : BitVec 12} {s : State} : exec (.csrr td csr) s = execCsrr td csr s := rfl
theorem exec_csrw {ta : Temp} {csr : BitVec 12} {s : State} : exec (.csrw ta csr) s = execCsrw ta csr s := rfl
theorem exec_csrs {td ta : Temp} {csr : BitVec 12} {s : State} : exec (.csrs td ta csr) s = execCsrs td ta csr s := rfl

section
variable {m : String} {csr : BitVec 12} {body : Firing → State → Body} {s : State}

theorem csrOp_of_named (h : isSteward s.cur = true ∨ csrTenant csr.toNat = true) : csrOp m csr body s = issue false body s :=
  if_pos (by simpa using h)

theorem csrOp_of_unnamed (hs : isSteward s.cur = false) (hc : csrTenant csr.toNat = false) :
    csrOp m csr body s = .refused (.stewardOnly m) :=
  if_neg (by simp [hs, hc])

end

section
variable {s : State} {core n : Nat} {v v1 : Word}

@[simp] theorem csrDraw_cur : (s.csrDraw n).cur = s.cur := by
  unfold State.csrDraw
  split <;> rfl

/-- A CSR write leaves the current core in place and runs on with the same firing. -/
theorem csrWrite_firing (c : Nat) : (s.csrWrite core n v v1).cur = s.cur ∧
    ((s.csrWrite core n v v1).core c).firing = (s.core c).firing := by
  have hmod (g : CoreSt → CoreSt) (hg : ∀ k, (g k).firing = k.firing) :
      ((s.modCore core g).core c).firing = (s.core c).firing := by
    by_cases hc : core = c
    · subst hc; rw [modCore_core_same, hg]
    · rw [modCore_core_other _ _ _ _ hc]
  unfold State.csrWrite
  split
  case h_6 => exact ⟨rfl, rfl⟩
  case h_7 => exact ⟨rfl, rfl⟩
  case h_8 => exact ⟨rfl, rfl⟩
  all_goals exact ⟨rfl, hmod _ fun _ => rfl⟩

theorem csrWrite_kerfrep :
    ((s.csrWrite core 0x042 v v1).die (dieOf core)).kerfrep = kerfrepClear (s.die (dieOf core)).kerfrep v1 :=
  congrArg Die.kerfrep (modDie_die_same ..)

theorem csrWrite_qring :
    ((s.csrWrite core 0x043 v v1).die (dieOf core)).qring = (s.die (dieOf core)).qring.write v v1 :=
  congrArg Die.qring (modDie_die_same ..)

end

section
variable {s : State} {f : Firing} {td ta : Temp} {csr : BitVec 12}

theorem csrr_of_named (h : s.Issues f false) (hn : isSteward s.cur = true ∨ csrTenant csr.toNat = true) :
    exec (.csrr td csr) s = .next ((s.csrDraw csr.toNat).ran (f.setT td (s.csrRead s.cur csr.toNat))) := by
  rw [exec_csrr, execCsrr, csrOp_of_named hn]
  refine (issue_done _ _ _ _ _ _ h rfl (setFiring_firing _ _)).trans ?_
  simp [State.ran, Firing.next, b2n]

theorem csrw_of_named (h : s.Issues f false) (hn : isSteward s.cur = true ∨ csrTenant csr.toNat = true) :
    exec (.csrw ta csr) s = .next ((s.csrWrite s.cur csr.toNat (f.w ta) (f.w ta)).ran f) := by
  obtain ⟨hcur, hfiring⟩ := csrWrite_firing (s := s) (core := s.cur) (n := csr.toNat) (v := f.w ta) (v1 := f.w ta) s.cur
  rw [exec_csrw, execCsrw, csrOp_of_named hn]
  exact issue_done_ran h rfl (by rw [hcur, hfiring, h.1])

theorem csrs_of_named (h : s.Issues f false) (hn : isSteward s.cur = true ∨ csrTenant csr.toNat = true) :
    exec (.csrs td ta csr) s = .next (((s.csrDraw csr.toNat).csrWrite s.cur csr.toNat
      ((s.csrRead s.cur csr.toNat).setWidth 64 ||| f.w ta) (f.w ta)).ran (f.setT td (s.csrRead s.cur csr.toNat))) := by
  rw [exec_csrs, execCsrs, csrOp_of_named hn]
  refine (issue_done _ _ _ _ _ _ h rfl (setFiring_firing _ _)).trans ?_
  simp [State.ran, Firing.next, b2n]

end

/-- COREID as the statement writes it: the steward's bit above the thirteen of the id (R206). -/
theorem coreidWord_eq (core : Nat) :
    coreidWord core = BitVec.ofNat 64 (core % 8192 + (if isSteward core then 8192 else 0)) := by
  cases h : isSteward core <;> simp [coreidWord, b2n, h]

/-- Settles O3: the instructions by whether the core may name the CSR, the CSRs one by one. -/
theorem csrInstructionsReadAndWrite : Obligations.CsrInstructionsReadAndWrite := by
  unfold Obligations.CsrInstructionsReadAndWrite
  refine ⟨fun s f td ta csr h => ⟨fun hn => ⟨csrr_of_named h hn, csrs_of_named h hn, csrw_of_named h hn⟩, fun hs hc =>
    ⟨csrOp_of_unnamed hs hc, csrOp_of_unnamed hs hc, csrOp_of_unnamed hs hc⟩⟩, fun s core v v1 => ?_⟩
  refine ⟨congrArg zx (coreidWord_eq core), rfl, rfl, rfl, ?_, rfl, ?_, ?_, ?_, ?_, ?_, ?_, ?_, ?_, ?_, ?_, ?_, ?_, ?_, ?_⟩
  · cases h : (s.core core).detmode <;> simp [State.csrRead, b2n, h]
  iterate 7 · exact congrArg _ (modCore_core_same ..)
  · exact fun h => csrWrite_kerfrep.trans (if_neg (ne_true_of_eq_false h))
  · exact fun h => csrWrite_kerfrep.trans (if_pos h)
  · exact congrArg Qring.base csrWrite_qring
  · exact congrArg Qring.head csrWrite_qring
  · exact (congrArg Qring.tail csrWrite_qring).trans rfl
  · exact congrArg Qring.ovf csrWrite_qring
  · intro n hn
    fin_cases hn <;> rfl

end Sys2Proof.Machine


/-! The reservation of an engine job, or its refusal word (R70 to R72, R259, R377). -/

namespace Sys2Proof.Machine

theorem jobsOf_modJobs_same {s : State} {q : JobQueue} {g : List Job → List Job} : (s.modJobs q g).jobsOf q = g (s.jobsOf q) := by
  cases q <;> simp [State.modJobs, State.jobsOf]

theorem jobsOf_modCore {s : State} {c : Nat} {g : CoreSt → CoreSt} {q : JobQueue} : (s.modCore c g).jobsOf q = s.jobsOf q := by
  cases q <;> rfl

section
variable {s : State} {q : JobQueue} {g : List Job → List Job}

theorem modJobs_core (c : Nat) : (s.modJobs q g).core c = s.core c := by cases q <;> rfl
theorem modJobs_cur : (s.modJobs q g).cur = s.cur := by cases q <;> rfl
theorem modJobs_mem : (s.modJobs q g).mem = s.mem := by cases q <;> rfl
theorem modJobs_net : (s.modJobs q g).net = s.net := by cases q <;> rfl

end

/-- The queue that an engine job of a core enters (R70, R435). -/
def engineQueue (copy : Bool) (core : Nat) : JobQueue := if copy then copyQueueOf core else .press (clusterOf core)

/-- The sequence of the current core's next job (R71). -/
def State.nextSeq (s : State) : Nat := nextJobSeq (s.liveSeqs s.cur) 17 (s.core s.cur).jobSeq

/-- The id of the current core's next job (R71). -/
def State.nextId (s : State) (copy : Bool) : Nat := mkJobId copy s.cur s.nextSeq

/-- The state with a job reserved, before its firing has gone on (R70 to R72). -/
def State.reserve (s : State) (f : Firing) (td ta : Temp) (op : JobOp) (copy : Bool) : State :=
  ((((s.modCore s.cur (fun c => { c with jobSeq := (s.nextSeq + 1) % 4095 })).modJobs (engineQueue copy s.cur) (fun l => l ++
    [newJob (s.nextId copy) op f.ctx f.pc (f.t ta) (s.core s.cur).press.fmt s.cycle])).setFiring
      { f.setW td (BitVec.ofNat 64 (s.nextId copy)) with jobs := f.jobs ++ [s.nextId copy] }).hold f (.job (s.nextId copy)))

section
variable {s : State} {f : Firing} {td ta : Temp} {op : JobOp} {copy : Bool} {check : Firing → State → Vec → Option Nat}

theorem jobBody_of_full (h : 8 ≤ s.quotaUsed (engineQueue copy s.cur) s.cur) :
    jobBody td ta op copy check f s = .bare (s.setFiring (f.setW td (refusalWord 0))) := if_pos h

theorem jobBody_of_failed {code : Nat} (h : s.quotaUsed (engineQueue copy s.cur) s.cur < 8) (hc : check f s (f.t ta) = some code) :
    jobBody td ta op copy check f s = .bare (s.setFiring (f.setW td (refusalWord code))) :=
  (if_neg (Nat.not_le.2 h)).trans (by rw [hc])

theorem jobBody_of_passed (h : s.quotaUsed (engineQueue copy s.cur) s.cur < 8) (hc : check f s (f.t ta) = none) :
    jobBody td ta op copy check f s = .done (s.reserve f td ta op copy) :=
  (if_neg (Nat.not_le.2 h)).trans (by rw [hc]; rfl)

theorem reserve_cur : (s.reserve f td ta op copy).cur = s.cur := modJobs_cur

/-- The core after a reservation: its firing has the id, the release is held, and the counter has moved on. -/
theorem reserve_core : (s.reserve f td ta op copy).core s.cur = { s.core s.cur with
    jobSeq := (s.nextSeq + 1) % 4095,
    firing := some { f.setW td (BitVec.ofNat 64 (s.nextId copy)) with jobs := f.jobs ++ [s.nextId copy] },
    queue := (s.core s.cur).queue ++ [{ act := .job (s.nextId copy), ctx := f.ctx, pc := f.pc, ended := false }] } := by
  simp [State.reserve, State.hold, State.setFiring, modJobs_cur, modJobs_core]

theorem reserve_jobsOf : (s.reserve f td ta op copy).jobsOf (engineQueue copy s.cur) = s.jobsOf (engineQueue copy s.cur) ++
    [newJob (s.nextId copy) op f.ctx f.pc (f.t ta) (s.core s.cur).press.fmt s.cycle] := by
  simp only [State.reserve, State.hold, State.setFiring, jobsOf_modCore, jobsOf_modJobs_same]

theorem reserve_mem : (s.reserve f td ta op copy).mem = s.mem := modJobs_mem
theorem reserve_net : (s.reserve f td ta op copy).net = s.net := modJobs_net

/-- An instruction that writes a refusal word holds nothing, and its firing goes on (R377). -/
theorem issue_refusal {held : Bool} {body : Firing → State → Body} {v : Word} (h : s.Issues f held)
    (hb : body f s = .bare (s.setFiring (f.setW td v))) : issue held body s = .next (s.ran (f.setW td v)) :=
  (issue_bare _ _ _ _ _ _ h hb (setFiring_firing _ _)).trans (by simp [State.ran, Firing.next])

/-- The issue of a job that is reserved: the id, the firing's note of it, the held release, and the entry of its queue. -/
theorem issue_reserved (h : s.Issues f true) (hq : s.quotaUsed (engineQueue copy s.cur) s.cur < 8)
    (hc : check f s (f.t ta) = none) :
    ∃ t g, issue true (jobBody td ta op copy check) s = .next t ∧ (t.core s.cur).firing = some g ∧
      g = { (f.setW td (BitVec.ofNat 64 (s.nextId copy))).nextHeld with jobs := f.jobs ++ [s.nextId copy] } ∧
      (t.core s.cur).queue = (s.core s.cur).queue ++
        [{ act := .job (s.nextId copy), ctx := f.ctx, pc := f.pc, ended := false }] ∧
      (t.core s.cur).jobSeq = (s.nextSeq + 1) % 4095 ∧
      t.jobsOf (engineQueue copy s.cur) = s.jobsOf (engineQueue copy s.cur) ++
        [newJob (s.nextId copy) op f.ctx f.pc (f.t ta) (s.core s.cur).press.fmt s.cycle] ∧
      t.mem = s.mem ∧ t.net = s.net := by
  have hfiring := congrArg CoreSt.firing (reserve_core (s := s) (f := f) (td := td) (ta := ta) (op := op) (copy := copy))
  refine ⟨_, _, issue_done _ _ _ _ _ _ h (jobBody_of_passed hq hc) (by rw [reserve_cur]; exact hfiring), ?_, rfl, ?_, ?_, ?_,
    (setFiring_mem _ _).trans reserve_mem, (setFiring_net _ _).trans reserve_net⟩
  · simp [State.setFiring, reserve_cur, reserve_core, Firing.nextHeld, b2n]
  · simp [State.setFiring, reserve_cur, reserve_core]
  · simp [State.setFiring, reserve_cur, reserve_core]
  · rw [State.setFiring, jobsOf_modCore, reserve_jobsOf]

end

/-- Settles O25: the ten opcodes of the engines issue by one body, each with its checks. -/
theorem engineJobsAreReserved : Obligations.EngineJobsAreReserved := by
  unfold Obligations.EngineJobsAreReserved
  intro s f td ta h d seq job
  have all : ∀ i op copy (check : Firing → State → Vec → Option Nat),
      exec i s = issue true (jobBody td ta op copy check) s → job i op copy (check f s d) := fun i op copy check hi =>
    ⟨fun hq hc => hi ▸ issue_reserved h hq hc, fun hq => hi ▸ issue_refusal h (jobBody_of_full hq),
      fun code hq hc => hi ▸ issue_refusal h (jobBody_of_failed hq hc)⟩
  exact ⟨all _ _ _ _ rfl, all _ _ _ _ rfl, all _ _ _ _ rfl, all _ _ _ _ rfl, all _ _ _ _ rfl, all _ _ _ _ rfl, all _ _ _ _ rfl,
    all _ _ _ _ rfl, all _ _ _ _ rfl, all _ _ _ _ rfl⟩

end Sys2Proof.Machine


/-! RECONFIG, CHECKPOINT and drain markers, and the decisions of VOTE nodes (R80 to R82, R85, R405, R430). -/

namespace Sys2Proof.Machine

/-! ### RECONFIG (R80) -/

/-- Moving the channels together leaves the entry of the channel named last as it is. -/
theorem tabGet_compact (i b : Nat) (t : Tab Chan) : tabGet Chan.zero (compact i b t) i = tabGet Chan.zero t i := by
  induction t generalizing b with
  | nil => rfl
  | cons e t ih =>
    obtain ⟨k, ch⟩ := e
    by_cases hk : k = i
    · simp [compact, tabGet, hk]
    · by_cases he : ch.en = true <;> simp [compact, tabGet, hk, he, ih]

/-- Units in use by the channels other than one. -/
def CoreSt.usedBeside (c : CoreSt) (i : Nat) : Nat := (c.otherRuns i).foldl (fun n r => n + r.2) 0

section
variable {s : State} {core i : Nat}

theorem modChan_chan (g : Chan → Chan) : ((s.modChan core i g).core core).chan i = g ((s.core core).chan i) := by
  simp [State.modChan, CoreSt.chan]

theorem giveCredit_mem_core {ch : Chan} {u : Int} (c : Nat) :
    (s.giveCredit core ch u).mem = s.mem ∧ (s.giveCredit core ch u).core c = s.core c := by
  unfold State.giveCredit
  split <;> exact ⟨rfl, rfl⟩

/-- The state in which a channel has found its run of units: at the lowest base that fits, or behind the others moved together. -/
def State.rebase (s : State) (core i depth : Nat) : State :=
  match poolFit ((s.core core).otherRuns i) (s.core core).poolUnits depth with
  | some b => s.modChan core i (fun ch => { ch with base := b })
  | none => (s.modCore core (fun c => { c with chans := compact i 0 c.chans })).modChan core i
      (fun ch => { ch with base := (s.core core).usedBeside i })

theorem rebase_mem (depth : Nat) : (s.rebase core i depth).mem = s.mem := by
  unfold State.rebase
  split <;> rfl

/-- Finding its run moves a channel's base and nothing else of it. -/
theorem rebase_chan (depth : Nat) :
    ∃ b, ((s.rebase core i depth).core core).chan i = { (s.core core).chan i with base := b } := by
  unfold State.rebase
  split
  · exact ⟨_, modChan_chan _⟩
  · refine ⟨(s.core core).usedBeside i, (modChan_chan _).trans ?_⟩
    rw [modCore_core_same]
    simp only [CoreSt.chan, tabGet_compact]

/-- A channel at its new depth, without the RECONFIG token at its head (R80). -/
def Chan.resized (depth : Nat) (t : Token) (ch : Chan) : Chan :=
  { ch with depth := depth, rcfg := false, head := 0, tail := (ch.occ - t.cost) % max 1 depth, occ := ch.occ - t.cost,
            toks := ch.toks.drop 1, times := ch.times.drop 1 }

variable {t : Token} {l : List Token}

theorem reconfigRelocation_of_full (h : ((s.core core).chan i).toks = t :: l) (hk : t.kind = .reconfig)
    (he : ((s.core core).chan i).en = true) (hr : (s.core core).poolUnits < (s.core core).usedBeside i + fieldN t.data 0 14) :
    reconfigRelocation core i s = s.modChan core i (fun ch => { ch with rcfg := true }) := by
  simp only [reconfigRelocation, h]
  exact (if_neg (by simp [hk, he])).trans (if_pos hr)

theorem reconfigRelocation_of_room (h : ((s.core core).chan i).toks = t :: l) (hk : t.kind = .reconfig)
    (he : ((s.core core).chan i).en = true) (hr : (s.core core).usedBeside i + fieldN t.data 0 14 ≤ (s.core core).poolUnits) :
    reconfigRelocation core i s =
      (((s.rebase core i (fieldN t.data 0 14)).modChan core i (Chan.resized (fieldN t.data 0 14) t)).giveCredit core
        ((s.core core).chan i) ((t.cost : Int) + ((fieldN t.data 0 14 : Int) - (((s.core core).chan i).depth : Int)))).evalCore
          core := by
  simp only [reconfigRelocation, h]
  exact (if_neg (by simp [hk, he])).trans (if_neg (Nat.not_lt.2 hr))

end

/-! ### CHECKPOINT and drain (R81, R82, R85, R405) -/

section
variable {s : State} {core v asid : Nat}

theorem checkpointPass_of_quiet (hr : (s.core core).resident v = true) (hk : ndKind ((s.core core).nodeDesc v) ≠ 1)
    (hc : (s.core core).atCheckpoint v = true) (hq : s.nodeQuiet core v = true)
    (hs : (s.core core).canSend v (outPorts ((s.core core).nodeDesc v)) 1 = true) :
    checkpointPass core v s =
      (((((markedPorts v ((s.core core).nodeDesc v)).foldl (fun t p => t.consume core v p 1) s).sendMarkers core v
        .checkpoint (outPorts ((s.core core).nodeDesc v))).modCore core (fun q => { q with ckpt := tabDel q.ckpt v })).evalCore core) :=
  if_pos (by simp [hr, hk, hc, hq, hs])

theorem checkpointPass_of_waiting (h : (s.core core).atCheckpoint v = false ∨ s.nodeQuiet core v = false) :
    checkpointPass core v s = s :=
  if_neg (by rcases h with h | h <;> simp [h])

/-- The cores on which a checkpoint of an address space is injected: its loaded tenant cores (R81). -/
def State.loadedCores (s : State) (asid : Nat) : Tab CoreSt :=
  s.cores.filter (fun e => e.2.cfg == .loaded && e.2.asid == asid && !isSteward e.1)

theorem checkpointInjection_of_running {e : Nat × CoreSt} {l : Tab CoreSt} (h : s.loadedCores asid = e :: l)
    (hd : s.drains.any (fun q => q.asid == asid) = false) :
    checkpointInjection asid s = (e :: l).foldl (fun t q => t.injectCore q.1)
      { s with drains := s.drains ++ [{ asid := asid, gwork := e.2.gwork, phase := .marking, since := s.cycle, sinks := [] }] } := by
  unfold State.loadedCores at h
  simp only [checkpointInjection, h, hd, Bool.false_eq_true, if_false]

theorem checkpointInjection_of_marking (hd : s.drains.any (fun q => q.asid == asid) = true) : checkpointInjection asid s = s := by
  simp only [checkpointInjection, hd, if_true]
  split <;> rfl

variable {q : Drain}

theorem drainTimeout_of_early (h : s.drains.find? (fun q => q.asid == asid) = some q)
    (he : q.phase ≠ .marking ∨ s.cycle < q.since + 2 ^ 26) : drainTimeout asid s = s := by
  simp only [drainTimeout, h]
  exact if_pos he

theorem drainTimeout_of_late (h : s.drains.find? (fun q => q.asid == asid) = some q) (hm : q.phase = .marking)
    (hl : q.since + 2 ^ 26 ≤ s.cycle) :
    drainTimeout asid s = (({ s with drains := s.drains.filter (fun e => e.asid != asid) }.logErr
      (unitErr 0x0E 0x01 2 (stewardOf (q.gwork / 2 ^ 14 % 4)) 9 0 asid)).cancelLevel (q.gwork / 2 ^ 14 % 4) (q.gwork % 256) true) := by
  simp only [drainTimeout, h]
  exact if_neg (by simp only [hm, ne_eq, not_true_eq_false, false_or]; omega)

end

/-! ### VOTE nodes (R430) -/

section
variable {c : CoreSt} {v : Nat} {x y : Token}

/-- With nothing kept of a decided position no copy is late. -/
theorem voteLate_of_empty (h : c.voteBuf v = []) : c.voteLate v = none := by
  simp [CoreSt.voteLate, h]

theorem voteHead_of_empty {p : Nat} (h : c.voteBuf v = []) (hx : c.headOf v p = some x) (hk : x.kind ≠ .reconfig) :
    c.voteHead v p = some x := by
  simp [CoreSt.voteHead, CoreSt.copyHead, h, hx, hk]

/-- Of copies 0 and 1 that agree the pair is found first. -/
theorem votePair_of_agree (hx : c.voteHead v 0 = some x) (hy : c.voteHead v 1 = some y) (ha : agree x y = true) :
    c.votePair v = some (0, 1, 2, x, y) := by
  simp [CoreSt.votePair, List.findSome?, hx, hy, ha]

variable {s : State} {core : Nat}

theorem voteStep_of_pair (hk : ndKind ((s.core core).nodeDesc v) = 3) (hr : (s.core core).resident v = true)
    (hb : (s.core core).voteBuf v = []) (hp : (s.core core).votePair v = some (0, 1, 2, x, y))
    (hs : (s.core core).canSend v (outPorts ((s.core core).nodeDesc v)) x.cost = true) :
    s.voteStep core v = (((s.consume core v 0 1).consume core v 1 1).modCore core (fun (k : CoreSt) =>
      { k with votes := tabSet k.votes v (k.voteBuf v ++ [(2, x)]) })).voteSend core v
        { x with side := x.side ||| y.side, colour := (s.core core).nodeColour v } := by
  have hcost : ({ x with side := x.side ||| y.side, colour := (s.core core).nodeColour v } : Token).cost = x.cost := rfl
  simp only [State.voteStep, hk, hr, voteLate_of_empty hb, hb, hp, hcost, hs, ne_eq, not_true_eq_false, Bool.true_eq_false, or_self,
    if_false, if_true, List.length_nil, Nat.reduceLeDiff]

/-- A decision is the vote's step, and at most progress of a frame besides. -/
theorem voteDecision_eq_or : voteDecision core v s = s.voteStep core v ∨
    ∃ j, voteDecision core v s = (s.voteStep core v).modFrame core j (fun f => { f with progress := s.cycle, reported := false }) := by
  by_cases h : (s.core core).chans = ((s.voteStep core v).core core).chans
  · exact .inl (if_pos h)
  · rw [show voteDecision core v s = _ from if_neg h]
    cases (s.core core).nodeFrame v with
    | none => exact .inl rfl
    | some j => exact .inr ⟨j, rfl⟩

end

theorem exec_reconfigRelocation {core i : Nat} {s : State} :
    exec (.reconfigRelocation core i) s = .next (reconfigRelocation core i s) := rfl
theorem exec_checkpointPass {core v : Nat} {s : State} : exec (.checkpointPass core v) s = .next (checkpointPass core v s) := rfl
theorem exec_checkpointInjection {asid : Nat} {s : State} :
    exec (.checkpointInjection asid) s = .next (checkpointInjection asid s) := rfl
theorem exec_drainTimeout {asid : Nat} {s : State} : exec (.drainTimeout asid) s = .next (drainTimeout asid s) := rfl
theorem exec_voteDecision {core v : Nat} {s : State} : exec (.voteDecision core v) s = .next (voteDecision core v s) := rfl

/-- Settles O31, marker by marker. -/
theorem markersMoveThroughTheGraph : Obligations.MarkersMoveThroughTheGraph := by
  unfold Obligations.MarkersMoveThroughTheGraph
  intro s core i v asid c d
  simp only [exec_reconfigRelocation, exec_checkpointPass, exec_checkpointInjection, exec_drainTimeout, exec_voteDecision,
    Host.Outcome.next.injEq]
  refine ⟨fun t l => reconfigRelocation_of_full, fun t l h hk he hr => ⟨_, reconfigRelocation_of_room h hk he hr, ?_⟩,
    checkpointPass_of_quiet, checkpointPass_of_waiting, fun e l => checkpointInjection_of_running, checkpointInjection_of_marking,
    fun q => drainTimeout_of_early, fun q => drainTimeout_of_late, fun x y hk hr hb hx hy hn hxy hd hs => ⟨_, rfl, ?_⟩⟩
  · obtain ⟨b, hb⟩ := rebase_chan (s := s) (core := core) (i := i) (fieldN t.data 0 14)
    obtain ⟨hmem, hcore⟩ := giveCredit_mem_core (s := (s.rebase core i (fieldN t.data 0 14)).modChan core i
      (Chan.resized (fieldN t.data 0 14) t)) (core := core) (ch := (s.core core).chan i)
      (u := (t.cost : Int) + ((fieldN t.data 0 14 : Int) - (((s.core core).chan i).depth : Int))) core
    rw [hmem, hcore, modChan_chan, hb]
    exact ⟨rfl, rfl, by rw [Chan.resized, h]; rfl, rebase_mem _⟩
  · have hp := votePair_of_agree (voteHead_of_empty hb hx hn) (voteHead_of_empty hb hy (hxy ▸ hn)) (by simp [agree, hxy, hd])
    have hstep := voteStep_of_pair hk hr hb hp hs
    exact hstep ▸ voteDecision_eq_or

end Sys2Proof.Machine


/-! The sequencers, the Press slices and the copy units at work (R72 to R74, R101, R139, R260, R271, R274, R280 to R286, R381). -/

namespace Sys2Proof.Machine

/-! ### The sequencer's choice (R73, R74) -/

theorem before_iff {j k : Job} : j.before k = true ↔ k.prio < j.prio ∨ (j.prio = k.prio ∧ j.since ≤ k.since) := by
  simp [Job.before]

theorem pickJob_of_none {ok : Job → Bool} {l : List Job} (h : ∀ k ∈ l, ok k = false) : pickJob ok l = none := by
  induction l with
  | nil => rfl
  | cons j t ih => simp [pickJob, ih fun k hk => h k (List.mem_cons_of_mem j hk), h j List.mem_cons_self]

/-- What the sequencer picks stands in the queue and is eligible. -/
theorem mem_of_pickJob {ok : Job → Bool} {l : List Job} {k : Job} (h : pickJob ok l = some k) :
    ∃ m : Nat, l[m]? = some k ∧ ok k = true := by
  induction l with
  | nil => cases h
  | cons j t ih =>
    unfold pickJob at h
    split at h
    · split at h
      · next hj => cases h; exact ⟨0, rfl, hj⟩
      · cases h
    · next m ht =>
      split at h
      · next hj => cases h; exact ⟨0, rfl, (Bool.and_eq_true _ _ ▸ hj).1⟩
      · cases h
        obtain ⟨n, hn, hok⟩ := ih ht
        exact ⟨n + 1, hn, hok⟩

/-- The sequencer picks the eligible job of the highest priority, the first to enter that level, the first in the queue among equals. -/
theorem pickJob_of_best {ok : Job → Bool} {l : List Job} {n : Nat} {j : Job} (hj : l[n]? = some j) (hok : ok j = true)
    (hbest : ∀ (m : Nat) (k : Job), l[m]? = some k → ok k = true → k.prio < j.prio ∨
      (k.prio = j.prio ∧ (j.since < k.since ∨ (j.since = k.since ∧ n ≤ m)))) : pickJob ok l = some j := by
  induction l generalizing n with
  | nil => simp at hj
  | cons a t ih =>
    cases n with
    | zero =>
      obtain rfl : a = j := by simpa using hj
      unfold pickJob
      split
      · exact if_pos hok
      · next k ht =>
        obtain ⟨m, hm, hk⟩ := mem_of_pickJob ht
        have hb : a.before k = true := before_iff.2 (by rcases hbest (m + 1) k hm hk with h | h <;> omega)
        exact if_pos (by rw [hok, hb]; rfl)
    | succ n =>
      have ht : pickJob ok t = some j := ih (n := n) hj fun m k hk hkok => by
        rcases hbest (m + 1) k hk hkok with h | h <;> omega
      have ha : ¬(ok a && a.before j) = true := fun h => by
        obtain ⟨haok, hab⟩ := Bool.and_eq_true _ _ ▸ h
        rcases before_iff.1 hab with hab | hab <;> rcases hbest 0 a rfl haok with h | h <;> omega
      simp only [pickJob, ht]
      exact if_neg ha

section
variable {s : State} {q : JobQueue} {j : Job}

theorem jobIssue_of_pick (hr : s.issueRoom q = true) (hp : pickJob s.eligible (s.jobsOf q) = some j) (hg : j.gang = none) :
    jobIssue q s = s.issueOne q j 0 := by
  simp only [jobIssue, hr, hp, hg, Bool.true_eq_false, if_false]

theorem jobIssue_of_none (hp : pickJob s.eligible (s.jobsOf q) = none) : jobIssue q s = s := by
  simp only [jobIssue, hp, ite_self]

end

/-! ### Press slices (R72, R260, R271, R274) -/

section
variable {s : State} {core : Nat} {j : Job}

theorem pressJobRetire_of_idle (h : s.slice core = none) : pressJobRetire core s = s := by simp only [pressJobRetire, h]

theorem mxrdTokenSend_of_idle (h : s.slice core = none) : mxrdTokenSend core s = s := by simp only [mxrdTokenSend, h]

/-- A job of no gang at the front of its slice, with its frame at rest and no token left to send, is applied; it retires too, unless it
drains to a channel. -/
theorem pressJobRetire_of_front (h : s.slice core = some j) (ha : j.aux = 0) (hf : s.stillFrame j.ctx = true) (ht : j.toks = []) :
    pressJobRetire core s = if j.op = .mxrd ∧ fieldN j.desc 120 2 = 2 then (s.runClears j.ctx.core j.order).applyPress j [j]
      else (((s.runClears j.ctx.core j.order).applyPress j [j]).pressRetires j).lastClears j.ctx.core := by
  have hfront : s.gangFront j = [j] := if_pos ha
  simp only [pressJobRetire, h, hfront]
  exact if_neg (by simp [ht, ha, hf])

theorem mxrdTokenSend_of_token {t : Token} {rest : List Token} (h : s.slice core = some j) (ht : j.toks = t :: rest)
    (hs : (s.core core).canSend j.ctx.vnode [fieldN j.desc 156 2] 5 = true) (hf : s.stillFrame j.ctx = true) :
    mxrdTokenSend core s =
      let s1 := (s.nodeSend core j.ctx.vnode (fieldN j.desc 156 2) t).modJob j.pressQueue j.id (fun k => { k with toks := rest })
      if rest.isEmpty then (s1.pressRetires j).lastClears core else s1 := by
  simp only [mxrdTokenSend, h, ht]
  exact if_neg (by simp [hs, hf])

end

/-! ### Lines of a copy (R101, R280) -/

section
variable {s : State} {q : JobQueue} {n : Nat} {j : Job}

/-- A CPY job that works, whose unit serves it, writes its next line. -/
theorem copyLineWrite_of_cpy (h : s.jobIn q n = some j) (hw : j.working = true)
    (hs : (s.cluster (clusterOf j.ctx.core)).stop = false) (ho : j.op = .cpy) (hy : s.yieldsUnit q = false) :
    copyLineWrite q n s =
      if j.total ≤ j.line then s else if cpyTiled j.desc then s.tileLine q j else s.memLine q j := by
  have hrow : s.beginRow q j = (s, j) := if_pos (.inl (by rw [ho]; decide))
  simp [copyLineWrite, h, hw, hs, ho, hy, hrow]

/-- A memory line whose bytes are read and whose place is found is written, its page is dirty, and the job goes on behind it. -/
theorem memLine_of_place {bs : List (Byte × Byte)} {p : Nat × Nat} (hb : s.lineBytes j j.line (j.memLine j.line).2 = .ok bs)
    (hp : s.linePlaces j (j.memLine j.line).1 (j.memLine j.line).2 = .ok [p])
    (hh : s.publHolds (dieOf j.ctx.core) (s.jobAsid j) (j.memLine j.line).1 = false)
    (hs : s.syncHit p.1 (j.memLine j.line).2 = false) :
    s.memLine q j = ((s.copyPut q j p.2 p.1 bs).touchPage j.ctx.core (s.jobAsid j) true (j.memLine j.line).1).lineDone q j
      (j.memLine j.line).2 := by
  simp [State.memLine, hb, hp, hh, hs]

theorem copySourceRelease_of_read {b : List (Byte × Byte)} (h : s.jobIn q n = some j) (hw : j.working = true)
    (hs : (s.cluster (clusterOf j.ctx.core)).stop = false) (ho : j.op = .cpy) (hd : j.srcDone = false)
    (hr : s.readRest j = some (.ok b)) :
    copySourceRelease q n s = ((s.restRead j).modJob q n (fun k =>
      { k with srcDone := true, bufAt := k.line, buf := b.map (·.1), sbuf := b.map (·.2) })).sourceArrival q j := by
  simp [copySourceRelease, h, hw, hs, ho, hd, hr]

end

/-! ### Completion of a copy (R139, R284, R286, R381) -/

section
variable {s : State} {q : JobQueue} {n : Nat} {j : Job}

theorem copyVisibleCompletion_of_working (h : s.jobIn q n = some j) (ho : s.copyOver j = false) :
    copyVisibleCompletion q n s = s := by
  simp only [copyVisibleCompletion, h, ho, if_true]

/-- A job that failed or was cancelled writes its record first. -/
theorem copyVisibleCompletion_of_ended (h : s.jobIn q n = some j) (ho : s.copyOver j = true) (hr : j.recDone = false)
    (hf : j.fault.isSome = true ∨ j.cancelled = true) : copyVisibleCompletion q n s = s.writeRecord q j := by
  simp only [copyVisibleCompletion, h, ho, hr, hf, and_self, Bool.true_eq_false, if_false, if_true]

/-- The source-release arrival that is still owed leaves, after the record of a job that ended early. -/
theorem copyVisibleCompletion_of_owed (h : s.jobIn q n = some j) (ho : s.copyOver j = true) (hd : j.srcDone = false)
    (hr : j.recDone = true ∨ (j.fault = none ∧ j.cancelled = false)) :
    copyVisibleCompletion q n s = (s.modJob q n (fun k => { k with srcDone := true })).sourceArrival q j := by
  have hrec : ¬(j.recDone = false ∧ (j.fault.isSome = true ∨ j.cancelled = true)) := by
    rcases hr with hr | ⟨hf, hc⟩
    · simp [hr]
    · simp [hf, hc]
  simp only [copyVisibleCompletion, h, ho, hrec, hd, Bool.true_eq_false, if_false, if_true]

/-- The record is written once the source has been released. -/
theorem copyVisibleCompletion_of_released (h : s.jobIn q n = some j) (ho : s.copyOver j = true) (hd : j.srcDone = true)
    (hr : j.recDone = false) : copyVisibleCompletion q n s = s.writeRecord q j := by
  simp only [copyVisibleCompletion, h, ho, hd, hr, Bool.true_eq_false, if_false, if_true, true_and, ite_self]

/-- With its record written a job waits for its source-release arrival; then it records its fault, sends its visible arrivals and
retires. -/
theorem copyVisibleCompletion_of_recorded (h : s.jobIn q n = some j) (ho : s.copyOver j = true) (hd : j.srcDone = true)
    (hr : j.recDone = true) :
    copyVisibleCompletion q n s = if s.sourceOut q j then s else
      ((j.fault.elim s (fun e => if e.cls = 0 then s else s.copyRecord q j e.cls e.code e.addr)).visibleArrivals q j).retireCopy q j := by
  simp only [copyVisibleCompletion, h, ho, hd, hr, Bool.true_eq_false, if_false, false_and]
  cases j.fault <;> rfl

end

theorem exec_jobIssue {q : JobQueue} {s : State} : exec (.jobIssue q) s = .next (jobIssue q s) := rfl
theorem exec_pressJobRetire {core : Nat} {s : State} : exec (.pressJobRetire core) s = .next (pressJobRetire core s) := rfl
theorem exec_mxrdTokenSend {core : Nat} {s : State} : exec (.mxrdTokenSend core) s = .next (mxrdTokenSend core s) := rfl
theorem exec_copyLineWrite {q : JobQueue} {n : Nat} {s : State} : exec (.copyLineWrite q n) s = .next (copyLineWrite q n s) := rfl
theorem exec_copySourceRelease {q : JobQueue} {n : Nat} {s : State} :
    exec (.copySourceRelease q n) s = .next (copySourceRelease q n s) := rfl
theorem exec_copyVisibleCompletion {q : JobQueue} {n : Nat} {s : State} :
    exec (.copyVisibleCompletion q n) s = .next (copyVisibleCompletion q n s) := rfl

/-- Settles O42: the sequencer, the Press slice, the lines of a copy, and its completion. -/
theorem enginesRunTheirJobs : Obligations.EnginesRunTheirJobs := by
  unfold Obligations.EnginesRunTheirJobs
  intro s q n core j
  simp only [exec_jobIssue, exec_pressJobRetire, exec_mxrdTokenSend, exec_copyLineWrite, exec_copySourceRelease,
    exec_copyVisibleCompletion, Host.Outcome.next.injEq]
  refine ⟨fun hj hok hr hg hbest => jobIssue_of_pick hr (pickJob_of_best hj hok hbest) hg, fun h => jobIssue_of_none (pickJob_of_none h),
    fun h => ⟨pressJobRetire_of_idle h, mxrdTokenSend_of_idle h⟩, fun h ha hf => ⟨fun ht hd => ?_, fun ht ho hk => ?_,
      fun t ht hs => mxrdTokenSend_of_token h ht hs hf, fun t r rest ht hs => mxrdTokenSend_of_token h ht hs hf⟩,
    fun h hw hs ho hy => ⟨fun hl => ?_, fun bs p hl ht hb hp hh hn => ?_, fun b => copySourceRelease_of_read h hw hs ho⟩,
    fun h ho => ⟨copyVisibleCompletion_of_ended h ho, copyVisibleCompletion_of_owed h ho, copyVisibleCompletion_of_released h ho,
      fun hd hr hw => ?_, fun hd hr hw => ⟨fun hf => ?_, fun e hf he => ?_⟩⟩, copyVisibleCompletion_of_working⟩
  · exact (pressJobRetire_of_front h ha hf ht).trans (if_neg hd)
  · exact (pressJobRetire_of_front h ha hf ht).trans (if_pos ⟨ho, hk⟩)
  · exact (copyLineWrite_of_cpy h hw hs ho hy).trans (if_pos hl)
  · rw [copyLineWrite_of_cpy h hw hs ho hy, if_neg (Nat.not_le.2 hl), if_neg (ne_true_of_eq_false ht), memLine_of_place hb hp hh hn]
  · exact (copyVisibleCompletion_of_recorded h ho hd hr).trans (if_pos hw)
  · rw [copyVisibleCompletion_of_recorded h ho hd hr, if_neg (ne_true_of_eq_false hw), hf, Option.elim_none]
  · rw [copyVisibleCompletion_of_recorded h ho hd hr, if_neg (ne_true_of_eq_false hw), hf, Option.elim_some, if_neg he]

end Sys2Proof.Machine


/-! Power measurements and monitor units (R88 to R90, R346, R348, log 51). -/

namespace Sys2Proof.Machine

/-! ### Power and clock (R346, R348, log 51) -/

section
variable {p : Power} {w t d : Nat}

theorem measure_mhz_of_down (h : 420 < t ∨ p.budget < w) : (p.measure w t d).mhz = max 1200 (p.mhz - 25) := by
  rcases h with h | h <;> simp [Power.measure, h]

theorem measure_mhz_of_hold (ht : t ≤ 400) (hw : w ≤ p.budget) (hl : 100 * w ≤ 95 * p.budget → p.low + 1 < quietMax) :
    (p.measure w t d).mhz = p.mhz := by
  have hup : ¬quietMax ≤ (if 100 * w ≤ 95 * p.budget then p.low + 1 else 0) := by
    split
    · next hq => exact Nat.not_le.2 (hl hq)
    · decide
  simp [Power.measure, Nat.not_lt.2 ht, Nat.not_lt.2 hw, show ¬420 < t by omega, hup]

theorem measure_mhz_of_up (ht : t ≤ 400) (hw : w ≤ p.budget) (hq : 100 * w ≤ 95 * p.budget) (hl : quietMax ≤ p.low + 1) :
    (p.measure w t d).mhz = min 2700 (p.mhz + 25) := by
  simp [Power.measure, Nat.not_lt.2 ht, Nat.not_lt.2 hw, show ¬420 < t by omega, hq, hl]

theorem measure_thr_of_hot (ht : 420 < t) (hm : 1200 < p.mhz) : (p.measure w t d).thr = true := by
  simp [Power.measure, ht, hm]

theorem measure_thr_of_thr (h : p.thr = true) : (p.measure w t d).thr = true := by
  simp [Power.measure, h]

end

/-! ### Samples (R88 to R90, R349) -/

section
variable {sel : Word} {cycle x : Nat} {latency : Bool} {level : Option Nat}

theorem sampleOf_of_off (h : bitN sel 6 = false) : sampleOf sel cycle latency level x = none := if_pos h

theorem sampleOf_of_latency (h : bitN sel 6 = true) : sampleOf sel cycle true level x = some x := by
  simp [sampleOf, h]

theorem sampleOf_of_due (h : bitN sel 6 = true) (hd : cycle % 2 ^ (fieldN sel 8 4 + 4) = 0) :
    sampleOf sel cycle false level x = level := by
  simp [sampleOf, h, levelDue, hd]

theorem sampleOf_of_notDue (hd : cycle % 2 ^ (fieldN sel 8 4 + 4) ≠ 0) : sampleOf sel cycle false level x = none := by
  simp [sampleOf, levelDue, hd]

end

/-- A level class outside the table of R90 samples nothing. -/
theorem coreLevel_of_reserved {s : State} {core cls x : Nat} (h : cls < 0x10 ∨ 0x15 < cls) : s.coreLevel core cls x = none := by
  unfold State.coreLevel
  split
  iterate 6 · omega
  · rfl

section
variable {s : State} {core x y : Nat}

theorem coreLatency_of_lt {cls : Nat} (h : cls < 8) : coreLatency cls = true := decide_eq_true h
theorem coreLatency_of_le {cls : Nat} (h : 8 ≤ cls) : coreLatency cls = false := decide_eq_false (Nat.not_lt.2 h)

/-- What the first unit of a core takes from an event with a value (R89, R90). -/
def State.sample0 (s : State) (core x : Nat) : Option Nat :=
  let sel := (s.core core).monsel0
  sampleOf sel s.cycle (coreLatency (fieldN sel 0 6)) (s.coreLevel core (fieldN sel 0 6) x) x

theorem monitorSample_core0 : monitorSample (.core core 0) x s =
    s.setCore core { s.core core with mon0 := (s.core core).mon0.take (s.sample0 core x) } := rfl

theorem monitorSample_core0_of_some (h : s.sample0 core x = some y) :
    monitorSample (.core core 0) x s = s.setCore core { s.core core with mon0 := (s.core core).mon0.add y } := by
  rw [monitorSample_core0, h, MonFig.take]

theorem monitorSample_core0_of_none (h : s.sample0 core x = none) :
    ((monitorSample (.core core 0) x s).core core).mon0 = (s.core core).mon0 := by
  rw [monitorSample_core0, h, setCore_core_same, MonFig.take]

theorem sample0_of_off (h : bitN (s.core core).monsel0 6 = false) : s.sample0 core x = none := sampleOf_of_off h

theorem sample0_of_latency (h : bitN (s.core core).monsel0 6 = true) (hc : fieldN (s.core core).monsel0 0 6 < 8) :
    s.sample0 core x = some x := by
  rw [State.sample0, coreLatency_of_lt hc, sampleOf_of_latency h]

theorem sample0_of_due (h : bitN (s.core core).monsel0 6 = true) (hc : 8 ≤ fieldN (s.core core).monsel0 0 6)
    (hd : s.cycle % 2 ^ (fieldN (s.core core).monsel0 8 4 + 4) = 0) :
    s.sample0 core x = s.coreLevel core (fieldN (s.core core).monsel0 0 6) x := by
  rw [State.sample0, coreLatency_of_le hc, sampleOf_of_due h hd]

theorem sample0_of_notDue (hc : 8 ≤ fieldN (s.core core).monsel0 0 6)
    (hd : s.cycle % 2 ^ (fieldN (s.core core).monsel0 8 4 + 4) ≠ 0) : s.sample0 core x = none := by
  rw [State.sample0, coreLatency_of_le hc, sampleOf_of_notDue hd]

theorem monitorSample_core1_of_latency (h : bitN (s.core core).monsel1 6 = true) (hc : fieldN (s.core core).monsel1 0 6 < 8) :
    monitorSample (.core core 1) x s = s.setCore core { s.core core with mon1 := (s.core core).mon1.add x } := by
  have hx : ∀ l, sampleOf (s.core core).monsel1 s.cycle (coreLatency (fieldN (s.core core).monsel1 0 6)) l x = some x := fun l => by
    rw [coreLatency_of_lt hc, sampleOf_of_latency h]
  simp [monitorSample, State.modCore, hx, MonFig.take]

theorem monitorSample_other_of_latency {d n : Nat} (h : bitN ((s.die d).mon n).1 6 = true)
    (hl : unitLatency n (unitClass n ((s.die d).mon n).1) = true) :
    monitorSample (.other d n) x s = s.modDie d (fun k =>
      { k with mons := tabSet k.mons n (((s.die d).mon n).1, ((s.die d).mon n).2.add x) }) := by
  simp [monitorSample, hl, sampleOf_of_latency h, MonFig.take]

end

/-- A sample counts, adds to the sum and moves the extremes, the first one setting the least (R88). -/
theorem add_figures {m : MonFig} {x : Nat} (h : m.cnt < 2 ^ 32 - 1) : (m.add x).cnt = m.cnt + 1 ∧ (m.add x).sum = m.sum + x ∧
    x ≤ (m.add x).max ∧ m.max ≤ (m.add x).max ∧ (0 < m.cnt → (m.add x).min ≤ x ∧ (m.add x).min ≤ m.min) ∧
    (m.cnt = 0 → (m.add x).min = x) := by
  refine ⟨Nat.min_eq_right h, rfl, Nat.le_max_right _ _, Nat.le_max_left _ _, fun h0 => ?_, fun h0 => if_pos h0⟩
  have hmin : (m.add x).min = Nat.min m.min x := if_neg (by omega)
  rw [hmin]
  exact ⟨Nat.min_le_right _ _, Nat.min_le_left _ _⟩

theorem exec_powerMeasurement {w t d : Nat} {s : State} :
    exec (.powerMeasurement w t d) s = .next { s with power := s.power.measure w t d } := rfl
theorem exec_monitorSample {u : MonUnit} {x : Nat} {s : State} : exec (.monitorSample u x) s = .next (monitorSample u x s) := rfl

/-- Settles O49: one measurement by its bounds, one sample by the unit's select word, and the figures that it leaves. -/
theorem powerAndMonitorsMeasure : Obligations.PowerAndMonitorsMeasure := by
  unfold Obligations.PowerAndMonitorsMeasure
  intro s w t d core n x
  refine ⟨rfl, ⟨_, exec_powerMeasurement, rfl, rfl, rfl, rfl, measure_mhz_of_down, measure_thr_of_hot, measure_thr_of_thr,
    measure_mhz_of_hold, measure_mhz_of_up⟩, ?_, rfl, rfl, ?_, fun m => add_figures⟩
  · intro c cls take
    simp only [exec_monitorSample, Host.Outcome.next.injEq]
    refine ⟨fun hon => ⟨fun hlat => monitorSample_core0_of_some (sample0_of_latency hon hlat), fun hlev hdue => ?_,
      fun hlev hdue => ⟨_, rfl, monitorSample_core0_of_none (sample0_of_notDue hlev hdue)⟩⟩,
      fun hoff => ⟨_, rfl, monitorSample_core0_of_none (sample0_of_off hoff)⟩, monitorSample_core1_of_latency⟩
    have hs : s.sample0 core x = s.coreLevel core cls x := sample0_of_due hon hlev hdue
    refine ⟨fun hc => ?_, fun hc => ?_, fun hc => ?_, fun hc => ?_, fun hc => ?_⟩
    · exact monitorSample_core0_of_some (by rw [hs, hc]; rfl)
    · exact monitorSample_core0_of_some (by rw [hs, hc]; rfl)
    · exact monitorSample_core0_of_some (by rw [hs, hc]; rfl)
    · rcases hc with hc | hc <;> exact monitorSample_core0_of_some (by rw [hs, hc]; rfl)
    · exact ⟨_, rfl, monitorSample_core0_of_none (hs.trans (coreLevel_of_reserved hc))⟩
  · intro hon hlat
    rw [exec_monitorSample, monitorSample_other_of_latency hon hlat]

end Sys2Proof.Machine


/-! The address checks of memory instructions, and split-phase loads and atomics at issue (R109, R241 to R245, R374, R390, R450). -/

namespace Sys2Proof.Machine

/-! ### TRANSLATION at issue (R109, R390) -/

/-- The canonical addresses are the lowest and the highest 2^47. -/
theorem canonical_iff (va : Word) : canonical va = true ↔ va.toNat < 2 ^ 47 ∨ 2 ^ 64 - 2 ^ 47 ≤ va.toNat := by
  have hva : va.toNat < 2 ^ 64 := va.isLt
  rw [canonical, beq_iff_eq, ← BitVec.toInt_inj, BitVec.toInt_signExtend_of_le (by decide), BitVec.toInt_setWidth,
    BitVec.toInt_eq_toNat_bmod, Int.bmod, Int.bmod]
  omega

theorem inSelf_iff (va : Word) : inSelf va = true ↔ 2 ^ 64 - 2 ^ 20 ≤ va.toNat := decide_eq_true_iff

/-- The self window lies among the highest canonical addresses. -/
theorem canonical_of_inSelf {va : Word} (h : inSelf va = true) : canonical va = true := by
  rw [inSelf_iff] at h
  rw [canonical_iff]
  omega

/-- Local SRAM is the lowest part of the self window. -/
theorem sramSize_le_selfOfs_iff {va : Word} (h : inSelf va = true) :
    sramSize ≤ selfOfs va ↔ 2 ^ 64 - 2 ^ 20 + 0x60000 ≤ va.toNat := by
  rw [inSelf_iff] at h
  unfold sramSize selfOfs selfBase
  omega

section
variable {steward banned : Bool} {va : Word}

theorem xlatFault_of_uncanonical (h : canonical va = false) : xlatFault steward banned va = some 0x01 := if_pos h

theorem xlatFault_of_canonical (h : canonical va = true) : xlatFault steward banned va =
    if steward = false ∧ inSelf va = true ∧ (sramSize ≤ selfOfs va ∨ banned = true) then some 0x02 else none :=
  if_neg (ne_of_eq_of_ne h (by decide))

/-- In the self window a tenant's address fails with 0x02 exactly beyond local SRAM, or where the instruction is banned from it. -/
theorem xlatFault_of_inSelf (h : inSelf va = true) (ht : steward = false) : xlatFault steward banned va =
    if 2 ^ 64 - 2 ^ 20 + 0x60000 ≤ va.toNat ∨ banned = true then some 0x02 else none := by
  simp [xlatFault_of_canonical (canonical_of_inSelf h), sramSize_le_selfOfs_iff h, h, ht]

end

/-- Settles O17, by where the canonical addresses, the self window and local SRAM lie. -/
theorem addressChecksAtIssue : Obligations.AddressChecksAtIssue := by
  unfold Obligations.AddressChecksAtIssue
  intro steward banned va canon self
  refine ⟨fun hc => ?_, fun hc hst => ?_, fun hc hs => ?_, fun hs ht hb => ?_, fun hs ht hb => ?_, fun hs hb hlo => ?_⟩
  · exact xlatFault_of_uncanonical (Bool.eq_false_iff.2 (mt (canonical_iff va).1 hc))
  · rw [xlatFault_of_canonical ((canonical_iff va).2 hc), if_neg fun h => Bool.false_ne_true (h.1.symm.trans hst)]
  · rw [xlatFault_of_canonical ((canonical_iff va).2 hc), if_neg fun h => hs ((inSelf_iff va).1 h.2.1)]
  · rw [xlatFault_of_inSelf ((inSelf_iff va).2 hs) ht, if_pos (.inr hb)]
  · rw [xlatFault_of_inSelf ((inSelf_iff va).2 hs) ht, if_pos (.inl hb)]
  · have hself := (inSelf_iff va).2 hs
    rw [xlatFault_of_canonical (canonical_of_inSelf hself), if_neg]
    rintro ⟨-, -, hbeyond | hbanned⟩
    · exact absurd ((sramSize_le_selfOfs_iff hself).1 hbeyond) (Nat.not_le.2 hlo)
    · exact Bool.false_ne_true (hb.symm.trans hbanned)

/-! ### The address checks in order (R374, R450) -/

section
variable {s : State} {va : Word} {n align : Nat} {banned sync : Bool} {ok : Body}

theorem addrCheck_of_xlat {c : Nat} (hx : xlatFault (isSteward s.cur) banned va = some c) :
    addrCheck s va n align banned sync ok = .trap 0x06 c (some va.toNat) := by
  simp only [addrCheck, hx]

theorem addrCheck_of_misaligned (hx : xlatFault (isSteward s.cur) banned va = none) (ha : va.toNat % n ≠ 0) :
    addrCheck s va n align banned sync ok = .trap 0x03 align (some va.toNat) := by
  simp only [addrCheck, hx, if_pos ha]

theorem addrCheck_of_sync {c : Nat} (hx : xlatFault (isSteward s.cur) banned va = none) (ha : va.toNat % n = 0)
    (hs : sync = true) (hc : s.syncFault s.cur va n = some c) :
    addrCheck s va n align banned sync ok = .trap 0x04 c (some va.toNat) := by
  simp only [addrCheck, hx, if_neg (not_not_intro ha), if_pos hs, hc]

theorem addrCheck_of_passed (hx : xlatFault (isSteward s.cur) banned va = none) (ha : va.toNat % n = 0)
    (hs : sync = true → s.syncFault s.cur va n = none) : addrCheck s va n align banned sync ok = ok := by
  have hsync : (if sync then s.syncFault s.cur va n else none) = none := by
    split
    · next h => exact hs h
    · rfl
  simp only [addrCheck, hx, if_neg (not_not_intro ha), hsync]

end

/-! ### What split-phase loads and atomics check (R241, R244, R450) -/

/-- An access that completes at a slot: its frame words, its slot and its address are checked in this order, and then it is held. -/
def slotAccess (s : State) (f : Firing) (words size align : Nat) (banned sync : Bool) (k : FWord) (tb : Temp) (sl : Slot)
    (ok : Body) : Body :=
  let fr := (s.core s.cur).frame f.ctx.frame
  if fr.words < k.toNat + words then .trap 0x05 0x03 none
  else if fr.nslot ≤ sl.toNat then .trap 0x05 0x04 none
  else addrCheck s (f.w tb) size align banned sync ok

section
variable {s : State} {f : Firing} {k : FWord} {tb : Temp} {sl : Slot}

/-- The frame has the words and the slot that an access names. -/
def State.SlotThere (s : State) (f : Firing) (words : Nat) (k : FWord) (sl : Slot) : Prop :=
  k.toNat + words ≤ ((s.core s.cur).frame f.ctx.frame).words ∧ sl.toNat < ((s.core s.cur).frame f.ctx.frame).nslot

/-- The address of an access passes its checks. -/
def State.AddrPasses (s : State) (va : Word) (size : Nat) (banned sync : Bool) : Prop :=
  xlatFault (isSteward s.cur) banned va = none ∧ va.toNat % size = 0 ∧ (sync = true → s.syncFault s.cur va size = none)

theorem slotAccess_of_there {words size align : Nat} {banned sync : Bool} {ok : Body} (h : s.SlotThere f words k sl) :
    slotAccess s f words size align banned sync k tb sl ok = addrCheck s (f.w tb) size align banned sync ok := by
  simp only [slotAccess, if_neg (Nat.not_lt.2 h.1), if_neg (Nat.not_le.2 h.2)]

theorem slotAccess_of_passed {words size align : Nat} {banned sync : Bool} {ok : Body} (h : s.SlotThere f words k sl)
    (ha : s.AddrPasses (f.w tb) size banned sync) : slotAccess s f words size align banned sync k tb sl ok = ok := by
  obtain ⟨hx, hal, hs⟩ := ha
  rw [slotAccess_of_there h, addrCheck_of_passed hx hal hs]

/-- The faults of an access that completes at a slot, in the order of R450: its frame words, its slot, TRANSLATION, ALIGN,
SYNCWORD. -/
theorem issue_slotAccess_faults {words size align : Nat} {banned sync : Bool} {ok : Firing → State → Body} (h : s.Issues f true) :
    let fr := (s.core s.cur).frame f.ctx.frame
    let va := f.w tb
    let o := issue true (fun f s => slotAccess s f words size align banned sync k tb sl (ok f s)) s
    (fr.words < k.toNat + words → o = .next (s.takeFault s.cur f 0x05 0x03 none)) ∧
    (k.toNat + words ≤ fr.words → fr.nslot ≤ sl.toNat → o = .next (s.takeFault s.cur f 0x05 0x04 none)) ∧
    (k.toNat + words ≤ fr.words → sl.toNat < fr.nslot →
      (∀ c, xlatFault (isSteward s.cur) banned va = some c → o = .next (s.takeFault s.cur f 0x06 c (some va.toNat))) ∧
      (xlatFault (isSteward s.cur) banned va = none → va.toNat % size ≠ 0 →
        o = .next (s.takeFault s.cur f 0x03 align (some va.toNat))) ∧
      (∀ c, xlatFault (isSteward s.cur) banned va = none → va.toNat % size = 0 → sync = true → s.syncFault s.cur va size = some c →
        o = .next (s.takeFault s.cur f 0x04 c (some va.toNat)))) := by
  intro fr va o
  refine ⟨fun hw => ?_, fun hw hsl => ?_, fun hw hsl => ⟨fun c hx => ?_, fun hx ha => ?_, fun c hx ha hs hc => ?_⟩⟩
  · exact issue_trap _ _ _ _ _ _ _ h (if_pos hw)
  · exact issue_trap _ _ _ _ _ _ _ h ((if_neg (Nat.not_lt.2 hw)).trans (if_pos hsl))
  · exact issue_trap _ _ _ _ _ _ _ h ((slotAccess_of_there ⟨hw, hsl⟩).trans (addrCheck_of_xlat hx))
  · exact issue_trap _ _ _ _ _ _ _ h ((slotAccess_of_there ⟨hw, hsl⟩).trans (addrCheck_of_misaligned hx ha))
  · exact issue_trap _ _ _ _ _ _ _ h ((slotAccess_of_there ⟨hw, hsl⟩).trans (addrCheck_of_sync hx ha hs hc))

/-! ### LDS and LDRO (R241, R243) -/

/-- LDS and LDRO as an issue. -/
def splitLoad (kind : AccKind) (banned : Bool) (size : SplitSize) (k : FWord) (tb : Temp) (sl : Slot) :
    State → Host.Outcome State Fault Refusal := issue true fun f s =>
  slotAccess s f (splitWords size) (splitSz size) 0x03 banned false k tb sl
    (.done (s.hold f (.access kind (f.w tb) (splitSz size) 0 0 k.toNat sl.toNat)))

theorem exec_lds (size : SplitSize) : exec (.lds size k tb sl) s = splitLoad .lds false size k tb sl s := rfl
theorem exec_ldro (size : SplitSize) : exec (.ldro size k tb sl) s = splitLoad .ldro true size k tb sl s := rfl

theorem splitLoad_of_passed {kind : AccKind} {banned : Bool} {size : SplitSize} (h : s.Issues f true)
    (hsl : s.SlotThere f (splitWords size) k sl) (ha : s.AddrPasses (f.w tb) (splitSz size) banned false) :
    splitLoad kind banned size k tb sl s =
      .next (s.ranHeld f f (.access kind (f.w tb) (splitSz size) 0 0 k.toNat sl.toNat)) :=
  issue_hold_same true _ s f _ h (slotAccess_of_passed hsl ha)

/-! ### The atomics (R244, R245) -/

theorem fsides_one (core frame k : Nat) : s.fsides core frame k 1 = s.fside core frame k := BitVec.or_zero

theorem fsides_two (core frame k : Nat) : s.fsides core frame k 2 = s.fside core frame k ||| s.fside core frame (k + 1) :=
  congrArg (s.fside core frame k ||| ·) BitVec.or_zero

/-- What an atomic does behind its checks: it is held with its operands, in a firing whose flag set has their side-bands. -/
def atomicBody (op : Nat) (wd : AWidth) (scope : Scope) (k : FWord) (tb : Temp) (sl : Slot) (f : Firing) (s : State) : Body :=
  let x := atomOperand wd (s.fword s.cur f.ctx.frame k.toNat)
  let y := if op = 8 then atomOperand wd (s.fword s.cur f.ctx.frame (k.toNat + 1)) else 0
  let f1 := f.orFlags (s.fsides s.cur f.ctx.frame k.toNat (atomWords op))
  .done ((s.setFiring f1).hold f (.access (.atomic op x y scope) (f.w tb) (atomSz wd) 0 f1.flags k.toNat sl.toNat))

theorem atomic_eq (op : Nat) (wd : AWidth) (scope : Scope) : atomic op wd scope k tb sl s = issue true (fun f s =>
    slotAccess s f (atomWords op) (atomSz wd) 0x01 false true k tb sl (atomicBody op wd scope k tb sl f s)) s := rfl

/-- An atomic that passes its checks is held with its operand words and the flag set with their side-bands. -/
theorem atomic_of_passed {op : Nat} {wd : AWidth} {scope : Scope} (h : s.Issues f true) (hsl : s.SlotThere f (atomWords op) k sl)
    (ha : s.AddrPasses (f.w tb) (atomSz wd) false true) :
    let x := atomOperand wd (s.fword s.cur f.ctx.frame k.toNat)
    let y := if op = 8 then atomOperand wd (s.fword s.cur f.ctx.frame (k.toNat + 1)) else 0
    let g := f.orFlags (s.fsides s.cur f.ctx.frame k.toNat (atomWords op))
    atomic op wd scope k tb sl s =
      .next (s.ranHeld f g (.access (.atomic op x y scope) (f.w tb) (atomSz wd) 0 g.flags k.toNat sl.toNat)) :=
  issue_hold true _ s f _ _ h (slotAccess_of_passed hsl ha) rfl

/-- An atomic of one operand word that passes its checks. -/
theorem atomic_of_one {op : Nat} {wd : AWidth} {scope : Scope} (hop : op ≠ 8) (h : s.Issues f true) (hsl : s.SlotThere f 1 k sl)
    (ha : s.AddrPasses (f.w tb) (atomSz wd) false true) :
    let g := f.orFlags (s.fside s.cur f.ctx.frame k.toNat)
    atomic op wd scope k tb sl s =
      .next (s.ranHeld f g (.access (.atomic op (atomOperand wd (s.fword s.cur f.ctx.frame k.toNat)) 0 scope) (f.w tb) (atomSz wd) 0
        g.flags k.toNat sl.toNat)) := by
  have hw : atomWords op = 1 := if_neg hop
  have e := atomic_of_passed (scope := scope) h (hw ▸ hsl) ha
  simp only [hw, fsides_one, if_neg hop] at e
  exact e

/-- ACAS has two operand words. -/
theorem atomic_of_two {wd : AWidth} {scope : Scope} (h : s.Issues f true) (hsl : s.SlotThere f 2 k sl)
    (ha : s.AddrPasses (f.w tb) (atomSz wd) false true) :
    let g := f.orFlags (s.fside s.cur f.ctx.frame k.toNat ||| s.fside s.cur f.ctx.frame (k.toNat + 1))
    atomic 8 wd scope k tb sl s =
      .next (s.ranHeld f g (.access (.atomic 8 (atomOperand wd (s.fword s.cur f.ctx.frame k.toNat))
        (atomOperand wd (s.fword s.cur f.ctx.frame (k.toNat + 1))) scope) (f.w tb) (atomSz wd) 0 g.flags k.toNat sl.toNat)) := by
  have e := atomic_of_passed (op := 8) (scope := scope) h hsl ha
  rw [show atomWords 8 = 2 from rfl, fsides_two] at e
  exact e

/-- The atomics of one operand word that have both widths. -/
theorem exec_atomic_of_mem {wd : AWidth} {scope : Scope} : ∀ i ∈ [Instr.aadd wd scope k tb sl, .aand wd scope k tb sl,
    .aor wd scope k tb sl, .axor wd scope k tb sl, .amin wd scope k tb sl, .amax wd scope k tb sl, .aswap wd scope k tb sl],
    ∃ op, atomWords op = 1 ∧ exec i s = atomic op wd scope k tb sl s := by
  simp only [List.forall_mem_cons, List.not_mem_nil, false_imp_iff, implies_true, and_true]
  exact ⟨⟨0, rfl, rfl⟩, ⟨1, rfl, rfl⟩, ⟨2, rfl, rfl⟩, ⟨3, rfl, rfl⟩, ⟨4, rfl, rfl⟩, ⟨5, rfl, rfl⟩, ⟨6, rfl, rfl⟩⟩

end

/-- Settles O18: what passes is held, by the checks that split-phase loads and atomics share, and what does not faults in their
order. -/
theorem splitLoadsAndAtomicsAreHeld : Obligations.SplitLoadsAndAtomicsAreHeld := by
  unfold Obligations.SplitLoadsAndAtomicsAreHeld
  refine ⟨fun s f size wd scope k tb sl h => ?_, fun s f size wd scope k tb sl h => ?_⟩
  · intro fr va slotOk split w side atom
    have hsplit {i : Instr} {kind : AccKind} {banned : Bool} (e : exec i s = splitLoad kind banned size k tb sl s) :
        split i kind banned := fun hw hsl hx ha => e.trans (splitLoad_of_passed h ⟨hw, hsl⟩ ⟨hx, ha, nofun⟩)
    have hatomic {i : Instr} {op : Nat} {z : AWidth} (hop : op ≠ 8) (e : exec i s = atomic op z scope k tb sl s) :
        atom i op z := by
      intro hw hsl hx ha hs
      rw [e, atomic_of_one hop h ⟨hw, hsl⟩ ⟨hx, ha, fun _ => hs⟩]
      cases z <;> rfl
    refine ⟨hsplit (exec_lds size), hsplit (exec_ldro size), hatomic (by decide) rfl, hatomic (by decide) rfl,
      hatomic (by decide) rfl, hatomic (by decide) rfl, hatomic (by decide) rfl, hatomic (by decide) rfl, hatomic (by decide) rfl,
      hatomic (by decide) rfl, fun hw hsl hx ha hs => ?_⟩
    refine (atomic_of_two (scope := scope) h ⟨hw, hsl⟩ ⟨hx, ha, fun _ => hs⟩).trans ?_
    cases wd <;> rfl
  · intro fr va faults
    have hfaults {i : Instr} {words size align : Nat} {banned sync : Bool} {ok : Firing → State → Body}
        (e : exec i s = issue true (fun f s => slotAccess s f words size align banned sync k tb sl (ok f s)) s) :
        faults i words size align banned sync := by
      simp only [faults, e]
      exact issue_slotAccess_faults h
    refine ⟨hfaults (exec_lds size), hfaults (exec_ldro size), fun i hi => ?_, hfaults (atomic_eq 7 .w scope),
      hfaults (atomic_eq 8 wd scope)⟩
    obtain ⟨op, hw, e⟩ := exec_atomic_of_mem i hi
    exact hfaults (hw ▸ e.trans (atomic_eq op wd scope))

end Sys2Proof.Machine


/-! Homes: what a cache slice leaves as it is, and requests performed on lines of HBM (R104, R107, R124, R244 to R247, R391). -/

namespace Sys2Proof.Machine

/-! ### The entries of a table -/

theorem tabFind_tabSet_same {α : Type} (t : Tab α) (a : Nat) (v : α) : tabFind (tabSet t a v) a = some v := by
  induction t with
  | nil => simp [tabSet, tabFind]
  | cons e t ih =>
    obtain ⟨k, w⟩ := e
    by_cases h1 : k = a
    · simp [tabSet, tabFind, h1]
    · by_cases h2 : a < k <;> simp [tabSet, tabFind, h1, h2, ih]

/-! ### Cache slices (R104, R107, R117) -/

/-- What no access of a cache slice changes, but for bytes that are read again under another key: memory, the cores and the
network. -/
def State.unsliced (s : State) : List Host.Cell × Tab CoreSt × List Packet := (s.mem, s.cores, s.net)

theorem unsliced_eq_iff {s : State} {m : List Host.Cell} {c : Tab CoreSt} {l : List Packet} :
    s.unsliced = (m, c, l) ↔ s.mem = m ∧ s.cores = c ∧ s.net = l := by
  simp [State.unsliced]

/-- A line is written under the number of a key, or has never been written. -/
def State.LineFits (s : State) (key line : Nat) : Prop := ∀ n, s.lineKeyNo line = some n → n = s.keyNumber key

section
variable {s : State} {key line : Nat} {wr : Bool}

theorem State.LineFits.any_eq_false (h : s.LineFits key line) :
    (s.lineKeyNo line).any (fun k => k != s.keyNumber key) = false := by
  cases e : s.lineKeyNo line with
  | none => rfl
  | some n => simp [h n e]

theorem evictLine_unsliced (s : State) (line : Nat) : (s.evictLine line).unsliced = s.unsliced := by
  unfold State.evictLine
  split <;> rfl

theorem trimSlice_unsliced (s : State) (cluster : Nat) : (s.trimSlice cluster).unsliced = s.unsliced :=
  foldl_keeps State.unsliced evictLine_unsliced _ _

/-- A line that comes under the key of its last write-back brings no new bytes. -/
theorem allocLine_unsliced (h : s.LineFits key line) : (s.allocLine key line wr).unsliced = s.unsliced := by
  refine (trimSlice_unsliced _ _).trans ?_
  rw [h.any_eq_false]
  rfl

/-- Once a line has left its slice, it stands in HBM under the number of the key that it had. -/
theorem lineKeyNo_evictLine (s : State) (line : Nat) : (s.evictLine line).lineKeyNo line = s.lineKeyNo line := by
  cases hl : s.residentLine line with
  | none => rw [State.evictLine, hl]
  | some l =>
    have hgone : (s.evictLine line).residentLine line = none := by
      rw [State.evictLine, hl, State.residentLine, modCluster_cluster_same, List.find?_eq_none]
      intro x hx hline
      exact (bne_iff_ne.1 (List.mem_filter.1 hx).2) (beq_iff_eq.1 hline)
    rw [State.lineKeyNo, State.lineKeyNo, hgone, hl]
    simp only [State.evictLine, hl, State.modCluster]
    cases l.dirty with
    | false => rfl
    | true => simp [tabFind_tabSet_same]

theorem keyNumber_evictLine (s : State) (line : Nat) : (s.evictLine line).keyNumber key = s.keyNumber key := by
  unfold State.evictLine
  split <;> rfl

theorem touchLine_unsliced (h : s.LineFits key line) : (s.touchLine key line wr).unsliced = s.unsliced := by
  unfold State.touchLine
  split
  · split
    · rfl
    · have hev : (s.evictLine line).LineFits key line := fun n hn => by
        rw [keyNumber_evictLine]
        exact h n (lineKeyNo_evictLine s line ▸ hn)
      rw [allocLine_unsliced hev, evictLine_unsliced]
  · exact allocLine_unsliced h

end

section
variable {s : State} {key pa n : Nat}

/-- An access within one line touches that line. -/
theorem touchLines_of_line {wr : Bool} (hh : isHbm pa = true) (hn : 0 < n) (hl : pa % 128 + n ≤ 128) :
    s.touchLines key pa n wr = s.touchLine key (pa / 128) wr := by
  rw [State.touchLines, if_pos hh, show (pa % 128 + n + 127) / 128 = 1 by omega]
  rfl

theorem readByte_of_lineFits (h : s.LineFits key (pa / 128)) : s.readByte key pa = memByte s.mem pa := by
  rw [State.readByte, h.any_eq_false, Bool.and_false]
  rfl

theorem readBytes_of_lineFits {line : Nat} (h : s.LineFits key line) (hl : ∀ j < n, (pa + j) / 128 = line) :
    s.readBytes key pa n = memBytes s.mem pa n := by
  induction n generalizing pa with
  | zero => rfl
  | succ n ih =>
    have h0 : pa / 128 = line := hl 0 n.succ_pos
    rw [State.readBytes, memBytes, readByte_of_lineFits (h0 ▸ h), ih fun j hj => ?_]
    have := hl (j + 1) (Nat.succ_lt_succ hj)
    omega

/-- Bytes written within one line of HBM under a key that fits it are all that changes of memory, the cores and the network. -/
theorem writeBytes_unsliced {bs : List Byte} {side : Byte} (hh : isHbm pa = true) (hn : 0 < bs.length)
    (hl : pa % 128 + bs.length ≤ 128) (hk : s.LineFits key (pa / 128)) :
    (s.writeBytes key pa bs side).unsliced = (memPuts s.mem pa bs, s.cores, s.net) := by
  have ht : (s.touchLines key pa bs.length true).unsliced = s.unsliced := by
    rw [touchLines_of_line hh hn hl, touchLine_unsliced hk]
  obtain ⟨hmem, hcores, hnet⟩ := unsliced_eq_iff.1 ht
  rw [State.writeBytes, if_pos hh]
  simp only [State.unsliced, hmem, hcores, hnet]

end

/-! ### A request at the home of an HBM address (R104, R391) -/

section
variable {s : State} {r : Req}

theorem spaceOf_of_isHbm {pa : Nat} (h : isHbm pa = true) : s.spaceOf pa = .hbm pa ∨ s.spaceOf pa = .reserved := by
  rw [State.spaceOf, if_pos (decide_eq_true_iff.1 h), hbmSpace]
  exact ite_eq_or_eq _ _ _

theorem isSram_of_isHbm {pa : Nat} (h : isHbm pa = true) : isSram pa = false := by
  have hlt : pa < 0x8000000000 := decide_eq_true_iff.1 h
  rw [isSram, isWin, decide_eq_false (by omega)]
  rfl

theorem keyRefused_of_isHbm (h : isHbm r.pa = true) (hd : r.dev = none) :
    s.keyRefused r = s.keyBad (isSteward r.ctx.core) r.asid r.key := by
  simp [State.keyRefused, h, hd]

theorem perform_of_keyRefused {code : Nat} (h : s.keyRefused r = some code) :
    s.perform r = s.sendResp (s.agentOf r.pa) r (.refuse r 0x07 code) := by
  simp only [State.perform, h]

theorem perform_of_lds (hh : isHbm r.pa = true) (hk : s.keyRefused r = none) (hr : r.kind = .lds) : s.perform r = s.homeLoad r := by
  rcases spaceOf_of_isHbm (s := s) hh with e | e <;> simp only [State.perform, hk, e, hr]

theorem perform_of_store (hh : isHbm r.pa = true) (hk : s.keyRefused r = none) (hs : s.syncRefused r = false)
    (hr : r.kind = .st ∨ r.kind = .pst ∨ r.kind = .stt) : s.perform r = s.homeStore r := by
  rcases spaceOf_of_isHbm (s := s) hh with e | e <;> rcases hr with hr | hr | hr <;>
    simp [State.perform, hk, e, hr, hs]

theorem perform_of_atomic {op : Nat} {x y : Word} {sc : Scope} (hh : isHbm r.pa = true) (hk : s.keyRefused r = none)
    (hs : s.syncRefused r = false) (hr : r.kind = .atomic op x y sc) : s.perform r = s.homeAtomic r op x y := by
  rcases spaceOf_of_isHbm (s := s) hh with e | e <;> simp [State.perform, hk, e, hr, hs]

/-- A load of HBM bytes brings what its home reads. -/
theorem homeLoad_of_lds (hh : isHbm r.pa = true) (hr : r.kind = .lds) : s.homeLoad r =
    { s.touchLines r.key r.pa r.size false with fresh := s.fresh + r.size / 8 + 2 }.sendResp (s.agentOf r.pa) r
      (.loadResp r (s.readBytes r.key r.pa r.size) (s.sidesFor r.pa r.size)) := by
  have hb : s.loadBytes r = s.readBytes r.key r.pa r.size := by
    rcases spaceOf_of_isHbm (s := s) hh with e | e <;> simp only [State.loadBytes, e]
  simp [State.homeLoad, hr, hb]

/-- A store to HBM writes its bytes under its key and is acknowledged. -/
theorem homeStore_of_isHbm (hh : isHbm r.pa = true) : s.homeStore r =
    (s.writeBytes r.key r.pa (leBytes r.size r.data.toNat) r.side).sendResp (s.agentOf r.pa) r (.ack r) := by
  have hsram := isSram_of_isHbm hh
  have hst : r.stewardStore = false := by simp [Req.stewardStore, hsram]
  rcases spaceOf_of_isHbm (s := s) hh with e | e <;> simp [State.homeStore, e, hst, hsram]

end

section
variable {s : State} {k : Nat} {p : Packet} {r : Req}

theorem exec_homeAccess : exec (.homeAccess k) s = .next (homeAccess k s) := rfl

theorem homeAccess_of_waiting (hp : s.recv k = some p) (hm : p.msg = .access r) (ho : s.orderOk r = false) :
    homeAccess k s = s := by
  obtain ⟨src, dst, cls, tenant, msg, held⟩ := p
  subst hm
  simp only [homeAccess, hp, ho, or_true, if_true]

theorem homeAccess_of_turn (hp : s.recv k = some p) (hm : p.msg = .access r) (hd : p.dst ≠ .host) (hdev : r.dev = none)
    (ho : s.orderOk r = true) : homeAccess k s = (s.dropPkt k).perform r := by
  obtain ⟨src, dst, cls, tenant, msg, held⟩ := p
  subst hm
  have hturn : ¬(dst = .host ∨ s.orderOk r = false) := by simp [ho, show dst ≠ .host from hd]
  simp only [homeAccess, hp, if_neg hturn, hdev, Option.isSome_none, Bool.false_eq_true, if_false]

end

/-! ### What a store and an atomic leave in HBM (R244, R245) -/

section
variable {s : State} {key pa n : Nat}

/-- Bytes within one line of HBM whose key fits. -/
structure State.InLine (s : State) (key pa n : Nat) : Prop where
  hbm : isHbm pa = true
  pos : 0 < n
  line : pa % 128 + n ≤ 128
  fits : s.LineFits key (pa / 128)

theorem State.InLine.readBytes (h : s.InLine key pa n) : s.readBytes key pa n = memBytes s.mem pa n :=
  readBytes_of_lineFits h.fits fun j hj => by have := h.line; omega

theorem State.InLine.touchLines (h : s.InLine key pa n) {wr : Bool} : (s.touchLines key pa n wr).unsliced = s.unsliced := by
  rw [touchLines_of_line h.hbm h.pos h.line, touchLine_unsliced h.fits]

/-- A packet that leaves the network leaves the lines. -/
theorem State.InLine.dropPkt (h : s.InLine key pa n) {k : Nat} : (s.dropPkt k).InLine key pa n := ⟨h.hbm, h.pos, h.line, h.fits⟩

/-- A number written as n bytes reads back, every other byte stays, and the cores and the network stay. -/
theorem State.InLine.writeBytes (h : s.InLine key pa n) (hw : s.Wf) (v : Nat) (side : Byte) :
    let t := s.writeBytes key pa (leBytes n v) side
    memBytes t.mem pa n = leBytes n v ∧ (∀ a, a < pa ∨ pa + n ≤ a → memByte t.mem a = memByte s.mem a) ∧
      t.net = s.net ∧ t.cores = s.cores := by
  have hlen : (leBytes n v).length = n := leBytes_length n v
  have ht := writeBytes_unsliced (side := side) h.hbm (hlen.symm ▸ h.pos) (hlen.symm ▸ h.line) h.fits
  obtain ⟨hmem, hcores, hnet⟩ := unsliced_eq_iff.1 ht
  refine ⟨?_, fun a ha => ?_, hnet, hcores⟩
  · have hb := memBytes_memPuts_same pa (leBytes n v) hw
    rwa [hlen, ← hmem] at hb
  · rw [hmem]
    exact memByte_memPuts_other _ _ _ _ (hlen.symm ▸ ha)

/-- The number that is read back after a number was written as n bytes. -/
theorem leNat_leBytes_pow (n v : Nat) : leNat (leBytes n v) = v % 2 ^ (8 * n) := by
  rw [leNat_leBytes, Nat.pow_mul]

end

/-- An atomic on HBM answers with the old value; a compare and swap that fails touches its line, and any other atomic writes its
result. -/
theorem State.InLine.homeAtomic {s : State} {r : Req} {op : Nat} {x y : Word} (h : s.InLine r.key r.pa r.size) (hw : s.Wf) :
    let old := leNat (memBytes s.mem r.pa r.size)
    let res := atomResult op (8 * r.size) old x.toNat y.toNat
    ∃ (t : State) (was : Byte),
      s.homeAtomic r op x y = t.sendResp (s.agentOf r.pa) r (.atomResp r (BitVec.ofNat 64 old) (was ||| res.2)) ∧
      ((op ≠ 8 ∨ old = x.toNat) → leNat (memBytes t.mem r.pa r.size) = res.1 % 2 ^ (8 * r.size)) ∧
      (op = 8 → old ≠ x.toNat → t.mem = s.mem) ∧
      (∀ a, a < r.pa ∨ r.pa + r.size ≤ a → memByte t.mem a = memByte s.mem a) ∧ t.net = s.net := by
  intro old res
  let was := (s.sidesFor r.pa r.size).foldl (· ||| ·) 0
  have hread : leNat (s.readBytes r.key r.pa r.size) = old := congrArg leNat h.readBytes
  by_cases hfail : op = 8 ∧ old ≠ x.toNat
  · obtain ⟨hmem, -, hnet⟩ := unsliced_eq_iff.1 (h.touchLines (wr := false))
    refine ⟨s.touchLines r.key r.pa r.size false, was, ?_, ?_⟩
    · simp only [State.homeAtomic, hread, if_pos hfail, isSram_of_isHbm h.hbm, if_neg Bool.false_ne_true]
      rfl
    · rw [hmem, hnet]
      exact ⟨fun hc => absurd hfail (by tauto), fun _ _ => rfl, fun _ _ => rfl, rfl⟩
  · let side := r.side ||| res.2 ||| (if op = 6 ∨ op = 8 then 0 else was &&& 0x20)
    refine ⟨s.writeBytes r.key r.pa (leBytes r.size res.1) side, was, ?_, ?_⟩
    · simp only [State.homeAtomic, hread, if_neg hfail]
      rfl
    · obtain ⟨hb, ha, hnet, -⟩ := h.writeBytes hw res.1 side
      exact ⟨fun _ => (congrArg leNat hb).trans (leNat_leBytes_pow _ _), fun h8 hne => absurd ⟨h8, hne⟩ hfail, ha, hnet⟩

/-! ### What the atomics compute (R245, R246) -/

section
variable {w old x y : Nat}

/-- Sign extension of a number of w bits is its reading in two's complement. -/
theorem sextN_eq_toInt {v : Nat} (hw : 0 < w) (hv : v < 2 ^ w) : sextN w v = (BitVec.ofNat w v).toInt := by
  obtain ⟨u, rfl⟩ := Nat.exists_eq_succ_of_ne_zero hw.ne'
  rw [BitVec.toInt_eq_toNat_cond, BitVec.toNat_ofNat, sextN, Nat.mod_eq_of_lt hv, Nat.succ_sub_one]
  have hpow : 2 ^ u.succ = 2 * 2 ^ u := Nat.pow_succ'
  split <;> split
  · rfl
  · omega
  · omega
  · push_cast
    rfl

end

/-- A choice between two values that differ where its condition fails is the first exactly where the condition holds. -/
theorem ite_eq_left_iff_of_ne {α : Type} {P : Prop} [Decidable P] {a b : α} (h : ¬P → b ≠ a) : (if P then a else b) = a ↔ P :=
  ite_eq_left_iff.trans ⟨fun e => by_contra fun hP => h hP (e hP), fun hP hn => absurd hP hn⟩

section
variable {w old x y : Nat}

/-- AMIN and AMAX choose by the order of two's complement. -/
theorem atomResult_order (hw : 0 < w) (ho : old < 2 ^ w) (hx : x < 2 ^ w) :
    (atomResult 4 w old x y = (old, 0) ↔ (BitVec.ofNat w old).toInt ≤ (BitVec.ofNat w x).toInt) ∧
    (atomResult 5 w old x y = (x, 0) ↔ (BitVec.ofNat w old).toInt ≤ (BitVec.ofNat w x).toInt) := by
  have hne : ¬ (BitVec.ofNat w old).toInt ≤ (BitVec.ofNat w x).toInt → x ≠ old := fun hle e => hle (e ▸ le_refl _)
  simp only [atomResult, sextN_eq_toInt hw ho, sextN_eq_toInt hw hx, Prod.mk.injEq, and_true]
  exact ⟨ite_eq_left_iff_of_ne hne, ite_eq_left_iff_of_ne fun hle => (hne hle).symm⟩

/-- What AMIN and AMAX choose from. -/
theorem atomResult_choice (w old x y : Nat) :
    (atomResult 4 w old x y = (old, 0) ∨ atomResult 4 w old x y = (x, 0)) ∧
    (atomResult 5 w old x y = (old, 0) ∨ atomResult 5 w old x y = (x, 0)) := by
  simp only [atomResult, Prod.mk.injEq, and_true]
  exact ⟨ite_eq_or_eq _ _ _, (ite_eq_or_eq _ _ _).symm⟩

end

/-! ### The obligation -/

section
variable {s : State} {k : Nat} {r : Req}

/-- A request of this device stands in its turn before the slice that is the home of its HBM address. -/
structure State.AtSlice (s : State) (k : Nat) (r : Req) : Prop where
  arrives : ∃ p q, s.recv k = some p ∧ p.msg = .access r ∧ p.dst = .slice q
  hbm : isHbm r.pa = true
  dev : r.dev = none
  turn : s.orderOk r = true

theorem State.AtSlice.exec (h : s.AtSlice k r) : exec (.homeAccess k) s = .next ((s.dropPkt k).perform r) := by
  obtain ⟨p, q, hp, hm, hd⟩ := h.arrives
  rw [exec_homeAccess, homeAccess_of_turn hp hm (by simp [hd]) h.dev h.turn]

theorem State.AtSlice.keyRefused (h : s.AtSlice k r) :
    (s.dropPkt k).keyRefused r = s.keyBad (isSteward r.ctx.core) r.asid r.key := keyRefused_of_isHbm h.hbm h.dev

theorem State.AtSlice.exec_of_refused {code : Nat} (h : s.AtSlice k r)
    (hk : s.keyBad (isSteward r.ctx.core) r.asid r.key = some code) :
    Machine.exec (.homeAccess k) s = .next ((s.dropPkt k).sendResp (s.agentOf r.pa) r (.refuse r 0x07 code)) := by
  rw [h.exec, perform_of_keyRefused (h.keyRefused.trans hk)]
  rfl

section
variable (h : s.AtSlice k r) (hk : s.keyBad (isSteward r.ctx.core) r.asid r.key = none) (hl : s.InLine r.key r.pa r.size)
include h hk hl

theorem State.AtSlice.exec_of_lds (hr : r.kind = .lds) : Machine.exec (.homeAccess k) s = .next
    ({ (s.dropPkt k).touchLines r.key r.pa r.size false with fresh := s.fresh + r.size / 8 + 2 }.sendResp (s.agentOf r.pa) r
      (.loadResp r (memBytes s.mem r.pa r.size) (s.sidesFor r.pa r.size))) := by
  rw [h.exec, perform_of_lds h.hbm (h.keyRefused.trans hk) hr, homeLoad_of_lds h.hbm hr, hl.dropPkt.readBytes]
  rfl

theorem State.AtSlice.exec_of_store (hw : s.Wf) (hs : s.syncRefused r = false) (hr : r.kind = .st ∨ r.kind = .pst ∨ r.kind = .stt) :
    ∃ t : State, Machine.exec (.homeAccess k) s = .next (t.sendResp (s.agentOf r.pa) r (.ack r)) ∧
      memBytes t.mem r.pa r.size = leBytes r.size r.data.toNat ∧
      (∀ a, a < r.pa ∨ r.pa + r.size ≤ a → memByte t.mem a = memByte s.mem a) ∧ t.net = (s.dropPkt k).net ∧ t.cores = s.cores := by
  refine ⟨(s.dropPkt k).writeBytes r.key r.pa (leBytes r.size r.data.toNat) r.side, ?_, hl.dropPkt.writeBytes hw _ _⟩
  rw [h.exec, perform_of_store h.hbm (h.keyRefused.trans hk) hs hr, homeStore_of_isHbm h.hbm]
  rfl

theorem State.AtSlice.exec_of_atomic {op : Nat} {x y : Word} {sc : Scope} (hw : s.Wf) (hs : s.syncRefused r = false)
    (hr : r.kind = .atomic op x y sc) :
    let old := leNat (memBytes s.mem r.pa r.size)
    let res := atomResult op (8 * r.size) old x.toNat y.toNat
    ∃ (t : State) (was : Byte), Machine.exec (.homeAccess k) s =
        .next (t.sendResp (s.agentOf r.pa) r (.atomResp r (BitVec.ofNat 64 old) (was ||| res.2))) ∧
      ((op ≠ 8 ∨ old = x.toNat) → leNat (memBytes t.mem r.pa r.size) = res.1 % 2 ^ (8 * r.size)) ∧
      (op = 8 → old ≠ x.toNat → t.mem = s.mem) ∧
      (∀ a, a < r.pa ∨ r.pa + r.size ≤ a → memByte t.mem a = memByte s.mem a) ∧ t.net = (s.dropPkt k).net := by
  rw [h.exec, perform_of_atomic h.hbm (h.keyRefused.trans hk) hs hr]
  obtain ⟨t, was, e, ht⟩ := hl.dropPkt.homeAtomic hw (op := op) (x := x) (y := y)
  exact ⟨t, was, congrArg Host.Outcome.next e, ht⟩

end

end

/-- Settles O38: at an HBM line whose key fits, reading and writing under the key is reading and writing memory; and the atomics'
results, of which minimum and maximum choose by two's complement. -/
theorem homesPerformRequests : Obligations.HomesPerformRequests := by
  unfold Obligations.HomesPerformRequests
  refine ⟨fun s k p r q hw hp hm hd hh hdev => ?_, fun w old x y hw ho hx => ?_⟩
  · intro d src
    have hat (ho : s.orderOk r = true) : s.AtSlice k r := ⟨⟨p, q, hp, hm, hd⟩, hh, hdev, ho⟩
    refine ⟨fun ho => ?_, fun code ho hk => (hat ho).exec_of_refused hk, fun ho hk hline hpos hfits hs => ?_⟩
    · rw [exec_homeAccess, homeAccess_of_waiting hp hm ho]
    · have hl : s.InLine r.key r.pa r.size := ⟨hh, hpos, hline, hfits⟩
      exact ⟨(hat ho).exec_of_lds hk hl, fun hr _ => (hat ho).exec_of_store hk hl hw hs hr,
        fun op x y sc hr _ => (hat ho).exec_of_atomic hk hl hw hs hr⟩
  · have hpos : 0 < w := by omega
    obtain ⟨hmin, hmax⟩ := atomResult_order (y := y) hpos ho hx
    obtain ⟨hmin', hmax'⟩ := atomResult_choice w old x y
    exact ⟨rfl, rfl, rfl, rfl, hmin, hmax, hmin', hmax', rfl, congrArg (·, 0) (if_pos rfl), fun hne => congrArg (·, 0) (if_neg hne)⟩

end Sys2Proof.Machine


/-! Walks, parked pages, purges of the replay queue, the end of a publication, and TLB invalidation (R113, R141, R229, R391 to
R398). -/

namespace Sys2Proof.Machine

/-! ### Walks (R113, R391) -/

section
variable {s : State} {r : Req}

theorem walkReq_of_absent {l : Nat} (h : s.walk (dieOf r.ctx.core) r.asid r.va = .absent l) :
    s.walkReq r = (s.walkTouch (dieOf r.ctx.core) r.asid r.va).park (clusterOf r.ctx.core) (.core r) l := by
  simp only [State.walkReq, h]

theorem walkReq_of_bad {cls code : Nat} (h : s.walk (dieOf r.ctx.core) r.asid r.va = .bad cls code) :
    s.walkReq r = (s.walkTouch (dieOf r.ctx.core) r.asid r.va).refuseReq r cls code := by
  simp only [State.walkReq, h]

section
variable {entry : Nat} {pte : Word} {big : Bool} (h : s.walk (dieOf r.ctx.core) r.asid r.va = .leaf entry pte big)
include h

theorem walkReq_of_refusing {cls code : Nat} (hc : s.checkLeaf r pte big = .error (cls, code)) :
    s.walkReq r = (s.walkTouch (dieOf r.ctx.core) r.asid r.va).refuseReq r cls code := by
  simp only [State.walkReq, h, hc]

theorem walkReq_of_granting {pa : Nat × Nat} (hc : s.checkLeaf r pte big = .ok pa) :
    let m := (s.walkTouch (dieOf r.ctx.core) r.asid r.va).markPte entry pte r.kind.need.write
    s.walkReq r = ((m.1.fillWalk (dieOf r.ctx.core) r.asid r.va).fillTlbs r.ctx.core r.asid r.va m.2 big).meetLeaf r m.2 big := by
  simp only [State.walkReq, h, hc]

end

end

/-! ### The L2 TLB (R113, R335, R394, R396) -/

section
variable {s : State} {cl n : Nat} {r : Req}

/-- The request at a place of a cluster's walking list leaves the list. -/
def State.unlisted (s : State) (cl n : Nat) : State := s.modCluster cl (fun k => { k with walking := k.walking.eraseIdx n })

/-- A core's request stands at a place of a cluster's walking list, and nothing holds it there. -/
structure State.Walks (s : State) (cl n : Nat) (r : Req) : Prop where
  listed : (s.cluster cl).walking[n]? = some (.core r)
  running : (s.cluster cl).stop = false
  first : (s.cluster cl).behind n r.ctx.core (XReq.core r).page = false
  turn : s.hostWaits r = false

theorem walkCompletion_of_held (hl : (s.cluster cl).walking[n]? = some (.core r))
    (h : (s.cluster cl).stop = true ∨ (s.cluster cl).behind n r.ctx.core (XReq.core r).page = true ∨ s.hostWaits r = true) :
    walkCompletion cl n s = s := by
  have hheld : ((s.cluster cl).stop || (s.cluster cl).behind n r.ctx.core (XReq.core r).page || s.hostWaits r) = true := by
    simpa [or_assoc] using h
  simp only [walkCompletion, hl, if_pos hheld]

theorem State.Walks.held_eq_false (h : s.Walks cl n r) :
    ¬((s.cluster cl).stop || (s.cluster cl).behind n r.ctx.core (XReq.core r).page || s.hostWaits r) = true := by
  simp [h.running, h.first, h.turn]

theorem walkCompletion_of_parked (h : s.Walks cl n r) (hp : (s.cluster cl).holdsPage (XReq.core r).page = true) :
    walkCompletion cl n s = (s.unlisted cl n).park cl (.core r) (s.walk (dieOf r.ctx.core) r.asid r.va).level := by
  simp only [walkCompletion, h.listed, if_neg h.held_eq_false, if_pos hp]
  rfl

section
variable (h : s.Walks cl n r) (hp : (s.cluster cl).holdsPage (XReq.core r).page = false)
include h hp

theorem walkCompletion_of_hit {pte : Word} {big : Bool}
    (ht : servable r.kind.need (tlbFind (s.cluster cl).tlb r.asid r.va) = some (pte, big)) :
    walkCompletion cl n s = ((s.unlisted cl n).fillTlbs r.ctx.core r.asid r.va pte big).meetLeaf r pte big := by
  simp only [walkCompletion, h.listed, if_neg h.held_eq_false, hp, Bool.false_eq_true, if_false, ht]
  rfl

theorem walkCompletion_of_miss (ht : servable r.kind.need (tlbFind (s.cluster cl).tlb r.asid r.va) = none) :
    walkCompletion cl n s = (s.unlisted cl n).walkReq r := by
  simp only [walkCompletion, h.listed, if_neg h.held_eq_false, hp, Bool.false_eq_true, if_false, ht]
  rfl

end

theorem exec_walkCompletion : exec (.walkCompletion cl n) s = .next (walkCompletion cl n s) := rfl

end

/-! ### The end of a publication (R141, R393, R396) -/

/-- An access of a list of request numbers is on its way to its home. -/
def State.accessOut (s : State) (ids : List Nat) : Bool :=
  s.net.any (fun q => match q.msg with
    | .access r => ids.contains r.id
    | _ => false)

theorem accessOut_nil (s : State) : s.accessOut [] = false := by
  rw [State.accessOut, List.any_eq_false]
  intro q _
  split <;> simp

/-- What follows once a publication's generation word is written, or is given up: the entry takes the even generation, the arrival
is sent, and the results that wait go on. -/
def State.publEnds (s : State) (j : PublJob) (p : PubBuf) (asid b : Nat) : State :=
  (((s.setPub asid b (fun p => { p with gen := p.gen + 1 }) p).arrive (.core j.ctx.core) j.ctx.tenant
    (BitVec.ofNat 32 (fieldN j.op 16 32)) (fieldN j.op 8 6) 1)).retryResults

/-- The state without a publication that a die holds. -/
def State.unpubl (s : State) (die asid b : Nat) : State :=
  s.modDie die (fun d => { d with publs := d.publs.filter (fun p => !(p.asid == asid && p.k == b)) })

/-- The page of the generation word for which a publication waits: none once its store was purged. -/
def State.publAbsent (s : State) (asid : Nat) (j : PublJob) (p : PubBuf) : List (Word × Nat) :=
  if j.purged then [] else (s.genAbsent (clusterOf j.ctx.core) j.ctx.core asid p.genaddr).toList

/-- The publication leaves its die and its generation word is written, unless that store was purged. -/
def State.publStored (s : State) (die asid b : Nat) (j : PublJob) (p : PubBuf) : State :=
  if j.purged then s.unpubl die asid b
  else (s.unpubl die asid b).genStore j.ctx.core asid p.genaddr (p.gen + 1).toNat

/-- A PUBL of a core is in progress at a die, with its buffer's entry there and at the core's die. -/
structure State.Publishes (s : State) (die asid b : Nat) (d : Die) (j : PublJob) (p : PubBuf) : Prop where
  held : s.dies.find? (fun d => d.2.publs.any (fun p => p.asid == asid && p.k == b)) = some (die, d)
  job : d.publs.find? (fun p => p.asid == asid && p.k == b) = some j
  entry : d.pub asid b = some p
  core : j.who = none
  ownEntry : (s.die (dieOf j.ctx.core)).pub asid b = some p

section
variable {s : State} {die asid b : Nat} {d : Die} {j : PublJob} {p : PubBuf}

theorem State.Publishes.cluster (h : s.Publishes die asid b d j p) : j.cluster = clusterOf j.ctx.core := by
  simp only [PublJob.cluster, h.core]

theorem State.Publishes.publDone (h : s.Publishes die asid b d j p) (t : State) :
    t.publDone j = t.arrive (.core j.ctx.core) j.ctx.tenant (BitVec.ofNat 32 (fieldN j.op 16 32)) (fieldN j.op 8 6) 1 := by
  simp only [State.publDone, h.core]

theorem State.Publishes.genWait (h : s.Publishes die asid b d j p) :
    s.genWait (clusterOf j.ctx.core) j.ctx.core asid b = (s.genAbsent (clusterOf j.ctx.core) j.ctx.core asid p.genaddr).toList := by
  simp only [State.genWait, h.ownEntry]

/-- The end of a publication waits, parks for the page of its generation word, or ends. -/
theorem publHoldEnd_eq (h : s.Publishes die asid b d j p) : publHoldEnd asid b s =
    if s.accessOut j.waits = true ∨ (s.cluster (clusterOf j.ctx.core)).stop = true then s
    else if !(s.publAbsent asid j p).isEmpty then s.parkResult (clusterOf j.ctx.core) j.ctx.core asid none (s.publAbsent asid j p)
    else (s.publStored die asid b j p).publEnds j p asid b := by
  simp only [publHoldEnd, h.held, h.job, h.entry, h.publDone, h.cluster, h.genWait]
  rfl

theorem publHoldEnd_of_held (h : s.Publishes die asid b d j p)
    (hw : s.accessOut j.waits = true ∨ (s.cluster (clusterOf j.ctx.core)).stop = true) : publHoldEnd asid b s = s := by
  rw [publHoldEnd_eq h, if_pos hw]

section
variable (h : s.Publishes die asid b d j p) (hw : j.waits = []) (hs : (s.cluster (clusterOf j.ctx.core)).stop = false)
include h hw hs

theorem publHoldEnd_of_free : publHoldEnd asid b s =
    if !(s.publAbsent asid j p).isEmpty then s.parkResult (clusterOf j.ctx.core) j.ctx.core asid none (s.publAbsent asid j p)
    else (s.publStored die asid b j p).publEnds j p asid b := by
  rw [publHoldEnd_eq h, if_neg]
  rw [hw, accessOut_nil, hs]
  decide

theorem publHoldEnd_of_absent {va : Word} {l : Nat} (hp : j.purged = false)
    (ha : s.genAbsent (clusterOf j.ctx.core) j.ctx.core asid p.genaddr = some (va, l))
    (hn : (s.cluster (clusterOf j.ctx.core)).parked.contains (.wait asid va j.ctx.core none) = false) :
    publHoldEnd asid b s = s.park (clusterOf j.ctx.core) (.wait asid va j.ctx.core none) l := by
  have habs : s.publAbsent asid j p = [(va, l)] := by simp [State.publAbsent, hp, ha]
  have hpark : ¬((s.cluster (clusterOf j.ctx.core)).stop ||
      (s.cluster (clusterOf j.ctx.core)).parked.contains (.wait asid va j.ctx.core none)) = true := by rw [hs, hn]; decide
  rw [publHoldEnd_of_free h hw hs, habs]
  exact if_neg hpark

theorem publHoldEnd_of_present (hp : j.purged = false)
    (ha : s.genAbsent (clusterOf j.ctx.core) j.ctx.core asid p.genaddr = none) :
    publHoldEnd asid b s =
      ((s.unpubl die asid b).genStore j.ctx.core asid p.genaddr (p.gen + 1).toNat).publEnds j p asid b := by
  have habs : s.publAbsent asid j p = [] := by simp [State.publAbsent, hp, ha]
  simp [publHoldEnd_of_free h hw hs, habs, State.publStored, hp]

theorem publHoldEnd_of_purged (hp : j.purged = true) : publHoldEnd asid b s = (s.unpubl die asid b).publEnds j p asid b := by
  have habs : s.publAbsent asid j p = [] := if_pos hp
  simp [publHoldEnd_of_free h hw hs, habs, State.publStored, hp]

end

theorem exec_publHoldEnd : exec (.publHoldEnd asid b) s = .next (publHoldEnd asid b s) := rfl

end

/-! ### TLB invalidation (R113, R229) -/

/-- A table whose entries change by their keys, where the entries of one key all change alike and the default does not. -/
theorem tabGet_map_of_key {α : Type} {d : α} {a : Nat} {g : Nat × α → Nat × α} {f : α → α} (hg : ∀ v, g (a, v) = (a, f v))
    (hk : ∀ e, (g e).1 = e.1) (hd : f d = d) (t : Tab α) : tabGet d (t.map g) a = f (tabGet d t a) := by
  induction t with
  | nil => exact hd.symm
  | cons e t ih =>
    obtain ⟨k, v⟩ := e
    by_cases h : k = a
    · subst h
      simp [hg, tabGet]
    · have hne : (g (k, v)).1 ≠ a := ne_of_eq_of_ne (hk (k, v)) h
      rw [List.map_cons, tabGet, tabGet, if_neg hne, if_neg h, ih]

section
variable {s : State} {core die q : Nat} {op : Word}

/-- A core of the die loses the translations that match. -/
theorem tlbDrop_core_of_die (h : dieOf q = die) : (s.tlbDrop die op).core q =
    { s.core q with tlb := (s.core q).tlb.filter (fun t => !tlbMatch op t) } :=
  tabGet_map_of_key (f := fun c : CoreSt => { c with tlb := c.tlb.filter (fun t => !tlbMatch op t) }) (fun _ => if_pos h)
    (fun e => by split <;> rfl) rfl s.cores

/-- A core of another die stays. -/
theorem tlbDrop_core_of_other (h : dieOf q ≠ die) : (s.tlbDrop die op).core q = s.core q := by
  refine tabGet_map_of_key (f := id) (fun v => ?_) (fun e => ?_) rfl s.cores
  · exact if_neg h
  · split <;> rfl

theorem tlbDrop_tlbWait : ((s.tlbDrop die op).core q).tlbWait = (s.core q).tlbWait := by
  by_cases h : dieOf q = die
  · rw [tlbDrop_core_of_die h]
  · rw [tlbDrop_core_of_other h]

/-- The dies that a core waits for are no translations. -/
theorem modCore_tlbWait_tlb (g : List Nat → List Nat) :
    ((s.modCore core (fun c => { c with tlbWait := g c.tlbWait })).core q).tlb = (s.core q).tlb := by
  by_cases h : core = q
  · subst h
    rw [modCore_core_same]
  · rw [modCore_core_other _ _ _ _ h]

theorem tlbinvAcknowledgement_of_used (h : s.tlbInUse die (s.core core).tlbOp = true) : tlbinvAcknowledgement core die s = s :=
  if_pos (.inr h)

theorem tlbinvAcknowledgement_of_free (hw : (s.core core).tlbWait.contains die = true)
    (h : s.tlbInUse die (s.core core).tlbOp = false) : tlbinvAcknowledgement core die s =
      (s.tlbDrop die (s.core core).tlbOp).modCore core (fun c => { c with tlbWait := c.tlbWait.filter (fun d => d != die) }) :=
  if_neg (by simp only [hw, h]; decide)

theorem exec_tlbinvAcknowledgement : exec (.tlbinvAcknowledgement core die) s = .next (tlbinvAcknowledgement core die s) := rfl

end

/-- Settles O40, event by event: a walk by what the L2 TLB and the walker find, the end of a publication by what it still waits for,
and an invalidation by what it filters. -/
theorem translationsServeRequests : Obligations.TranslationsServeRequests := by
  unfold Obligations.TranslationsServeRequests
  refine ⟨fun s cl n asid b r => ⟨fun hl => ?_, rfl, fun die d j p hd hj hp hwho hown => ?_⟩, fun s core die => ?_⟩
  · simp only [exec_walkCompletion, Host.Outcome.next.injEq]
    refine ⟨walkCompletion_of_held hl, fun hst hb hh => ?_⟩
    have h : s.Walks cl n r := ⟨hl, hst, hb, hh⟩
    refine ⟨walkCompletion_of_parked h, fun pte big hp => walkCompletion_of_hit h hp, fun hp ht => ?_⟩
    have hmiss := walkCompletion_of_miss h hp ht
    exact ⟨fun l hw => hmiss.trans (walkReq_of_absent hw), fun cls code hw => hmiss.trans (walkReq_of_bad hw),
      fun entry pte big cls code hw hc => hmiss.trans (walkReq_of_refusing hw hc),
      fun entry pte big pa hw hc => hmiss.trans (walkReq_of_granting hw hc)⟩
  · simp only [exec_publHoldEnd, Host.Outcome.next.injEq]
    have h : s.Publishes die asid b d j p := ⟨hd, hj, hp, hwho, hown⟩
    exact ⟨publHoldEnd_of_held h, fun hw hs => ⟨fun va l => publHoldEnd_of_absent h hw hs, publHoldEnd_of_present h hw hs,
      publHoldEnd_of_purged h hw hs⟩⟩
  · simp only [exec_tlbinvAcknowledgement, Host.Outcome.next.injEq]
    refine ⟨fun hw hu => ⟨_, tlbinvAcknowledgement_of_free hw hu, ?_, fun q hq e he => ?_, fun q hq => ?_, rfl⟩,
      fun _ hu => tlbinvAcknowledgement_of_used hu⟩
    · rw [modCore_core_same, tlbDrop_tlbWait]
    · rw [modCore_tlbWait_tlb, tlbDrop_core_of_die hq] at he
      exact Bool.not_eq_true' _ ▸ (List.mem_filter.1 he).2
    · rw [modCore_tlbWait_tlb, tlbDrop_core_of_other hq]

end Sys2Proof.Machine


/-! Stores and fences at issue (R133, R174, R238, R239, R390, R450). -/

namespace Sys2Proof.Machine

/-! ### ST, STT and PST (R238, R239, R450) -/

section
variable {s : State} {f : Firing} {kind : AccKind} {banned sync : Bool} {size : MemSize} {t tb : Temp} {off : BitVec 14}
  {k : Firing → State → Word → Nat}

/-- A store whose address passes its checks is held with its size, its low bytes and the flag set. -/
theorem issue_storeBody_of_passed (h : s.Issues f true) (ha : s.AddrPasses (memAddr f size tb off) (memSz size) banned sync) :
    let va := memAddr f size tb off
    issue true (storeBody kind banned sync size t tb off k) s =
      .next (s.ranHeld f f (.access kind va (memSz size) (lowBytes (f.t t) (memSz size)) f.flags (k f s va) 0)) := by
  obtain ⟨hx, hal, hs⟩ := ha
  exact issue_hold_same true _ s f _ h (addrCheck_of_passed hx hal hs)

/-- The faults of a store in the order of R450: TRANSLATION, ALIGN, SYNCWORD. -/
theorem issue_storeBody_faults (h : s.Issues f true) :
    let va := memAddr f size tb off
    let o := issue true (storeBody kind banned sync size t tb off k) s
    (∀ c, xlatFault (isSteward s.cur) banned va = some c → o = .next (s.takeFault s.cur f 0x06 c (some va.toNat))) ∧
    (xlatFault (isSteward s.cur) banned va = none → va.toNat % memSz size ≠ 0 →
      o = .next (s.takeFault s.cur f 0x03 0x02 (some va.toNat))) ∧
    (∀ c, xlatFault (isSteward s.cur) banned va = none → va.toNat % memSz size = 0 → sync = true →
      s.syncFault s.cur va (memSz size) = some c → o = .next (s.takeFault s.cur f 0x04 c (some va.toNat))) := by
  intro va o
  refine ⟨fun c hx => ?_, fun hx ha => ?_, fun c hx ha hs hc => ?_⟩
  · exact issue_trap _ _ _ _ _ _ _ h (addrCheck_of_xlat hx)
  · exact issue_trap _ _ _ _ _ _ _ h (addrCheck_of_misaligned hx ha)
  · exact issue_trap _ _ _ _ _ _ _ h (addrCheck_of_sync hx ha hs hc)

end

/-! ### FENCE (R133) -/

/-- A FENCE leaves a mark behind what its firing holds. -/
theorem exec_fence_of_issues {s : State} {f : Firing} (kind : FenceKind) (scope : Scope) (h : s.Issues f false) :
    exec (.fence kind scope) s = .next (s.ranMark f f (.fence kind scope)) :=
  issue_hold_same false _ s f _ h rfl

/-- A mark that takes no entry leaves the occupied entries as they are. -/
theorem occupied_ranMark {s : State} {f g : Firing} {a : Act} (ha : a.entry = false) :
    ((s.ranMark f g a).core s.cur).occupied = (s.core s.cur).occupied := by
  simp [State.ranMark, CoreSt.occupied, List.filter_append, ha]

/-- Settles O16: the checks that the three stores share, and FENCE as a mark without an entry. -/
theorem storesAndFencesAreHeld : Obligations.StoresAndFencesAreHeld := by
  unfold Obligations.StoresAndFencesAreHeld
  refine ⟨fun s f size t tb off h => ?_, fun s f kind scope h => ?_⟩
  · intro va n data form
    have hform {i : Instr} {kind : AccKind} {banned sync : Bool} {k : Firing → State → Word → Nat}
        (e : exec i s = issue true (storeBody kind banned sync size t tb off k) s) : form i kind banned sync (k f s va) := by
      simp only [form, e]
      exact ⟨fun hx hal hs => issue_storeBody_of_passed h ⟨hx, hal, hs⟩, issue_storeBody_faults h⟩
    exact ⟨hform (k := fun _ _ _ => 0) rfl,
      hform (k := fun f s va => (flagMapAddr ((s.core s.cur).nodeDesc f.ctx.vnode) va).toNat) rfl,
      hform (k := fun _ _ _ => 0) rfl⟩
  · refine ⟨exec_fence_of_issues kind scope h, fun t ht => ?_⟩
    rw [exec_fence_of_issues kind scope h] at ht
    cases ht
    exact occupied_ranMark rfl

end Sys2Proof.Machine


/-! Responses, acknowledgements and refusals: what a completion at a frame leaves of the cores, the counts of UNACK, and the
operations of the host (R126, R129, R239 to R246, R334, R335, R370, R392; log 49). -/

namespace Sys2Proof.Machine

/-! ### Bytes written at their home leave the cores (R104, R107, R118) -/

section
variable {s : State}

theorem evictLine_cores (s : State) (line : Nat) : (s.evictLine line).cores = s.cores := by
  unfold State.evictLine
  split <;> rfl

theorem trimSlice_cores (s : State) (cluster : Nat) : (s.trimSlice cluster).cores = s.cores :=
  foldl_keeps State.cores evictLine_cores _ _

theorem allocLine_cores (s : State) (key line : Nat) (wr : Bool) : (s.allocLine key line wr).cores = s.cores := by
  refine (trimSlice_cores _ _).trans ?_
  rw [modCluster_cores]
  split <;> rfl

theorem touchLine_cores (s : State) (key line : Nat) (wr : Bool) : (s.touchLine key line wr).cores = s.cores := by
  unfold State.touchLine
  split
  · split
    · rfl
    · rw [allocLine_cores, evictLine_cores]
  · exact allocLine_cores ..

theorem touchLines_cores (s : State) (key pa n : Nat) (wr : Bool) : (s.touchLines key pa n wr).cores = s.cores := by
  unfold State.touchLines
  split
  · exact foldl_keeps State.cores (fun _ _ => touchLine_cores ..) _ _
  · rfl

theorem writeBytes_cores (s : State) (key pa : Nat) (bs : List Byte) (side : Byte) :
    (s.writeBytes key pa bs side).cores = s.cores := by
  unfold State.writeBytes
  split
  · exact touchLines_cores ..
  · split <;> rfl

theorem setFword_cores (s : State) (core i k : Nat) (v : Word) (side : Byte) : (s.setFword core i k v side).cores = s.cores := by
  unfold State.setFword
  split
  · rw [writeBytes_cores, writeBytes_cores]
  · exact writeBytes_cores ..

theorem setFwords_cores (core i k : Nat) (side : Byte) (l : List Word) : (s.setFwords core i k side l).cores = s.cores := by
  induction l generalizing s k with
  | nil => rfl
  | cons v l ih => rw [State.setFwords, ih, setFword_cores]

theorem putWords_cores (core i k : Nat) (l : List (Word × Byte)) : (s.putWords core i k l).cores = s.cores := by
  induction l generalizing s k with
  | nil => rfl
  | cons w l ih => rw [State.putWords, ih, setFword_cores]

theorem clearFrame_cores (s : State) (core i : Nat) : (s.clearFrame core i).cores = s.cores := by
  unfold State.clearFrame
  split
  · exact foldl_keeps State.cores (fun _ _ => setFword_cores ..) _ _
  · rfl

theorem modJobs_cores (s : State) (q : JobQueue) (f : List Job → List Job) : (s.modJobs q f).cores = s.cores := by
  cases q <;> rfl

theorem setFlag_cores (s : State) (cluster bit : Nat) : (s.setFlag cluster bit).cores = s.cores := by
  unfold State.setFlag
  split <;> rfl

theorem arrive_cores (s : State) (src : Agent) (tenant : Nat) (h : Handle) (slot amount : Nat) :
    (s.arrive src tenant h slot amount).cores = s.cores := by
  unfold State.arrive
  split <;> rfl

theorem sendLaunch_cores (s : State) (core id : Nat) (delta : Int) : (s.sendLaunch core id delta).cores = s.cores := by
  unfold State.sendLaunch
  split <;> rfl

theorem faultToken_cores (s : State) (core : Nat) (r : Rec) (h : Handle) : (s.faultToken core r h).cores = s.cores := by
  unfold State.faultToken
  split <;> rfl

theorem activationLost_cores (s : State) (core : Nat) (x : Ctx) (r : Rec) (h : Handle) :
    (s.activationLost core x r h).cores = s.cores := by
  unfold State.activationLost
  extract_lets
  split
  · rfl
  · split
    · rfl
    · exact faultToken_cores ..

end

/-! ### What a core waits for -/

/-- The counts of UNACK, the loads outstanding, and the atomic that the commit queue waits for. -/
def CoreSt.awaits (c : CoreSt) : Unack × List Pending × Option Nat := (c.unack, c.pend, c.atomWait)

/-- What every core waits for. -/
def State.awaits (s : State) (core : Nat) : Unack × List Pending × Option Nat := (s.core core).awaits

section
variable {s t : State}

theorem awaits_of_cores (h : t.cores = s.cores) : t.awaits = s.awaits := by
  funext c
  rw [State.awaits, State.awaits, State.core, State.core, h]

/-- A change of a core that leaves what it waits for. -/
theorem modCore_awaits {core : Nat} {f : CoreSt → CoreSt} (hf : ∀ c, (f c).awaits = c.awaits := by exact fun _ => rfl) :
    (s.modCore core f).awaits = s.awaits := by
  funext c
  by_cases h : core = c
  · subst h
    rw [State.awaits, modCore_core_same, hf]
    rfl
  · rw [State.awaits, modCore_core_other _ _ _ _ h]
    rfl

theorem unack_of_awaits (h : t.awaits = s.awaits) (c : Nat) : (t.core c).unack = (s.core c).unack :=
  congrArg (·.1) (congrFun h c)

theorem pend_of_awaits (h : t.awaits = s.awaits) (c : Nat) : (t.core c).pend = (s.core c).pend :=
  congrArg (·.2.1) (congrFun h c)

theorem atomWait_of_awaits (h : t.awaits = s.awaits) (c : Nat) : (t.core c).atomWait = (s.core c).atomWait :=
  congrArg (·.2.2) (congrFun h c)

theorem awaits_eq_iff {core : Nat} {u : Unack} {l : List Pending} {a : Option Nat} : s.awaits core = (u, l, a) ↔
    (s.core core).unack = u ∧ (s.core core).pend = l ∧ (s.core core).atomWait = a := by
  simp [State.awaits, CoreSt.awaits]

theorem modFrame_awaits (s : State) (core i : Nat) (f : Frame → Frame) : (s.modFrame core i f).awaits = s.awaits := modCore_awaits

theorem modTile_awaits (s : State) (core n : Nat) (f : Tile → Tile) : (s.modTile core n f).awaits = s.awaits := modCore_awaits

theorem CoreSt.want_awaits (c : CoreSt) (v : Nat) : (c.want v).awaits = c.awaits := by
  unfold CoreSt.want
  split <;> rfl

theorem pushReady_awaits (s : State) (core : Nat) (r : Ready) : (s.pushReady core r).awaits = s.awaits :=
  modCore_awaits fun _ => CoreSt.want_awaits ..

theorem wake_awaits (s : State) (core : Nat) (r : Ready) : (s.wake core r).awaits = s.awaits := by
  unfold State.wake
  split
  · exact modFrame_awaits ..
  · exact pushReady_awaits ..

theorem dropRefs_awaits (s : State) (l : List (Nat × Nat)) : (s.dropRefs l).awaits = s.awaits :=
  foldl_keeps State.awaits (fun _ _ => modTile_awaits ..) _ _

theorem withdrawJobs_awaits (s : State) (core frame gen : Nat) : (s.withdrawJobs core frame gen).awaits = s.awaits := by
  refine (dropRefs_awaits ..).trans (awaits_of_cores ?_)
  rw [modJobs_cores, modJobs_cores]

theorem freeNow_awaits (s : State) (core i : Nat) : (s.freeNow core i).awaits = s.awaits :=
  (awaits_of_cores (sendLaunch_cores ..)).trans modCore_awaits

theorem freeUnder_awaits (s : State) (core i : Nat) : (s.freeUnder core i).awaits = s.awaits :=
  (awaits_of_cores (sendLaunch_cores ..)).trans modCore_awaits

theorem freeFrame_awaits (s : State) (core i : Nat) : (s.freeFrame core i).awaits = s.awaits := by
  unfold State.freeFrame
  split
  · rfl
  · exact modFrame_awaits ..
  · exact modFrame_awaits ..
  · split
    · exact freeUnder_awaits ..
    · exact freeNow_awaits ..

theorem purgeFrame_awaits (s : State) (core i : Nat) : (s.purgeFrame core i).awaits = s.awaits :=
  (freeFrame_awaits ..).trans (Eq.trans modCore_awaits (withdrawJobs_awaits ..))

theorem loseFrame_awaits (s : State) (core i slot : Nat) : (s.loseFrame core i slot).awaits = s.awaits :=
  (awaits_of_cores (activationLost_cores ..)).trans
    ((awaits_of_cores (setFlag_cores ..)).trans (purgeFrame_awaits ..))

theorem updateSlot_awaits (s : State) (core frame slot : Nat) (w : Word) : (s.updateSlot core frame slot w).awaits = s.awaits := by
  unfold State.updateSlot
  extract_lets
  split
  · exact awaits_of_cores (setFword_cores ..)
  · split
    · exact (wake_awaits ..).trans (awaits_of_cores (setFword_cores ..))
    · exact awaits_of_cores ((arrive_cores ..).trans (setFword_cores ..))

theorem allocFrame_awaits {core cls nslot vnode launch i : Nat} {parent : Handle} {iter : Word} {hframe : Bool}
    (e : s.allocFrame core cls nslot vnode launch parent iter hframe = .ok t i) : t.awaits = s.awaits := by
  unfold State.allocFrame at e
  extract_lets at e
  split at e
  · cases e
  · split at e <;> cases e
    · exact (awaits_of_cores (clearFrame_cores ..)).trans (modFrame_awaits ..)
    · exact (awaits_of_cores (clearFrame_cores ..)).trans (modFrame_awaits ..)

theorem handlerArrival_awaits (s : State) (core i slot k : Nat) (data : Vec) (payload : Nat) (side : Byte) (sender : Handle) :
    (s.handlerArrival core i slot k data payload side sender).awaits = s.awaits := by
  unfold State.handlerArrival
  extract_lets
  split
  · next s1 n e =>
    refine (wake_awaits ..).trans ((awaits_of_cores ?_).trans (allocFrame_awaits e))
    rw [sendLaunch_cores, setFword_cores, setFword_cores, setFwords_cores, State.initSlots, setFwords_cores]
  · rfl

theorem applyFrame_awaits (s : State) (core i slot k amount payload : Nat) (data : Vec) (side : Byte) (sender : Handle) :
    (s.applyFrame core i slot k amount payload data side sender).awaits = s.awaits := by
  unfold State.applyFrame
  extract_lets f w s1 w1
  have h1 : s1.awaits = s.awaits := (modFrame_awaits ..).trans (awaits_of_cores (setFwords_cores ..))
  split
  · rfl
  · split
    · split
      · rfl
      · exact (handlerArrival_awaits ..).trans (modFrame_awaits ..)
    · split
      · rfl
      · split
        · exact (updateSlot_awaits ..).trans h1
        · exact h1

/-- A completion at a frame leaves what the cores wait for. -/
theorem completeAt_awaits (s : State) (x : Ctx) (k slot : Nat) (ws : List (Word × Byte)) :
    (s.completeAt x k slot ws).awaits = s.awaits := by
  unfold State.completeAt
  split
  · rfl
  · split
    · exact loseFrame_awaits ..
    · exact (applyFrame_awaits ..).trans (awaits_of_cores (putWords_cores ..))

theorem tryCont_awaits (s : State) (core i : Nat) : (s.tryCont core i).awaits = s.awaits := by
  unfold State.tryCont
  extract_lets
  split
  · exact (wake_awaits ..).trans (modFrame_awaits ..)
  · rfl

theorem settle_awaits (s : State) (x : Ctx) (f : Frame → Frame) : (s.settle x f).awaits = s.awaits := by
  unfold State.settle
  extract_lets
  split
  · exact (tryCont_awaits ..).trans (modFrame_awaits ..)
  · rfl

end

/-! ### The counts of UNACK (R129, R239, R245; log 49) -/

/-- The counts with each field of a mask of scopes one lower. -/
def Unack.lowered (u : Unack) (m : Nat) : Unack :=
  { u with clus := u.clus - if m.testBit 0 then 1 else 0, die := u.die - if m.testBit 1 then 1 else 0,
           pkg := u.pkg - if m.testBit 2 then 1 else 0, sys := u.sys - if m.testBit 3 then 1 else 0 }

/-- The counts once a request's store part is acknowledged: those of its own scopes, and of its flag map's. -/
def Unack.acked (u : Unack) (r : Req) : Unack := (u.lowered r.scopes).lowered r.mapScopes

/-- A count falls where its bit is in the mask. -/
theorem ite_pred (b : Prop) [Decidable b] (n : Nat) : (if b then n - 1 else n) = n - if b then 1 else 0 := by
  split <;> rfl

theorem onStore_pred (u : Unack) (m : Nat) : u.onStore m (fun n => n - 1) = u.lowered m := by
  simp [Unack.onStore, Unack.lowered, ite_pred, Nat.testBit_eq_decide_div_mod_eq]

section
variable {s : State} {r : Req}

theorem lowerLoad_awaits (s : State) (r : Req) :
    (s.lowerLoad r).awaits = (s.modUnack r.ctx.core (fun u => { u with load := u.load - 1 })).awaits := settle_awaits ..

theorem lowerStore_awaits (s : State) (r : Req) : (s.lowerStore r).awaits = (s.modUnack r.ctx.core (·.acked r)).awaits := by
  have hacked : (fun u : Unack => (u.onStore r.scopes (fun n => n - 1)).onStore r.mapScopes (fun n => n - 1)) = (·.acked r) := by
    simp only [onStore_pred]
    rfl
  unfold State.lowerStore
  rw [hacked]
  extract_lets
  split
  · exact settle_awaits ..
  · rfl

theorem modUnack_awaits_same (s : State) (core : Nat) (f : Unack → Unack) :
    (s.modUnack core f).awaits core = (f (s.core core).unack, (s.core core).pend, (s.core core).atomWait) := by
  rw [State.awaits, State.modUnack, modCore_core_same]
  rfl

theorem lowerStore_awaits_same (s : State) (r : Req) : (s.lowerStore r).awaits r.ctx.core =
    ((s.core r.ctx.core).unack.acked r, (s.core r.ctx.core).pend, (s.core r.ctx.core).atomWait) := by
  rw [lowerStore_awaits, modUnack_awaits_same]

theorem lowerLoad_awaits_same (s : State) (r : Req) : (s.lowerLoad r).awaits r.ctx.core =
    ({ (s.core r.ctx.core).unack with load := (s.core r.ctx.core).unack.load - 1 }, (s.core r.ctx.core).pend,
      (s.core r.ctx.core).atomWait) := by
  rw [lowerLoad_awaits, modUnack_awaits_same]

/-! ### A posted store's frame count (R29, R239) -/

/-- A frame keeps its count of posted stores while its continuation is tried. -/
theorem tryCont_npst (s : State) (core i : Nat) : (((s.tryCont core i).core core).frame i).npst = ((s.core core).frame i).npst := by
  unfold State.tryCont State.wake
  extract_lets
  split
  · split
    · simp [State.modFrame, newReady]
    · simp [State.modFrame]
  · rfl

theorem lowerStore_npst (hk : r.kind = .pst) (hf : ((s.core r.ctx.core).frame r.ctx.frame).state ≠ .free)
    (hg : ((s.core r.ctx.core).frame r.ctx.frame).gen = r.ctx.gen) :
    (((s.lowerStore r).core r.ctx.core).frame r.ctx.frame).npst = ((s.core r.ctx.core).frame r.ctx.frame).npst - 1 := by
  have hsame : ((((s.modUnack r.ctx.core (fun u => (u.onStore r.scopes (fun n => n - 1)).onStore r.mapScopes (fun n => n - 1))).core
      r.ctx.core).frame r.ctx.frame)) = (s.core r.ctx.core).frame r.ctx.frame := by simp [State.modUnack, CoreSt.frame]
  rw [State.lowerStore, if_pos hk, State.settle, hsame, if_pos (by simp [hf, hg]), tryCont_npst, State.modFrame, modCore_core_same,
    CoreSt.setFrame_frame, hsame]

theorem lowerStore_of_not_pst (hk : r.kind ≠ .pst) : (s.lowerStore r).mem = s.mem ∧ (s.lowerStore r).net = s.net := by
  rw [State.lowerStore, if_neg hk]
  exact ⟨rfl, rfl⟩

/-! ### Parts of a load, and atomics (R135, R241, R245) -/

section
variable {bytes sides : List Byte} {bad : Bool} {q : Pending}

/-- A load's entry with one part more that has returned. -/
def Pending.returned (q : Pending) (r : Req) (bytes sides : List Byte) (bad : Bool) : Pending :=
  { q with parts := q.parts - 1, failed := q.failed || bad, bytes := memPuts q.bytes r.ofs bytes,
           sides := sides.zipIdx.foldl (fun t e => tabSet t (r.ofs / 8 + e.2) e.1) q.sides }

variable (hq : (s.core r.ctx.core).pend.find? (fun e => e.id == r.id) = some q)
include hq

theorem partDone_of_last (hp : q.parts ≤ 1) : s.partDone r bytes sides bad =
    ((s.modCore r.ctx.core (fun c => { c with pend := c.pend.filter (fun q => q.id != r.id) })).completeAt r.ctx r.k r.slot
      (q.returned r bytes sides bad).words).lowerLoad r := by
  have h0 : q.parts - 1 = 0 := by omega
  rw [State.partDone, hq]
  exact if_pos h0

theorem partDone_of_more (hp : 1 < q.parts) : s.partDone r bytes sides bad = s.modCore r.ctx.core (fun c =>
    { c with pend := c.pend.map (fun e => if e.id = r.id then q.returned r bytes sides bad else e) }) := by
  have h0 : ¬ q.parts - 1 = 0 := by omega
  rw [State.partDone, hq]
  exact if_neg h0

/-- The last part of a load lowers LOAD, and the load is outstanding no more. -/
theorem partDone_last_awaits (hp : q.parts ≤ 1) :
    let t := s.partDone r bytes sides bad
    (t.core r.ctx.core).unack = { (s.core r.ctx.core).unack with load := (s.core r.ctx.core).unack.load - 1 } ∧
      (t.core r.ctx.core).pend.all (fun e => e.id != r.id) = true := by
  intro t
  let s1 := s.modCore r.ctx.core (fun c => { c with pend := c.pend.filter (fun q => q.id != r.id) })
  let u := s1.completeAt r.ctx r.k r.slot (q.returned r bytes sides bad).words
  have ht : t = u.lowerLoad r := partDone_of_last hq hp
  have hu : u.awaits = s1.awaits := completeAt_awaits ..
  have hs1 : s1.core r.ctx.core = { s.core r.ctx.core with
      pend := (s.core r.ctx.core).pend.filter (fun q => q.id != r.id) } := modCore_core_same ..
  have he := lowerLoad_awaits_same u r
  rw [← ht, unack_of_awaits hu, pend_of_awaits hu, hs1] at he
  obtain ⟨hunack, hpend, -⟩ := awaits_eq_iff.1 he
  refine ⟨hunack, ?_⟩
  rw [hpend]
  exact List.all_eq_true.2 fun e h => (List.mem_filter.1 h).2

/-- Any other part leaves the counts, and the load is still outstanding. -/
theorem partDone_more_awaits (hp : 1 < q.parts) :
    let t := s.partDone r bytes sides bad
    (t.core r.ctx.core).unack = (s.core r.ctx.core).unack ∧ (t.core r.ctx.core).pend.any (fun e => e.id == r.id) = true ∧
      t.mem = s.mem := by
  intro t
  have hid : q.id = r.id := beq_iff_eq.1 (List.find?_some hq :)
  have ht : t = _ := partDone_of_more hq hp
  rw [ht, modCore_core_same]
  refine ⟨rfl, List.any_eq_true.2 ⟨q.returned r bytes sides bad, List.mem_map.2 ⟨q, List.mem_of_find?_eq_some hq, if_pos hid⟩, ?_⟩, rfl⟩
  exact beq_iff_eq.2 hid

end

/-- An atomic that completes lowers LOAD and the fields of its store part, and its queue waits for it no more. -/
theorem atomicDone_awaits (s : State) (r : Req) (old : Word) (side : Byte) :
    (s.atomicDone r old side).awaits r.ctx.core =
      (({ (s.core r.ctx.core).unack with load := (s.core r.ctx.core).unack.load - 1 } : Unack).acked r, (s.core r.ctx.core).pend,
        if (s.core r.ctx.core).atomWait = some r.id then none else (s.core r.ctx.core).atomWait) := by
  let u := s.completeAt r.ctx r.k r.slot [(old, side)]
  have hu : u.awaits = s.awaits := completeAt_awaits ..
  have hl := lowerLoad_awaits_same u r
  rw [unack_of_awaits hu, pend_of_awaits hu, atomWait_of_awaits hu] at hl
  obtain ⟨hunack, hpend, hwait⟩ := awaits_eq_iff.1 hl
  have hst := lowerStore_awaits_same (u.lowerLoad r) r
  rw [hunack, hpend, hwait] at hst
  obtain ⟨hunack', hpend', hwait'⟩ := awaits_eq_iff.1 hst
  rw [awaits_eq_iff, State.atomicDone, modCore_core_same]
  exact ⟨hunack', hpend', by rw [hwait']⟩

end

/-! ### Responses (R126, R241 to R246) -/

section
variable {s : State} {k : Nat} {p : Packet} {r : Req}

theorem exec_loadCompletion : exec (.loadCompletion k) s = .next (loadCompletion k s) := rfl
theorem exec_atomicCompletion : exec (.atomicCompletion k) s = .next (atomicCompletion k s) := rfl
theorem exec_storeAcknowledgement : exec (.storeAcknowledgement k) s = .next (storeAcknowledgement k s) := rfl
theorem exec_hostResponse {data : List Byte} : exec (.hostResponse k data) s = .next (hostResponse k data s) := rfl

/-- A load's response left the network, and a clean line came into the read-only cache (R103, R243). -/
def State.filled (s : State) (k : Nat) (r : Req) (bytes sides : List Byte) : State :=
  (s.dropPkt k).modCluster (clusterOf r.ctx.core) (fun c =>
    if r.fill = 0 ∨ sides.any (fun b => b != 0) = true then c else c.install r.fill r.pa bytes)

theorem loadCompletion_of_recv {bytes sides : List Byte} (hp : s.recv k = some p) (hm : p.msg = .loadResp r bytes sides) :
    loadCompletion k s = if s.canComplete r.ctx then (s.filled k r bytes sides).partDone r (respBytes r bytes sides).1
      (respBytes r bytes sides).2 false else s := by
  obtain ⟨src, dst, cls, tenant, msg, held⟩ := p
  subst hm
  simp only [loadCompletion, hp]
  rfl

theorem atomicCompletion_of_recv {old : Word} {side : Byte} (hp : s.recv k = some p) (hm : p.msg = .atomResp r old side) :
    atomicCompletion k s = if s.canComplete r.ctx then (s.dropPkt k).atomicDone r old side else s := by
  obtain ⟨src, dst, cls, tenant, msg, held⟩ := p
  subst hm
  simp only [atomicCompletion, hp]

theorem storeAcknowledgement_of_recv (hp : s.recv k = some p) (hm : p.msg = .ack r) :
    storeAcknowledgement k s = (s.dropPkt k).lowerStore r := by
  obtain ⟨src, dst, cls, tenant, msg, held⟩ := p
  subst hm
  simp only [storeAcknowledgement, hp]

/-! ### Refusals (R370, R392) -/

/-- A refusal left the network and is recorded, unless a part of the same load was (R392). -/
def State.refused (s : State) (k : Nat) (r : Req) (cls code : Nat) : State :=
  if (s.core r.ctx.core).pend.any (fun q => q.id == r.id && q.failed) then s.dropPkt k else (s.dropPkt k).recordRefusal r cls code

section
variable {cls code : Nat} (hp : s.recv k = some p) (hm : p.msg = .refuse r cls code)
include hp hm

theorem refusalAcknowledgement_of_store (hk : r.kind = .st ∨ r.kind = .pst ∨ r.kind = .stt) :
    refusalAcknowledgement k s = (s.refused k r cls code).lowerStore r := by
  obtain ⟨src, dst, c, tenant, msg, held⟩ := p
  subst hm
  rcases hk with hk | hk | hk <;> simp only [refusalAcknowledgement, hp, hk] <;> rfl

theorem refusalAcknowledgement_of_atomic {op : Nat} {x y : Word} {sc : Scope} (hk : r.kind = .atomic op x y sc)
    (hc : s.canComplete r.ctx = true) : refusalAcknowledgement k s = (s.refused k r cls code).atomicDone r 0 0x10 := by
  obtain ⟨src, dst, c, tenant, msg, held⟩ := p
  subst hm
  simp only [refusalAcknowledgement, hp, hk, hc]
  rfl

theorem refusalAcknowledgement_of_load (hk : r.kind = .lds ∨ r.kind = .ldro) (hc : s.canComplete r.ctx = true)
    (hq : (s.core r.ctx.core).pend.any (fun q => q.id == r.id) = true) :
    refusalAcknowledgement k s = (s.refused k r cls code).partDone r [] [] true := by
  obtain ⟨src, dst, c, tenant, msg, held⟩ := p
  subst hm
  rcases hk with hk | hk <;> simp only [refusalAcknowledgement, hp, hk, hc, hq] <;> rfl

end

/-! ### The host's operations (R334, R335) -/

section
variable {data : List Byte} {pa : Nat}

theorem hostResponse_of_pkt (hp : s.pkt k = some p) (hd : p.dst = .host) (hh : p.held = false) (ha : p.msg.hostPa = some pa) :
    hostResponse k data s = if s.hostFirst k pa then (s.dropPkt k).hostPerforms p.msg data else s := by
  obtain ⟨src, dst, cls, tenant, msg, held⟩ := p
  subst hd hh
  simp only [hostResponse, hp, show msg.hostPa = some pa from ha]

/-- The bytes that the host gives to an operation of as many. -/
theorem take_append_replicate {n : Nat} (h : data.length = n) : (data ++ List.replicate n 0).take n = data := by
  rw [← h, List.take_left]

theorem hostPerforms_of_lds (hk : r.kind = .lds) (hl : data.length = r.size) : s.hostPerforms (.access r) data =
    (s.postRead r.pa r.size).sendResp .host r (.loadResp r data (List.replicate (max 1 (r.size / 8)) 0)) := by
  simp only [State.hostPerforms, if_pos hk, take_append_replicate hl]

theorem hostPerforms_of_store (hk : r.kind ≠ .lds) : s.hostPerforms (.access r) data =
    (s.postWrite r.pa (leBytes r.size r.data.toNat)).sendResp .host r (.ack r) := by
  simp only [State.hostPerforms, if_neg hk]

theorem hostPerforms_copyRead {q : JobQueue} {id n : Nat} (hl : data.length = n) : s.hostPerforms (.copyRead q id pa n) data =
    (s.postRead pa n).modJob q id (fun j =>
      { j with hostIn := j.hostIn ++ [(pa, data)], hostOut := j.hostOut.erase pa, progress := s.cycle }) := by
  simp only [State.hostPerforms, take_append_replicate hl]

end

end

/-! ### The obligation -/

section
variable {s : State} {k : Nat} {p : Packet} {r : Req} (hp : s.recv k = some p)
include hp

/-- An acknowledged store lowers the fields of its scopes and no other, and a PST its frame's count. -/
theorem storeAcknowledgement_counts (hm : p.msg = .ack r) :
    let fr := (s.core r.ctx.core).frame r.ctx.frame
    let t := storeAcknowledgement k s
    (t.core r.ctx.core).unack = (s.core r.ctx.core).unack.acked r ∧
      (r.kind = .pst → fr.state ≠ .free → fr.gen = r.ctx.gen → ((t.core r.ctx.core).frame r.ctx.frame).npst = fr.npst - 1) ∧
      (r.kind ≠ .pst → t.mem = s.mem ∧ t.net = s.net.eraseIdx k) := by
  intro fr t
  have ht : t = (s.dropPkt k).lowerStore r := storeAcknowledgement_of_recv hp hm
  rw [ht]
  exact ⟨(awaits_eq_iff.1 (lowerStore_awaits_same _ _)).1, lowerStore_npst (s := s.dropPkt k), lowerStore_of_not_pst⟩

/-- A part of a load lowers LOAD exactly where it is the last. -/
theorem loadCompletion_counts {bytes sides : List Byte} {q : Pending} (hm : p.msg = .loadResp r bytes sides)
    (hc : s.canComplete r.ctx = true) (hq : (s.core r.ctx.core).pend.find? (fun e => e.id == r.id) = some q) :
    let u := (s.core r.ctx.core).unack
    let t := loadCompletion k s
    (q.parts ≤ 1 → (t.core r.ctx.core).unack = { u with load := u.load - 1 } ∧
      (t.core r.ctx.core).pend.all (fun e => e.id != r.id) = true) ∧
    (1 < q.parts → (t.core r.ctx.core).unack = u ∧ (t.core r.ctx.core).pend.any (fun e => e.id == r.id) = true ∧ t.mem = s.mem) := by
  intro u t
  have ht : t = _ := (loadCompletion_of_recv hp hm).trans (if_pos hc)
  rw [ht]
  exact ⟨partDone_last_awaits hq, partDone_more_awaits hq⟩

theorem atomicCompletion_counts {old : Word} {side : Byte} (hm : p.msg = .atomResp r old side) (hc : s.canComplete r.ctx = true) :
    (atomicCompletion k s).awaits r.ctx.core =
      (({ (s.core r.ctx.core).unack with load := (s.core r.ctx.core).unack.load - 1 } : Unack).acked r, (s.core r.ctx.core).pend,
        if (s.core r.ctx.core).atomWait = some r.id then none else (s.core r.ctx.core).atomWait) := by
  rw [(atomicCompletion_of_recv hp hm).trans (if_pos hc)]
  exact atomicDone_awaits ..

end

/-- Settles O39: each response by what it does to its request, the host's operations in their turn, and the counts of UNACK from
what a completion at a frame leaves of the cores. -/
theorem responsesCompleteRequests : Obligations.ResponsesCompleteRequests := by
  unfold Obligations.ResponsesCompleteRequests
  refine ⟨fun s k p r bytes sides data old side cls code => ?_, fun s k p r bytes sides old side => ?_⟩
  · intro d told e
    simp only [exec_loadCompletion, exec_atomicCompletion, exec_storeAcknowledgement, exec_refusalAcknowledgement,
      exec_hostResponse, Host.Outcome.next.injEq]
    refine ⟨fun hp => ⟨fun hm hc => ?_, fun hm hc => ?_, fun hm hc => ?_, fun hm hc => ?_, storeAcknowledgement_of_recv hp,
      refusalAcknowledgement_of_store hp, fun op x y sc hm => refusalAcknowledgement_of_atomic hp hm,
      refusalAcknowledgement_of_load hp⟩, fun hp hd hh => ?_⟩
    · rw [loadCompletion_of_recv hp hm, if_neg (Bool.eq_false_iff.1 hc)]
    · have e := (loadCompletion_of_recv hp hm).trans (if_pos hc)
      refine ⟨fun hk => ?_, fun hk => ?_⟩
      · rw [e, respBytes, if_neg hk]
        rfl
      · rw [e, respBytes, if_pos hk]
        rfl
    · rw [atomicCompletion_of_recv hp hm, if_neg (Bool.eq_false_iff.1 hc)]
    · rw [atomicCompletion_of_recv hp hm, if_pos hc]
    · have performs {m : Msg} {pa : Nat} (hm : p.msg = m) (ha : m.hostPa = some pa) (hf : s.hostFirst k pa = true) :
          hostResponse k data s = d.hostPerforms m data := by
        rw [hostResponse_of_pkt hp hd hh (hm ▸ ha), if_pos hf, hm]
      refine ⟨fun hm hf => ⟨fun hk hl => ?_, fun hk => ?_⟩, fun jq id pa n hm hf hl => ?_, fun jq id pa bs hm hf => ?_,
        fun pa ha hf => ?_⟩
      · exact (performs hm rfl hf).trans (hostPerforms_of_lds hk hl)
      · exact (performs hm rfl hf).trans (hostPerforms_of_store hk)
      · exact (performs hm rfl hf).trans (hostPerforms_copyRead hl)
      · exact performs hm rfl hf
      · rw [hostResponse_of_pkt hp hd hh ha, if_neg (Bool.eq_false_iff.1 hf)]
  · intro c u fr left fell hp
    have hfell {v : Unack} (u' : Unack) (hu : (u'.clus, u'.die, u'.pkg, u'.sys) = (u.clus, u.die, u.pkg, u.sys))
        (h : v = u'.acked r) : fell v := by
      simp only [Prod.mk.injEq] at hu
      obtain ⟨h0, h1, h2, h3⟩ := hu
      subst h
      exact ⟨congrArg (left · 0) h0, congrArg (left · 1) h1, congrArg (left · 2) h2, congrArg (left · 3) h3⟩
    refine ⟨fun hm => ?_, fun q hm hc hq => ⟨_, rfl, loadCompletion_counts hp hm hc hq⟩, fun hm hc => ?_⟩
    · obtain ⟨hu, hpst, hother⟩ := storeAcknowledgement_counts hp hm
      exact ⟨_, rfl, hfell u rfl hu, (congrArg Unack.load hu).trans rfl, hpst, hother⟩
    · obtain ⟨hu, -, hwait⟩ := awaits_eq_iff.1 (atomicCompletion_counts hp hm hc)
      exact ⟨_, rfl, hfell { u with load := u.load - 1 } rfl hu, (congrArg Unack.load hu).trans rfl, hwait⟩

end Sys2Proof.Machine


/-! The steward's commands where they arrive: PLACE, CODESEAL and CFGLD (R143, R179, R230 to R232, R372, R382, R383; log 65). -/

namespace Sys2Proof.Machine

/-! ### Arrivals (R143, R231, R232) -/

section
variable {s : State} {k core : Nat} {p : Packet} {d : Vec}

theorem exec_placeArrival : exec (.placeArrival k) s = .next (placeArrival k s) := rfl
theorem exec_codesealScan : exec (.codesealScan k) s = .next (codesealScan k s) := rfl
theorem exec_cfgldCompletion : exec (.cfgldCompletion k) s = .next (cfgldCompletion k s) := rfl

theorem placeArrival_of_recv (hp : s.recv k = some p) (hd : p.dst = .core core) (hm : p.msg = .place d) :
    placeArrival k s = (s.dropPkt k).modCore core (fun c => { c with place := placeAll d c.place }) := by
  obtain ⟨src, dst, cls, tenant, msg, held⟩ := p
  subst hd hm
  simp only [placeArrival, hp]

/-! ### CODESEAL (R143, R230) -/

/-- What the scanner finds in the range of a CODESEAL: a range or field that is not legal counts as a bad word 0 (R230). -/
def State.sealScan (s : State) (core : Nat) (d : Vec) : Option (Nat × Nat) :=
  if sealOk d then s.scanCode core ((fieldN d 20 4 - fieldN d 16 4 + 1) * 1024) (fieldN d 16 4 * 1024) else some (0, 0x0A)

/-- A core's seals after a CODESEAL: a legal one sets or clears those of its range. -/
def CoreSt.sealRange (c : CoreSt) (d : Vec) (r : Option (Nat × Nat)) : CoreSt :=
  if sealOk d then { c with sealed := if r.isNone then c.sealed ||| sealMask d else c.sealed &&& ~~~(sealMask d) } else c

theorem codesealScan_of_recv {n : Nat} (hp : s.recv k = some p) (hd : p.dst = .core core) (hm : p.msg = .sealCmd d n) :
    codesealScan k s = if s.codeStoresOut p.src core n then s else
      ((s.dropPkt k).modCore core (fun c => c.sealRange d (s.sealScan core d))).report (.core core) p.tenant
        (BitVec.ofNat 32 (fieldN d 64 32)) (fieldN d 96 6) (fieldN d 102 9) (sealReport (s.sealScan core d)) := by
  obtain ⟨src, dst, cls, tenant, msg, held⟩ := p
  subst hd hm
  simp only [codesealScan, hp]
  rfl

section
variable {n : Nat} (hp : s.recv k = some p) (hd : p.dst = .core core) (hm : p.msg = .sealCmd d n)
include hp hd hm

theorem codesealScan_of_stores (hs : s.codeStoresOut p.src core n = true) : codesealScan k s = s := by
  rw [codesealScan_of_recv hp hd hm, if_pos hs]

theorem codesealScan_of_ready (hs : s.codeStoresOut p.src core n = false) : codesealScan k s =
    ((s.dropPkt k).modCore core (fun c => c.sealRange d (s.sealScan core d))).report (.core core) p.tenant
      (BitVec.ofNat 32 (fieldN d 64 32)) (fieldN d 96 6) (fieldN d 102 9) (sealReport (s.sealScan core d)) := by
  rw [codesealScan_of_recv hp hd hm, if_neg (Bool.eq_false_iff.1 hs)]

end

/-! ### CFGLD (R232, R382, R383) -/

section
variable {st : Nat} (hp : s.recv k = some p) (hd : p.dst = .core core) (hm : p.msg = .cfgld d) (hs : p.src = .core st)
include hp hd hm hs

theorem cfgldCompletion_of_unload (hn : fieldN d 64 32 = 0) :
    cfgldCompletion k s = ((s.dropPkt k).modCore core CoreSt.unload).unloadDone core p.tenant d := by
  obtain ⟨src, dst, cls, tenant, msg, held⟩ := p
  subst hd hm hs
  simp only [cfgldCompletion, hp, hn, Nat.mul_zero, if_true]

section
variable {bs : List (Byte × Byte)} (hn : fieldN d 64 32 ≠ 0)
  (hr : s.readEngine st (s.core st).asid false (va48 d 16) (4 * fieldN d 64 32) = .ok bs)
include hn hr

/-- The section that a CFGLD reads, applied to its core (R232, R382). -/
def State.sectionApplied (s : State) (k core st : Nat) (d : Vec) (bs : List (Byte × Byte)) : Cfg :=
  ((s.dropPkt k).touchRange st (s.core st).asid (va48 d 16) (4 * fieldN d 64 32)).configure core d (bs.map (·.1))

theorem cfgldCompletion_of_legal (hb : (s.sectionApplied k core st d bs).bad = none) : cfgldCompletion k s =
    ((((s.sectionApplied k core st d bs).s.modCore core (fun c => { c with cfg := .loaded })).jobFields core).setCredits core).cfgDone
      core p.tenant d 1 := by
  obtain ⟨src, dst, cls, tenant, msg, held⟩ := p
  subst hd hm hs
  have hne : ¬ 4 * fieldN d 64 32 = 0 := by omega
  rw [State.sectionApplied] at hb
  simp only [cfgldCompletion, hp, if_neg hne, hr, hb]
  rfl

theorem cfgldCompletion_of_illegal {x : Nat × Nat} (hb : (s.sectionApplied k core st d bs).bad = some x) : cfgldCompletion k s =
    ((s.sectionApplied k core st d bs).s.modCore core (fun c => { c with cfg := .blocked })).cfgDone core p.tenant d
      (BitVec.ofNat 64 (2 + x.2 % 2 ^ 24 * 2 ^ 8 + x.1 * 2 ^ 32)) := by
  obtain ⟨src, dst, cls, tenant, msg, held⟩ := p
  subst hd hm hs
  have hne : ¬ 4 * fieldN d 64 32 = 0 := by omega
  rw [State.sectionApplied] at hb
  simp only [cfgldCompletion, hp, if_neg hne, hr, hb]
  rfl

end

end

end

/-- Settles O45: each command by what its arrival does, a CODESEAL by what the scanner finds, and a CFGLD by what it reads. -/
theorem stewardCommandsArrive : Obligations.StewardCommandsArrive := by
  unfold Obligations.StewardCommandsArrive
  intro s k core p d hp hd u
  simp only [exec_placeArrival, exec_codesealScan, exec_cfgldCompletion, Host.Outcome.next.injEq]
  refine ⟨fun hm => placeArrival_of_recv hp hd hm, fun n hm hs => codesealScan_of_stores hp hd hm hs, fun n hm hs hok => ?_,
    fun n hm hs hok => ?_, fun st hm hst => ⟨fun hn => cfgldCompletion_of_unload hp hd hm hst hn, fun bs hn hr => ?_⟩⟩
  · have hscan : s.sealScan core d = s.scanCode core _ _ := if_pos hok
    have e := codesealScan_of_ready hp hd hm hs
    simp only [CoreSt.sealRange, if_pos hok, hscan] at e
    refine ⟨fun hn => ?_, fun a r hr => ?_⟩
    · rw [e, hn]
      rfl
    · rw [e, hr]
      rfl
  · have hscan : s.sealScan core d = some (0, 0x0A) := if_neg (Bool.eq_false_iff.1 hok)
    refine ⟨u.modCore core (fun c => c.sealRange d (s.sealScan core d)), ?_, ?_, rfl, rfl⟩
    · rw [codesealScan_of_ready hp hd hm hs, hscan]
      rfl
    · rw [modCore_core_same, CoreSt.sealRange, if_neg (Bool.eq_false_iff.1 hok)]
      rfl
  · exact ⟨cfgldCompletion_of_legal hp hd hm hst hn hr, fun r => cfgldCompletion_of_illegal hp hd hm hst hn hr⟩

end Sys2Proof.Machine


/-! What comes from outside: RDMA operations and the attestation flow (R141, R333, R336, R343, R344, R380, R434; logs 19 and 52). -/

namespace Sys2Proof.Machine

/-! ### RDMA (R141, R333, R336, R380, R434) -/

section
variable {s : State} {qpn rkey asid va len : Nat} {data : List Byte} {p : BitVec 128}

theorem exec_rdmaWrite : exec (.rdmaWrite ⟨qpn, rkey⟩ va data) s = .next (rdmaWrite qpn rkey va data s) := rfl
theorem exec_rdmaRead : exec (.rdmaRead ⟨qpn, rkey⟩ va len) s = .next (rdmaRead qpn rkey va len s) := rfl
theorem exec_rdmaSend : exec (.rdmaSend qpn p) s = .next (rdmaSend qpn p s) := rfl

theorem rdmaUp_iff : s.rdmaUp = true ↔ s.ports ≠ [] ∧ s.start.minimal = false := by
  simp [State.rdmaUp]

section
variable (h : s.rdmaUp = false)
include h

theorem rdmaWrite_of_down : rdmaWrite qpn rkey va data s = s := if_pos h
theorem rdmaRead_of_down : rdmaRead qpn rkey va len s = s := if_pos h
theorem rdmaSend_of_down : rdmaSend qpn p s = s := if_pos h

end

section
variable (h : s.rdmaUp = true)
include h

theorem rdmaWrite_of_no_key (hk : s.keyAsid qpn rkey va data.length = none) :
    rdmaWrite qpn rkey va data s = s.emitOut (.nak 0x02) := by
  simp only [rdmaWrite, h, hk]
  rfl

/-- A WRITE under a key that grants its range waits for a PUBL, or writes its lines. -/
theorem rdmaWrite_of_key (hk : s.keyAsid qpn rkey va data.length = some asid) : rdmaWrite qpn rkey va data s =
    if (lineSpans (BitVec.ofNat 64 va) data.length).any (fun e => s.publHolds (s.rdmaDie asid) asid e.1) then s
    else s.rdmaLines asid data (lineSpans (BitVec.ofNat 64 va) data.length) := by
  simp only [rdmaWrite, h, hk]
  rfl

theorem rdmaRead_of_no_key (hk : s.keyAsid qpn rkey va len = none) : rdmaRead qpn rkey va len s = s.emitOut (.nak 0x02) := by
  simp only [rdmaRead, h, hk]
  rfl

theorem rdmaRead_of_no_bytes (hk : s.keyAsid qpn rkey va len = some asid) (hb : s.rdmaBytes asid va len = none) :
    rdmaRead qpn rkey va len s = s.emitOut (.nak 0x02) := by
  simp only [rdmaRead, h, hk, hb]
  rfl

theorem rdmaRead_of_bytes {bs : List (Byte × Byte)} (hk : s.keyAsid qpn rkey va len = some asid)
    (hb : s.rdmaBytes asid va len = some bs) : rdmaRead qpn rkey va len s =
      (s.touchRange (stewardOf (s.rdmaDie asid)) asid (BitVec.ofNat 64 va) len).emitOut (.readData (bs.map (·.1))) := by
  simp only [rdmaRead, h, hk, hb]
  rfl

theorem rdmaSend_of_no_qp (hq : s.qpAsid qpn = none) : rdmaSend qpn p s = s.emitOut (.nak 0x02) := by
  simp only [rdmaSend, h, hq]
  rfl

end

/-- The destination word of a SEND is the low half of its first 8 bytes. -/
theorem ofNat_fieldN_low (p : BitVec 128) : BitVec.ofNat 32 (fieldN p 0 32) = p.setWidth 32 := by
  apply BitVec.eq_of_toNat_eq
  simp [fieldN]

/-- A packet that a SEND of an address space puts into the network. -/
def rdmaPacket (asid : Nat) (a : Agent) (m : Msg) : Packet :=
  { src := .host, dst := a, cls := .token, tenant := asid, msg := m, held := false }

section
variable (h : s.rdmaUp = true) (hq : s.qpAsid qpn = some asid)
include h hq

/-- A SEND to a frame handle. -/
theorem rdmaSend_of_handle (hb : p.getLsbD 0 = true) : rdmaSend qpn p s =
    (s.send (rdmaPacket asid (.core (handleCore (p.setWidth 32))) (.frame (.handle (p.setWidth 32)) (fieldN p 32 6) (fieldN p 38 9)
      1 8 (BitVec.ofNat 512 (fieldN p 64 64)) 0 0 false))).emitOut .done := by
  have hbit : (p.setWidth 32).getLsbD 0 = true := by simpa using hb
  simp only [rdmaSend, h, hq, ofNat_fieldN_low, hbit]
  rfl

theorem rdmaSend_of_unplaced (hb : p.getLsbD 0 = false)
    (hr : s.resolve (stewardOf (s.rdmaDie asid)) (fieldN (p.setWidth 32) 3 20) = none) :
    rdmaSend qpn p s = s.emitOut (.nak 0x02) := by
  have hbit : (p.setWidth 32).getLsbD 0 = false := by simpa using hb
  simp only [rdmaSend, h, hq, ofNat_fieldN_low, hbit, hr]
  rfl

/-- A SEND to a channel, by the placement table of the die's steward. -/
theorem rdmaSend_of_placed {a : Agent} (hb : p.getLsbD 0 = false)
    (hr : s.resolve (stewardOf (s.rdmaDie asid)) (fieldN (p.setWidth 32) 3 20) = some a) : rdmaSend qpn p s =
      (s.send (rdmaPacket asid a (.chan (fieldN (p.setWidth 32) 3 20) (fieldN (p.setWidth 32) 1 2)
        { kind := .data, side := 0, colour := 0, vec := false, data := BitVec.ofNat 512 (fieldN p 64 64) }))).emitOut .done := by
  have hbit : (p.setWidth 32).getLsbD 0 = false := by simpa using hb
  simp only [rdmaSend, h, hq, ofNat_fieldN_low, hbit, hr]
  rfl

end

/-! ### The lines of a WRITE (R336, R380) -/

section
variable {a : Word} {n : Nat} {l : List (Word × Nat)}

theorem rdmaLines_of_unplaced (hp : s.rdmaPlace asid true a = none) :
    s.rdmaLines asid data ((a, n) :: l) = s.emitOut (.nak 0x02) := by
  simp only [State.rdmaLines, hp]
  rfl

/-- A line at its home is refused over an armed word, or is written and the next one follows. -/
theorem rdmaLines_of_placed {pa key : Nat} (hp : s.rdmaPlace asid true a = some (pa, key)) :
    s.rdmaLines asid data ((a, n) :: l) = if s.syncHit pa n then s.emitOut (.nak 0x02) else
      ((s.writeEngine key pa ((data.take n).map (fun b => (b, 0)))).touchPage (stewardOf (s.rdmaDie asid)) asid true a).rdmaLines asid
        (data.drop n) l := by
  simp only [State.rdmaLines, hp]
  rfl

end

end

/-! ### Attestation (R343, R344) -/

section
variable {s : State} {inTurn : Bool} {f : State → State}

theorem spdmAnswer_of_down (h : s.ports.contains 0 = false) : s.spdmAnswer inTurn f = s := if_pos h

theorem spdmAnswer_of_turn (h : s.ports.contains 0 = true) : s.spdmAnswer true f = f s := if_neg (ne_of_eq_of_ne h (by decide))

theorem spdmAnswer_of_no_turn (h : s.ports.contains 0 = true) (ht : inTurn = false) :
    s.spdmAnswer inTurn f = s.emitOut (.spdm 0x7F [0x04]) := by
  subst ht
  exact if_neg (ne_of_eq_of_ne h (by decide))

theorem signedOut_of_leaf {code : Nat} {body : List Byte} (h : s.boot.leaf < 1048576) : s.signedOut code body =
    { s with boot := { s.boot with leaf := s.boot.leaf + 1 } }.emitOut (.spdm code (body ++ lmsSign s.boot.leaf body)) :=
  if_neg (Nat.not_le.2 h)

theorem signedOut_of_no_leaf {code : Nat} {body : List Byte} (h : 1048576 ≤ s.boot.leaf) :
    s.signedOut code body = s.emitOut (.spdm 0x7F [0x05]) := if_pos h

end

section
variable {s : State} {ofs len : Nat} {nonce : Rec} {signed : Bool}

theorem exec_getVersion : exec .getVersion s = .next (getVersion s) := rfl
theorem exec_getCapabilities : exec .getCapabilities s = .next (getCapabilities s) := rfl
theorem exec_negotiateAlgorithms : exec .negotiateAlgorithms s = .next (negotiateAlgorithms s) := rfl
theorem exec_getCertificate : exec (.getCertificate ofs len) s = .next (getCertificate ofs len s) := rfl
theorem exec_challenge : exec (.challenge nonce) s = .next (challenge nonce s) := rfl
theorem exec_getMeasurements : exec (.getMeasurements nonce signed) s = .next (getMeasurements nonce signed s) := rfl

section
variable (h : s.ports.contains 0 = true)
include h

theorem getVersion_of_up : getVersion s = { s with spdm := 1 }.emitOut (.spdm 0x04 [1, 0x00, 0x12]) := spdmAnswer_of_turn h

theorem getCapabilities_of_turn (ht : s.spdm = 1) :
    getCapabilities s = { s with spdm := 2 }.emitOut (.spdm 0x61 (Config.spdmBody 0x61)) := by
  rw [getCapabilities, ht]
  exact spdmAnswer_of_turn h

theorem negotiateAlgorithms_of_turn (ht : s.spdm = 2) :
    negotiateAlgorithms s = { s with spdm := 3 }.emitOut (.spdm 0x63 (Config.spdmBody 0x63)) := by
  rw [negotiateAlgorithms, ht]
  exact spdmAnswer_of_turn h

variable (ht : s.spdm = 3)
include ht

theorem getCertificate_of_turn : getCertificate ofs len s =
    s.emitOut (.spdm 0x02 ((List.range len).map (fun j => Config.certificateByte (ofs + j)))) := by
  rw [getCertificate, ht]
  exact spdmAnswer_of_turn h

theorem challenge_of_turn : challenge nonce s = s.signedOut 0x03 (nonceBytes nonce ++ sha256 s.measurements) := by
  rw [challenge, ht]
  exact spdmAnswer_of_turn h

theorem getMeasurements_of_plain : getMeasurements nonce false s = s.emitOut (.spdm 0x60 s.measurements) := by
  rw [getMeasurements, ht]
  exact spdmAnswer_of_turn h

theorem getMeasurements_of_signed : getMeasurements nonce true s = s.signedOut 0x60 (s.measurements ++ nonceBytes nonce) := by
  rw [getMeasurements, ht]
  exact (spdmAnswer_of_turn h).trans (if_pos rfl)

end

end

/-- Settles O46: each RDMA operation by what it finds in its tables, and each message of the flow by its turn. -/
theorem outsideOperationsAnswer : Obligations.OutsideOperationsAnswer := by
  unfold Obligations.OutsideOperationsAnswer
  intro s qpn rkey asid va len ofs data p nonce out err spans
  simp only [exec_rdmaWrite, exec_rdmaRead, exec_rdmaSend, Host.Outcome.next.injEq]
  refine ⟨rdmaUp_iff, fun h => ⟨rdmaWrite_of_down h, rdmaRead_of_down h, rdmaSend_of_down h⟩,
    fun h => ⟨rdmaWrite_of_no_key h, rdmaRead_of_no_key h, rdmaSend_of_no_qp h, fun hk => ?_, fun hk => ?_, fun hq => ?_⟩, rfl,
    fun a n l => ⟨rdmaLines_of_unplaced, fun pa key hp => ?_⟩, fun h => ?_, fun h => ?_⟩
  · rw [rdmaWrite_of_key h hk]
    exact ⟨fun hh => if_pos hh, fun hh => if_neg (Bool.eq_false_iff.1 hh)⟩
  · exact ⟨fun bs hb => rdmaRead_of_bytes h hk hb, rdmaRead_of_no_bytes h hk⟩
  · exact ⟨rdmaSend_of_handle h hq, fun hb => ⟨rdmaSend_of_unplaced h hq hb, fun a => rdmaSend_of_placed h hq hb⟩⟩
  · rw [rdmaLines_of_placed hp]
    exact ⟨fun hs => if_pos hs, fun hs => if_neg (Bool.eq_false_iff.1 hs)⟩
  · simp only [List.forall_mem_cons, List.not_mem_nil, false_imp_iff, implies_true, and_true, exec_getVersion, exec_getCapabilities,
      exec_negotiateAlgorithms, exec_getCertificate, exec_challenge, exec_getMeasurements, Host.Outcome.next.injEq]
    have silent {inTurn : Bool} {f : State → State} : s.spdmAnswer inTurn f = s := spdmAnswer_of_down h
    exact ⟨silent, silent, silent, silent, silent, silent, silent⟩
  · simp only [exec_getVersion, exec_getCapabilities, exec_negotiateAlgorithms, exec_getCertificate, exec_challenge,
      exec_getMeasurements, Host.Outcome.next.injEq]
    have refuses {inTurn : Bool} {f : State → State} : inTurn = false → s.spdmAnswer inTurn f = out s err := spdmAnswer_of_no_turn h
    refine ⟨getVersion_of_up h, getCapabilities_of_turn h, fun ht => refuses (beq_eq_false_iff_ne.2 ht),
      negotiateAlgorithms_of_turn h, fun ht => refuses (beq_eq_false_iff_ne.2 ht), fun ht => ?_, fun ht => ?_⟩
    · have hb : (s.spdm == 3) = false := beq_eq_false_iff_ne.2 ht
      exact ⟨refuses hb, refuses hb, refuses hb, refuses hb⟩
    · refine ⟨getCertificate_of_turn h ht, getMeasurements_of_plain h ht, fun hl => ⟨?_, ?_⟩, fun hl => ⟨?_, ?_⟩⟩
      · exact (challenge_of_turn h ht).trans (signedOut_of_leaf hl)
      · exact (getMeasurements_of_signed h ht).trans (signedOut_of_leaf hl)
      · exact (challenge_of_turn h ht).trans (signedOut_of_no_leaf hl)
      · exact (getMeasurements_of_signed h ht).trans (signedOut_of_no_leaf hl)

end Sys2Proof.Machine


/-! Integer lanes: how VINT applies an operation to each lane, and the range of each integer type (R157, R251). -/

namespace Sys2Proof.Machine

/-! ### The range of an integer type (R157) -/

/-- The least integer of a type. -/
def itMin (ty : IType) : Int := if ty = .ub then 0 else -(2 ^ (itBits ty - 1) : Nat)

/-- The greatest integer of a type. -/
def itMax (ty : IType) : Int := if ty = .ub then (2 ^ itBits ty : Nat) - 1 else (2 ^ (itBits ty - 1) : Nat) - 1

theorem itSigned_iff {ty : IType} : itSigned ty = true ↔ ty ≠ .ub := by
  cases ty <;> simp [itSigned]

/-- The bounds of `itLane`, which asks whether the type is signed, are the least and the greatest integer of the type. -/
theorem itLane_true (ty : IType) (z : Int) : itLane ty true z =
    if z < itMin ty then ((itMin ty % (2 ^ itBits ty : Nat)).toNat, flOF)
    else if itMax ty < z then ((itMax ty).toNat, flOF)
    else ((z % (2 ^ itBits ty : Nat)).toNat, 0) := by
  simp only [itLane, itSigned_iff, ne_eq, ite_not, if_true]
  rfl

theorem itLane_false (ty : IType) (z : Int) : itLane ty false z = ((z % (2 ^ itBits ty : Nat)).toNat, 0) := rfl

/-- A lane is clamped where SAT is set and the integer is out of range, and wraps otherwise. -/
theorem itLane_eq (ty : IType) (sat : Bool) (z : Int) : itLane ty sat z =
    if sat = true ∧ z < itMin ty then ((itMin ty % (2 ^ itBits ty : Nat)).toNat, flOF)
    else if sat = true ∧ itMax ty < z then ((itMax ty).toNat, flOF)
    else ((z % (2 ^ itBits ty : Nat)).toNat, 0) := by
  cases sat with
  | false => simp [itLane_false]
  | true => simp only [itLane_true, true_and]

/-! ### VINT (R251) -/

section
variable {ty : IType} {sat : Bool} {td ta tb : Temp} {s : State}

/-- A lane operation on two integer sources changes T[td] and the flags alone. -/
theorem vint_of_issues {f : Firing} {op : Nat → Nat → Nat × Byte} (h : s.Issues f false) : vint ty td ta tb op s =
    .next (s.ran (f.setLanes td (itBits ty) fun i => op (laneN (itBits ty) (f.t ta) i) (laneN (itBits ty) (f.t tb) i))) :=
  issue_onlyFiring _ s f h rfl

theorem exec_viadd : exec (.viadd ty sat td ta tb) s = vint ty td ta tb (fun a b => itLane ty sat (itVal ty a + itVal ty b)) s := rfl
theorem exec_visub : exec (.visub ty sat td ta tb) s = vint ty td ta tb (fun a b => itLane ty sat (itVal ty a - itVal ty b)) s := rfl
theorem exec_vimul : exec (.vimul ty sat td ta tb) s = vint ty td ta tb (fun a b => itLane ty sat (itVal ty a * itVal ty b)) s := rfl
theorem exec_vshl : exec (.vshl ty sat td ta tb) s =
    vint ty td ta tb (fun a b => itLane ty sat (itVal ty a * (2 ^ (b % itBits ty) : Nat))) s := rfl
theorem exec_vand : exec (.vand ty td ta tb) s = vint ty td ta tb (fun a b => (a &&& b, 0)) s := rfl
theorem exec_vor : exec (.vor ty td ta tb) s = vint ty td ta tb (fun a b => (a ||| b, 0)) s := rfl
theorem exec_vxor : exec (.vxor ty td ta tb) s = vint ty td ta tb (fun a b => (a ^^^ b, 0)) s := rfl
theorem exec_vshr : exec (.vshr ty td ta tb) s = vint ty td ta tb (fun a b => (a / 2 ^ (b % itBits ty), 0)) s := rfl

/-- VSRA never clamps: its lane is the shifted integer modulo 2^b. -/
theorem exec_vsra : exec (.vsra ty td ta tb) s = vint ty td ta tb (fun a b =>
    ((itVal ty a / (2 ^ (b % itBits ty) : Nat) % (2 ^ itBits ty : Nat)).toNat, 0)) s := rfl

end

/-- Settles O21: each operation of VINT is a lane operation, and the four that take SAT give the lane of their exact integer. -/
theorem vectorIntegersCompute : Obligations.VectorIntegersCompute := by
  unfold Obligations.VectorIntegersCompute
  intro s f ty sat td ta tb h w x y a b lo hi fit gives
  have hfit : fit = itLane ty sat := funext fun z => (itLane_eq ty sat z).symm
  rw [hfit]
  exact ⟨exec_viadd.trans (vint_of_issues h), exec_visub.trans (vint_of_issues h), exec_vimul.trans (vint_of_issues h),
    exec_vshl.trans (vint_of_issues h), exec_vand.trans (vint_of_issues h), exec_vor.trans (vint_of_issues h),
    exec_vxor.trans (vint_of_issues h), exec_vshr.trans (vint_of_issues h), exec_vsra.trans (vint_of_issues h)⟩

end Sys2Proof.Machine


/-! Encodings: the decoder reads back every word of a well-formed instruction, and accepts no other word (R176 to R183). -/

namespace Sys2Proof

-- One proof after another: side by side, this many short proofs hold more memory than the check grants.
set_option Elab.async false

/-! ### What each major's row reads of a packed word (R176, R182) -/

section
variable (r : RForm) (i : IForm) (x : XForm)

theorem decode_sys : decode (packR 0x00 r) = decodeSys r := by rw [decode, opOf_packR, unpackR_packR]; rfl
theorem decode_cont (f : WForm) : decode (packW 0x01 f) = .ok (.cont f.ld f.st f.cp f.tl f.sl) := by
  rw [decode, opOf_packW, unpackW_packW]; rfl
theorem decode_csr : decode (packI 0x02 i) = decodeCsr i := by rw [decode, opOf_packI, unpackI_packI]; rfl
theorem decode_li : decode (packI 0x03 i) = need (i.ta = 0) (.li i.td i.im) := by rw [decode, opOf_packI, unpackI_packI]; rfl
theorem decode_lih : decode (packI 0x04 i) = .ok (.lih i.td i.ta i.im) := by rw [decode, opOf_packI, unpackI_packI]; rfl
theorem decode_addi : decode (packI 0x05 i) = .ok (.addi i.td i.ta i.im) := by rw [decode, opOf_packI, unpackI_packI]; rfl
theorem decode_andi : decode (packI 0x06 i) = .ok (.andi i.td i.ta i.im) := by rw [decode, opOf_packI, unpackI_packI]; rfl
theorem decode_ori : decode (packI 0x07 i) = .ok (.ori i.td i.ta i.im) := by rw [decode, opOf_packI, unpackI_packI]; rfl
theorem decode_xori : decode (packI 0x08 i) = .ok (.xori i.td i.ta i.im) := by rw [decode, opOf_packI, unpackI_packI]; rfl
theorem decode_shi : decode (packI 0x09 i) = decodeShi i := by rw [decode, opOf_packI, unpackI_packI]; rfl
theorem decode_int : decode (packR 0x0A r) = decodeInt r := by rw [decode, opOf_packR, unpackR_packR]; rfl
theorem decode_br (f : BForm) : decode (packB 0x0B f) = decodeBr f := by rw [decode, opOf_packB, unpackB_packB]; rfl
theorem decode_jmpi : decode (packR 0x0C r) =
    if r.fn = 0 then need (r.td = 0 ∧ r.tb = 0 ∧ r.tc = 0 ∧ r.md = 0) (.jmpi r.ta) else .error .function := by
  rw [decode, opOf_packR, unpackR_packR]; rfl
theorem decode_frame (f : FForm) : decode (packF 0x0D f) = decodeFrame f := by rw [decode, opOf_packF, unpackF_packF]; rfl
theorem decode_frm : decode (packR 0x0E r) = decodeFrm r := by rw [decode, opOf_packR, unpackR_packR]; rfl
theorem decode_slot : decode (packR 0x0F r) = decodeSlot r := by rw [decode, opOf_packR, unpackR_packR]; rfl
theorem decode_tok (f : SForm) : decode (packS 0x10 f) = decodeTok f := by rw [decode, opOf_packS, unpackS_packS]; rfl
theorem decode_chn : decode (packR 0x11 r) = decodeChn r := by rw [decode, opOf_packR, unpackR_packR]; rfl
theorem decode_gen : decode (packR 0x12 r) = decodeGen r := by rw [decode, opOf_packR, unpackR_packR]; rfl
theorem decode_launch : decode (packR 0x13 r) = decodeCmd r [.launch] := by rw [decode, opOf_packR, unpackR_packR]; rfl
theorem decode_mem (f : MForm) : decode (packM 0x14 f) = decodeMem f := by rw [decode, opOf_packM, unpackM_packM]; rfl
theorem decode_lds {z : SplitSize} (h : decodeSplit x = .ok z) : decode (packX 0x15 x) = .ok (.lds z x.fw x.tb x.sl) := by
  rw [decode, opOf_packX, unpackX_packX]; simp [h]
theorem decode_ldro {z : SplitSize} (h : decodeSplit x = .ok z) : decode (packX 0x16 x) = .ok (.ldro z x.fw x.tb x.sl) := by
  rw [decode, opOf_packX, unpackX_packX]; simp [h]
theorem decode_amo : decode (packX 0x17 x) = decodeAmo x := by rw [decode, opOf_packX, unpackX_packX]; rfl
theorem decode_fence : decode (packR 0x18 r) = decodeFence r := by rw [decode, opOf_packR, unpackR_packR]; rfl
theorem decode_hoop : decode (packR 0x19 r) = decodeCmd r [.hpdef, .hpput, .hpwait] := by
  rw [decode, opOf_packR, unpackR_packR]; rfl
theorem decode_turn : decode (packR 0x1A r) = decodeCmd r [.turndef, .turngo] := by rw [decode, opOf_packR, unpackR_packR]; rfl
theorem decode_red : decode (packR 0x1B r) = decodeCmd r [.reddef, .redput] := by rw [decode, opOf_packR, unpackR_packR]; rfl
theorem decode_publ : decode (packR 0x1C r) = decodePubl r := by rw [decode, opOf_packR, unpackR_packR]; rfl
theorem decode_varith : decode (packR 0x1D r) = decodeVarith r := by rw [decode, opOf_packR, unpackR_packR]; rfl
theorem decode_vint : decode (packR 0x1E r) = decodeVint r := by rw [decode, opOf_packR, unpackR_packR]; rfl
theorem decode_vperm : decode (packR 0x1F r) = decodeVperm r := by rw [decode, opOf_packR, unpackR_packR]; rfl
theorem decode_vcvt : decode (packR 0x20 r) = decodeVcvt r := by rw [decode, opOf_packR, unpackR_packR]; rfl
theorem decode_tile : decode (packR 0x21 r) = decodeTile r := by rw [decode, opOf_packR, unpackR_packR]; rfl
theorem decode_press : decode (packR 0x22 r) =
    decodeCmd r [.mxfmt, .mxldw, .mxstrm, .mxgang, .mxrd, .mxepi, .mxclr, .mxscan] := by
  rw [decode, opOf_packR, unpackR_packR]; rfl
theorem decode_copy : decode (packR 0x23 r) = decodeCopy r := by rw [decode, opOf_packR, unpackR_packR]; rfl
theorem decode_ingest : decode (packR 0x24 r) = decodeIngest r := by rw [decode, opOf_packR, unpackR_packR]; rfl
theorem decode_priv : decode (packR 0x25 r) = decodePriv r := by rw [decode, opOf_packR, unpackR_packR]; rfl

end

/-! ### What well-formedness asks of an operand (R178, R180, R183) -/

section
variable {size : FrameSize} {z : SplitSize} {k : FWord} {t ta tb td : Temp} {sl : Slot} {r part : BitVec 3}

theorem wellFormed_br {cc : BrCond} {off : BitVec 17} : (Instr.br cc ta tb off).wellFormed = true ↔ (cc = .bra → ta = 0 ∧ tb = 0) :=
  decide_eq_true_iff
theorem wellFormed_fld : (Instr.fld size t k).wellFormed = true ↔ (size = .v → k.toNat % 8 = 0) := decide_eq_true_iff
theorem wellFormed_fst : (Instr.fst size t k).wellFormed = true ↔ (size = .v → k.toNat % 8 = 0) := decide_eq_true_iff
theorem wellFormed_sig {rel : Option SendScope} {n : BitVec 9} : (Instr.sig rel ta sl n).wellFormed = true ↔ n ≠ 0 := decide_eq_true_iff
theorem wellFormed_lds : (Instr.lds z k tb sl).wellFormed = true ↔ k.toNat % z.align = 0 := decide_eq_true_iff
theorem wellFormed_ldro : (Instr.ldro z k tb sl).wellFormed = true ↔ k.toNat % z.align = 0 := decide_eq_true_iff
theorem wellFormed_vcmp {ty : VType} {c : CmpCond} : (Instr.vcmp ty c td ta tb).wellFormed = true ↔ ty ≠ .c8 := decide_eq_true_iff
theorem wellFormed_vred {ty : VType} {o : RedOp} : (Instr.vred ty o td ta).wellFormed = true ↔ ty ≠ .c8 := decide_eq_true_iff
theorem wellFormed_vdec {ct : Port} : (Instr.vdec ct part td ta).wellFormed = true ↔ part.toNat < 4 := decide_eq_true_iff
theorem wellFormed_venc {ct : Port} : (Instr.venc ct part td ta).wellFormed = true ↔ part.toNat < 4 := decide_eq_true_iff

/-- Two code types convert no lane, a code type takes a table in two bits, and other types a rounding code that is not reserved. -/
theorem wellFormed_vcvt {src dst : VType} : (Instr.vcvt src dst r part td ta).wellFormed = true ↔
    ((src ≠ .c8 ∨ dst ≠ .c8) ∧ part.toNat < VType.parts src dst) ∧
      if src = .c8 ∨ dst = .c8 then r.getLsbD 2 = false else ¬(r = 5 ∨ r = 6) := by
  have hr : ∀ r : BitVec 3, r.toNat < 4 ↔ r.getLsbD 2 = false := by decide
  refine Bool.and_eq_true_iff.trans ?_
  rw [vcvtField, decide_eq_true_iff]
  by_cases hs : src = .c8 <;> by_cases hd : dst = .c8 <;> simp [hs, hd, hr, and_comm]

end

/-! ### From an instruction to its word and back -/

/-- The decoder reads the instruction back from its word. -/
def Instr.ReadBack (i : Instr) : Prop := ∀ w, i.wellFormed = true → encode i = some w → decode w = .ok i

theorem Instr.ReadBack.of_word {i : Instr} {w : IWord} (e : encode i = some w) (h : i.wellFormed = true → decode w = .ok i) :
    i.ReadBack := by
  intro w' hi hw
  obtain rfl : w = w' := Option.some.inj (e.symm.trans hw)
  exact h hi

theorem Instr.ReadBack.of_event {i : Instr} (e : encode i = none) : i.ReadBack := by
  intro w _ hw
  simp [e] at hw

theorem decodeSplit_of_align {z : SplitSize} {k : FWord} (tb : Temp) (sl : Slot) (h : k.toNat % z.align = 0) :
    decodeSplit { fw := k, tb := tb, md := BitVec.ofNat 8 (z.code.toNat * 32), sl := sl } = .ok z := by
  simp [decodeSplit, md_splitSize, SplitSize.ofCode_code, h]

/-- Major by major in the order of the opcode map; an event has no word. -/
theorem Instr.readBack (i : Instr) : i.ReadBack := by
  cases i
  case nop | endf | trap | halt | roinv => exact .of_word rfl fun _ => decode_sys _
  case cont => exact .of_word rfl fun _ => decode_cont _
  case csrr td c | csrw ta c | csrs td ta c =>
    exact .of_word rfl fun _ => (decode_csr _).trans (by simp [decodeCsr, need, subIm_csr _ _ _ c.isLt])
  case li => exact .of_word rfl fun _ => decode_li _
  case lih => exact .of_word rfl fun _ => decode_lih _
  case addi => exact .of_word rfl fun _ => decode_addi _
  case andi => exact .of_word rfl fun _ => decode_andi _
  case ori => exact .of_word rfl fun _ => decode_ori _
  case xori => exact .of_word rfl fun _ => decode_xori _
  case shli td ta n | shri td ta n | srai td ta n =>
    exact .of_word rfl fun _ => (decode_shi _).trans (by simp [decodeShi, need, subIm_shift _ _ _ n.isLt])
  case add | sub | mul | mulh | div | divu | rem | and | or | xor | shl | shr | sra | min | max | slt | sltu | clz | popc | sel =>
    exact .of_word rfl fun _ => decode_int _
  case br =>
    exact .of_word rfl fun h => (decode_br _).trans (by
      simpa [decodeBr, need, BrCond.ofCode_code] using wellFormed_br.1 h)
  case jmpi => exact .of_word rfl fun _ => decode_jmpi _
  case fld =>
    exact .of_word rfl fun h => (decode_frame _).trans (by
      simpa [decodeFrame, md_frameSize, FrameSize.ofCode_code] using wellFormed_fld.1 h)
  case fst =>
    exact .of_word rfl fun h => (decode_frame _).trans (by
      simpa [decodeFrame, md_frameSize, FrameSize.ofCode_code] using wellFormed_fst.1 h)
  case falloc | ffree | fself | fidx => exact .of_word rfl fun _ => decode_frm _
  case slotset | slotarm | slotrd | slotdis => exact .of_word rfl fun _ => decode_slot _
  case send | sendv | sigReg =>
    exact .of_word rfl fun _ => (decode_tok _).trans (by simp (disch := decide) only [decodeTok, fn_tok, if_true])
  case sig =>
    exact .of_word rfl fun h => (decode_tok _).trans (by
      simp (disch := decide) only [decodeTok, fn_tok]; exact if_neg (wellFormed_sig.1 h))
  case chpop | chpeek | chpush | chend | chrcfg =>
    exact .of_word rfl fun _ => (decode_chn _).trans (by simp [decodeChn, need, mdPortOf_mdPort, mdVecOf_mdPort, mdPort_low3])
  case lgen => exact .of_word rfl fun _ => decode_gen _
  case lgstop => exact .of_word rfl fun _ => (decode_gen _).trans (by simp [decodeGen, need, mdPortOf_mdPort, mdPort_low4])
  case launch => exact .of_word rfl fun _ => decode_launch _
  case ld | st | stt | pst => exact .of_word rfl fun _ => (decode_mem _).trans (by simp [decodeMem, MemSize.ofCode_code])
  case lds => exact .of_word rfl fun h => decode_lds _ (decodeSplit_of_align _ _ (wellFormed_lds.1 h))
  case ldro => exact .of_word rfl fun h => decode_ldro _ (decodeSplit_of_align _ _ (wellFormed_ldro.1 h))
  case aadd | aand | aor | axor | amin | amax | aswap | afadd | acas =>
    exact .of_word rfl fun _ => (decode_amo _).trans (by simp (disch := decide) only [decodeAmo, md_amo, Scope.ofCode_code]; rfl)
  case fence =>
    exact .of_word rfl fun _ => (decode_fence _).trans (by
      simp only [decodeFence, md_fence, FenceKind.ofCode_code, Scope.ofCode_code]; rfl)
  case hpdef | hpput | hpwait => exact .of_word rfl fun _ => decode_hoop _
  case turndef | turngo => exact .of_word rfl fun _ => decode_turn _
  case reddef | redput => exact .of_word rfl fun _ => decode_red _
  case pbdef => exact .of_word rfl fun _ => decode_publ _
  case publ =>
    exact .of_word rfl fun _ => (decode_publ _).trans (by simp [decodePubl, need, mdHi_mdPair, mdLo_mdPair, Scope.ofCode_code])
  case vadd | vsub | vmul | vfma | vfms | vmin | vmax | vdiv | vsqrt | vrcp | vrsq | vexp2 | vlog2 =>
    exact .of_word rfl fun _ => (decode_varith _).trans
      (by simp [decodeVarith, need, mdHi_mdPair, mdLo_mdPair, FType.ofCode_code, Rnd.ofCode_code])
  case viadd | visub | vimul | vshl =>
    exact .of_word rfl fun _ => (decode_vint _).trans (by
      simp only [decodeVint, mdHi_mdPair, IType.ofCode_code, md_sat]; rfl)
  case vand | vor | vxor | vshr | vsra =>
    exact .of_word rfl fun _ => (decode_vint _).trans (by
      simp only [decodeVint, mdHi_mdPair, IType.ofCode_code, md_noSat]; rfl)
  case vsel | vperm | vbcast | vext | vins =>
    exact .of_word rfl fun _ => (decode_vperm _).trans (by simp only [decodeVperm, mdHi_mdPair, mdLo_mdPair, VType.ofCode_code]; rfl)
  case vcmp =>
    exact .of_word rfl fun h => (decode_vperm _).trans (by
      simp [decodeVperm, need, mdHi_mdPair, mdLo_mdPair, VType.ofCode_code, CmpCond.ofCode_code, wellFormed_vcmp.1 h])
  case vred =>
    exact .of_word rfl fun h => (decode_vperm _).trans (by
      simp [decodeVperm, need, mdHi_mdPair, mdLo_mdPair, VType.ofCode_code, RedOp.ofCode_code, wellFormed_vred.1 h])
  case vcvt =>
    refine .of_word rfl fun h => (decode_vcvt _).trans ?_
    simp only [decodeVcvt, mdHi_mdPair, mdLo_mdPair, VType.ofCode_code]
    obtain ⟨hp, hr⟩ := wellFormed_vcvt.1 h
    refine (if_pos hp).trans ?_
    split at hr
    case isTrue hc => simp only [if_pos hc, hr]; rfl
    case isFalse hc => simp only [if_neg hc, if_neg hr]
  case vdec =>
    exact .of_word rfl fun h => (decode_vcvt _).trans (by
      simp only [decodeVcvt, md_codeTable]; exact if_pos (wellFormed_vdec.1 h))
  case venc =>
    exact .of_word rfl fun h => (decode_vcvt _).trans (by
      simp only [decodeVcvt, md_codeTable]; exact if_pos (wellFormed_venc.1 h))
  case ctld => exact .of_word rfl fun _ => (decode_vcvt _).trans (by simp only [decodeVcvt, md_codeTable]; rfl)
  case tdef | tstat | trel => exact .of_word rfl fun _ => decode_tile _
  case mxfmt | mxldw | mxstrm | mxgang | mxrd | mxepi | mxclr | mxscan => exact .of_word rfl fun _ => decode_press _
  case cpy | cpym | cpyx | gath | jstat | jcan => exact .of_word rfl fun _ => decode_copy _
  case ings | ingq => exact .of_word rfl fun _ => decode_ingest _
  case rplay | tlbinv | codeseal | place | cfgld | cancel => exact .of_word rfl fun _ => decode_priv _
  all_goals exact .of_event rfl

/-- Settles O53: the decoder's row of each major reads the fields that the encoder writes for its instructions. -/
theorem decodeReadsEncodedWords : Obligations.DecodeReadsEncodedWords := Instr.readBack

/-! ### A word is the packing of its fields (R176) -/

/-- Two fields that meet are one field. -/
theorem div_field (n a b : Nat) : n / 2 ^ (a + b) * 2 ^ (a + b) + n / 2 ^ a % 2 ^ b * 2 ^ a = n / 2 ^ a * 2 ^ a := by
  rw [Nat.pow_add, ← Nat.div_div_eq_div_mul, Nat.mul_comm (2 ^ a), ← Nat.mul_assoc, ← Nat.add_mul, Nat.div_add_mod']

theorem div_last_field (n b : Nat) : n / 2 ^ b * 2 ^ b + n / 2 ^ 0 % 2 ^ b = n := by
  rw [Nat.pow_zero, Nat.div_one, Nat.div_add_mod']

section
variable (w : IWord)

theorem div_first_field : w.toNat / 2 ^ 26 % 2 ^ 6 = w.toNat / 2 ^ 26 := Nat.mod_eq_of_lt (Nat.div_lt_of_lt_mul w.isLt)

theorem packR_unpackR : packR (opOf w) (unpackR w) = w := by
  simp only [packR, unpackR, opOf, extract_toNat]
  rw [div_first_field, div_field _ 23 3, div_field _ 20 3, div_field _ 17 3, div_field _ 14 3, div_field _ 8 6, div_last_field,
    BitVec.ofNat_toNat, BitVec.setWidth_eq]

theorem packI_unpackI : packI (opOf w) (unpackI w) = w := by
  simp only [packI, unpackI, opOf, extract_toNat]
  rw [div_first_field, div_field _ 23 3, div_field _ 20 3, div_last_field, BitVec.ofNat_toNat, BitVec.setWidth_eq]

theorem packF_unpackF : packF (opOf w) (unpackF w) = w := by
  simp only [packF, unpackF, opOf, extract_toNat]
  rw [div_first_field, div_field _ 23 3, div_field _ 14 9, div_field _ 8 6, div_last_field,
    BitVec.ofNat_toNat, BitVec.setWidth_eq]

theorem packX_unpackX : packX (opOf w) (unpackX w) = w := by
  simp only [packX, unpackX, opOf, extract_toNat]
  rw [div_first_field, div_field _ 17 9, div_field _ 14 3, div_field _ 6 8, div_last_field,
    BitVec.ofNat_toNat, BitVec.setWidth_eq]

theorem packS_unpackS : packS (opOf w) (unpackS w) = w := by
  simp only [packS, unpackS, opOf, extract_toNat]
  rw [div_first_field, div_field _ 23 3, div_field _ 20 3, div_field _ 14 6, div_field _ 5 9, div_last_field,
    BitVec.ofNat_toNat, BitVec.setWidth_eq]

theorem packB_unpackB : packB (opOf w) (unpackB w) = w := by
  simp only [packB, unpackB, opOf, extract_toNat]
  rw [div_first_field, div_field _ 23 3, div_field _ 20 3, div_field _ 17 3, div_last_field,
    BitVec.ofNat_toNat, BitVec.setWidth_eq]

theorem packW_unpackW : packW (opOf w) (unpackW w) = w := by
  simp only [packW, unpackW, opOf, extract_toNat]
  rw [div_first_field, div_field _ 21 5, div_field _ 16 5, div_field _ 11 5, div_field _ 6 5, div_last_field,
    BitVec.ofNat_toNat, BitVec.setWidth_eq]

theorem packM_unpackM : packM (opOf w) (unpackM w) = w := by
  simp only [packM, unpackM, opOf, extract_toNat]
  rw [div_first_field, div_field _ 23 3, div_field _ 20 3, div_field _ 6 14, div_field _ 3 3, div_last_field,
    BitVec.ofNat_toNat, BitVec.setWidth_eq]

end

/-! ### A code that is read is the code of what is read (R122, R133, R134, R146, R152, R180) -/

theorem VType.code_ofCode : ∀ c : BitVec 3, (VType.ofCode c).code = c := by decide
theorem FrameSize.code_ofCode : ∀ c : BitVec 2, (FrameSize.ofCode c).code = c := by decide
theorem SplitSize.code_ofCode : ∀ c : BitVec 3, (SplitSize.ofCode c).code = c := by decide

section
variable {c : BitVec 3}

theorem FType.code_of_ofCode {t : FType} : FType.ofCode c = .ok t → t.code = c := by revert c; cases t <;> decide
theorem IType.code_of_ofCode {t : IType} : IType.ofCode c = .ok t → t.code = c := by revert c; cases t <;> decide
theorem Rnd.code_of_ofCode {t : Rnd} : Rnd.ofCode c = .ok t → t.code = c := by revert c; cases t <;> decide
theorem Scope.code_of_ofCode {t : Scope} : Scope.ofCode c = .ok t → t.code = c := by revert c; cases t <;> decide
theorem MemSize.code_of_ofCode {t : MemSize} : MemSize.ofCode c = .ok t → t.code = c := by revert c; cases t <;> decide
theorem BrCond.code_of_ofCode {t : BrCond} : BrCond.ofCode c = .ok t → t.code = c := by revert c; cases t <;> decide
theorem CmpCond.code_of_ofCode {t : CmpCond} : CmpCond.ofCode c = .ok t → t.code = c := by revert c; cases t <;> decide
theorem RedOp.code_of_ofCode {t : RedOp} : RedOp.ofCode c = .ok t → t.code = c := by revert c; cases t <;> decide

end

/-! ### A field whose unused bits are zero is the one that an encoder writes -/

theorem mdPair_mdHi_mdLo : ∀ md : BitVec 6, mdPair (mdHi md) (mdLo md) = md := by decide

theorem mdPair_of_mdLo {md : BitVec 6} {lo : BitVec 3} (h : mdLo md = lo) : mdPair (mdHi md) lo = md := by
  rw [← h, mdPair_mdHi_mdLo]

theorem mdPair_satCode : ∀ {md : BitVec 6}, md.getLsbD 1 = false → md.getLsbD 2 = false → ∀ sat, md.getLsbD 0 = sat →
    mdPair (mdHi md) (satCode sat) = md := by decide

theorem mdPort_mdPortOf : ∀ {md : BitVec 6}, md.extractLsb' 0 3 = 0 → ∀ v, mdVecOf md = v → mdPort (mdPortOf md) v = md := by
  decide

theorem mdPort_mdPortOf_false : ∀ {md : BitVec 6}, md.extractLsb' 0 4 = 0 → mdPort (mdPortOf md) false = md := by decide

theorem ofNat_frameSize : ∀ {md : BitVec 6}, md.extractLsb' 0 4 = 0 → BitVec.ofNat 6 ((md.extractLsb' 4 2).toNat * 16) = md := by
  decide

theorem ofNat_splitSize : ∀ {md : BitVec 8}, md.extractLsb' 0 5 = 0 → BitVec.ofNat 8 ((md.extractLsb' 5 3).toNat * 32) = md := by
  decide

theorem ofNat_codeTable : ∀ {md : BitVec 6}, md.extractLsb' 2 4 = 0 → BitVec.ofNat 6 (md.extractLsb' 0 2).toNat = md := by decide

theorem mdAmo_of_fields {s : Scope} {md : BitVec 8} (hs : Scope.ofCode (md.extractLsb' 0 3) = .ok s) (op : Nat)
    (ho : (md.extractLsb' 4 4).toNat = op) : mdAmo op (AWidth.ofBit (md.getLsbD 3)) s = md := by
  subst ho
  revert md
  cases s <;> decide

theorem ofNat_fence {k : FenceKind} {s : Scope} {md : BitVec 6} (hk : FenceKind.ofCode (md.extractLsb' 4 2).toNat = .ok k)
    (hs : Scope.ofCode (mdLo md) = .ok s) (hz : md.getLsbD 3 = false) : BitVec.ofNat 6 (k.code * 16 + s.code.toNat) = md := by
  revert md
  cases k <;> cases s <;> decide

theorem ofNat_relCode {rel : Option SendScope} {fn : BitVec 5} (hr : SendScope.ofRelCode (fn.extractLsb' 2 3).toNat = .ok rel)
    (n : Nat) (hn : (fn.extractLsb' 0 2).toNat = n) : BitVec.ofNat 5 (SendScope.relCode rel + n) = fn := by
  subst hn
  revert fn
  rcases rel with _ | _ | _ | _ | _ <;> decide

section
variable {im : BitVec 20} {n : Nat} (hs : (im.extractLsb' 18 2).toNat = n)
include hs

theorem subIm_of_csr (hz : im.extractLsb' 12 6 = 0) : subIm n (im.extractLsb' 0 12).toNat = im := by
  have hz : (im.extractLsb' 12 6).toNat = 0 := by simp [hz]
  apply BitVec.eq_of_toNat_eq
  simp only [subIm, BitVec.extractLsb'_toNat, Nat.shiftRight_eq_div_pow, BitVec.toNat_ofNat] at *
  omega

theorem subIm_of_shift (hz : im.extractLsb' 6 12 = 0) : subIm n (im.extractLsb' 0 6).toNat = im := by
  have hz : (im.extractLsb' 6 12).toNat = 0 := by simp [hz]
  apply BitVec.eq_of_toNat_eq
  simp only [subIm, BitVec.extractLsb'_toNat, Nat.shiftRight_eq_div_pow, BitVec.toNat_ofNat] at *
  omega

end

/-! ### From a word to its instruction and back: rows of format R -/

/-- The instruction is well formed and the word is its own. -/
def Instr.Encodes (i : Instr) (w : IWord) : Prop := i.wellFormed = true ∧ encode i = some w

/-- What a row answers when its unused fields must be zero. -/
theorem encodes_of_need {b : Prop} [Decidable b] {i j : Instr} {w : IWord} (h : need b j = .ok i) (hj : b → j.Encodes w) :
    i.Encodes w := by
  rw [need] at h
  split at h
  case isTrue hb => cases h; exact hj (of_decide_eq_true hb)
  case isFalse => cases h

section
variable {op md : BitVec 6} {td ta tb tc : BitVec 3} {fn : BitVec 8} {n : Nat} {i : Instr}

/-- A row of format R that has read the function code n. -/
theorem encodes_of_fn (hn : fn.toNat = n) (h : i.Encodes (packR op ⟨td, ta, tb, tc, md, BitVec.ofNat 8 n⟩)) :
    i.Encodes (packR op ⟨td, ta, tb, tc, md, fn⟩) := by
  simpa [← hn] using h

/-- As `encodes_of_fn`, where the row answers when its unused fields are zero. -/
theorem encodes_of_fn_need {b : Prop} [Decidable b] {j : Instr} (hn : fn.toNat = n) (h : need b j = .ok i)
    (hj : b → j.Encodes (packR op ⟨td, ta, tb, tc, md, BitVec.ofNat 8 n⟩)) : i.Encodes (packR op ⟨td, ta, tb, tc, md, fn⟩) :=
  encodes_of_fn hn (encodes_of_need h hj)

end

section
variable {f : RForm} {i : Instr}

theorem encodes_of_decodeSys (h : decodeSys f = .ok i) : i.Encodes (packR 0x00 f) := by
  cases f
  simp only [decodeSys] at h
  split at h
  case h_6 => cases h
  all_goals exact encodes_of_fn_need ‹_› h fun hz => ⟨rfl, congrArg some (by simp [encR2, hz])⟩

theorem encodes_of_decodeInt (h : decodeInt f = .ok i) : i.Encodes (packR 0x0A f) := by
  cases f
  simp only [decodeInt] at h
  split at h
  case h_21 => cases h
  all_goals exact encodes_of_fn_need ‹_› h fun hz => ⟨rfl, congrArg some (by simp [encR3, hz])⟩

theorem encodes_of_decodeFrm (h : decodeFrm f = .ok i) : i.Encodes (packR 0x0E f) := by
  cases f
  simp only [decodeFrm] at h
  split at h
  case h_5 => cases h
  all_goals exact encodes_of_fn_need ‹_› h fun hz => ⟨rfl, congrArg some (by simp [encR2, hz])⟩

theorem encodes_of_decodeSlot (h : decodeSlot f = .ok i) : i.Encodes (packR 0x0F f) := by
  cases f
  simp only [decodeSlot] at h
  split at h
  case h_5 => cases h
  all_goals exact encodes_of_fn_need ‹_› h fun hz => ⟨rfl, congrArg some (by simp [encR2, hz])⟩

theorem encodes_of_decodeTile (h : decodeTile f = .ok i) : i.Encodes (packR 0x21 f) := by
  cases f
  simp only [decodeTile] at h
  split at h
  case h_4 => cases h
  all_goals exact encodes_of_fn_need ‹_› h fun hz => ⟨rfl, congrArg some (by simp [encR2, hz])⟩

theorem encodes_of_decodeCopy (h : decodeCopy f = .ok i) : i.Encodes (packR 0x23 f) := by
  cases f
  simp only [decodeCopy] at h
  split at h
  case h_7 => cases h
  all_goals exact encodes_of_fn_need ‹_› h fun hz => ⟨rfl, congrArg some (by simp [encR2, hz])⟩

theorem encodes_of_decodeIngest (h : decodeIngest f = .ok i) : i.Encodes (packR 0x24 f) := by
  cases f
  simp only [decodeIngest] at h
  split at h
  case h_3 => cases h
  all_goals exact encodes_of_fn_need ‹_› h fun hz => ⟨rfl, congrArg some (by simp [encR2, hz])⟩

theorem encodes_of_decodePriv (h : decodePriv f = .ok i) : i.Encodes (packR 0x25 f) := by
  cases f
  simp only [decodePriv] at h
  split at h
  case h_7 => cases h
  all_goals exact encodes_of_fn_need ‹_› h fun hz => ⟨rfl, congrArg some (by simp [encR2, hz])⟩

/-- JMPI, the one function of major 0x0C. -/
theorem encodes_of_decodeJmpi (h : (if f.fn = 0 then need (f.td = 0 ∧ f.tb = 0 ∧ f.tc = 0 ∧ f.md = 0) (.jmpi f.ta)
    else .error .function) = .ok i) : i.Encodes (packR 0x0C f) := by
  cases f
  simp only at h
  split_ifs at h with hn
  exact encodes_of_need h fun hz => ⟨rfl, congrArg some (by simp [encR2, hz, hn])⟩

theorem encodes_of_decodeChn (h : decodeChn f = .ok i) : i.Encodes (packR 0x11 f) := by
  cases f
  simp only [decodeChn] at h
  split at h
  case h_1 hn | h_2 hn | h_3 hn =>
    exact encodes_of_fn_need hn h fun ⟨⟨hb, hc, hm⟩, ht⟩ =>
      ⟨rfl, congrArg some (by rw [encR2, mdPort_mdPortOf hm _ rfl, hb, hc, ht]; rfl)⟩
  case h_4 hn =>
    exact encodes_of_fn_need hn h fun ⟨⟨hb, hc, hm⟩, hd, ha, hv⟩ =>
      ⟨rfl, congrArg some (by rw [encR2, mdPort_mdPortOf hm _ hv, hb, hc, hd, ha]; rfl)⟩
  case h_5 hn =>
    exact encodes_of_fn_need hn h fun ⟨⟨hb, hc, hm⟩, hd, hv⟩ =>
      ⟨rfl, congrArg some (by rw [encR2, mdPort_mdPortOf hm _ hv, hb, hc, hd]; rfl)⟩
  case h_6 => cases h

theorem encodes_of_decodeGen (h : decodeGen f = .ok i) : i.Encodes (packR 0x12 f) := by
  cases f
  simp only [decodeGen] at h
  split at h
  case h_1 hn => exact encodes_of_fn_need hn h fun hz => ⟨rfl, congrArg some (by simp [encR2, hz])⟩
  case h_2 hn =>
    exact encodes_of_fn_need hn h fun ⟨⟨hb, hc⟩, hd, ha, hm⟩ =>
      ⟨rfl, congrArg some (by rw [encR2, mdPort_mdPortOf_false hm, hb, hc, hd, ha]; rfl)⟩
  case h_3 => cases h

/-- A row of engine commands: the function code is the place of the command in the row's table. -/
theorem encodes_of_decodeCmd {op : BitVec 6} {table : List (Temp → Temp → Instr)}
    (ht : ∀ e ∈ table.zipIdx, ∀ td ta, (e.1 td ta).Encodes (encR2 op (BitVec.ofNat 8 e.2) td ta 0))
    (h : decodeCmd f table = .ok i) : i.Encodes (packR op f) := by
  obtain ⟨td, ta, tb, tc, md, fn⟩ := f
  simp only [decodeCmd] at h
  split at h
  case h_1 => cases h
  case h_2 mk hmk =>
    have hw := ht (mk, fn.toNat) (List.mem_zipIdx_iff_getElem?.2 hmk)
    exact encodes_of_fn_need rfl h fun ⟨hb, hc, hm⟩ => by simpa only [encR2, hb, hc, hm] using hw td ta

theorem encodes_of_decodeFence (h : decodeFence f = .ok i) : i.Encodes (packR 0x18 f) := by
  cases f
  simp only [decodeFence] at h
  split_ifs at h with hn
  split at h
  case h_1 => cases h
  case h_2 k hk =>
  split at h
  case h_1 => cases h
  case h_2 s hs =>
  exact encodes_of_need h fun ⟨hd, ha, hb, hc, hm⟩ =>
    ⟨rfl, congrArg some (by rw [ofNat_fence hk hs hm, hd, ha, hb, hc, not_not.1 hn])⟩

theorem encodes_of_decodePubl (h : decodePubl f = .ok i) : i.Encodes (packR 0x1C f) := by
  cases f
  simp only [decodePubl] at h
  split at h
  case h_1 hn => exact encodes_of_fn_need hn h fun hz => ⟨rfl, congrArg some (by simp [encR2, hz])⟩
  case h_2 md _ _ hn =>
    split at h
    case h_1 => cases h
    case h_2 s hs =>
      refine encodes_of_fn_need hn h fun ⟨⟨hb, hc⟩, hd, hm⟩ => ⟨rfl, ?_⟩
      have hmd := mdPair_of_mdLo (Scope.code_of_ofCode hs).symm
      rw [hm] at hmd
      exact congrArg some (by rw [encR2, hmd, hb, hc, hd]; rfl)
  case h_3 => cases h

theorem encodes_of_decodeVarith (h : decodeVarith f = .ok i) : i.Encodes (packR 0x1D f) := by
  obtain ⟨td, ta, tb, tc, md, fn⟩ := f
  simp only [decodeVarith] at h
  split_ifs at h
  split at h
  case h_1 => cases h
  case h_2 ty hty =>
  split at h
  case h_1 => cases h
  case h_2 rm hrm =>
  have hmd : mdPair ty.code rm.code = md := by rw [FType.code_of_ofCode hty, Rnd.code_of_ofCode hrm, mdPair_mdHi_mdLo]
  split at h
  case h_4 hn | h_5 hn =>
    cases h
    exact encodes_of_fn hn ⟨rfl, congrArg some (by rw [encV, hmd]; rfl)⟩
  case h_13 =>
    have hn : fn.toNat = 12 := by simp only [imp_false] at *; omega
    exact encodes_of_fn_need hn h fun hz => ⟨rfl, congrArg some (by simp [encV, hz, hmd])⟩
  all_goals exact encodes_of_fn_need ‹_› h fun hz => ⟨rfl, congrArg some (by simp [encV, hz, hmd])⟩

theorem encodes_of_decodeVint (h : decodeVint f = .ok i) : i.Encodes (packR 0x1E f) := by
  obtain ⟨td, ta, tb, tc, md, fn⟩ := f
  simp only [decodeVint] at h
  split at h
  case isTrue => cases h
  case isFalse =>
  split at h
  case h_1 => cases h
  case h_2 ty hty =>
  have hmd : md.getLsbD 1 = false → md.getLsbD 2 = false → ∀ sat, md.getLsbD 0 = sat → mdPair ty.code (satCode sat) = md :=
    IType.code_of_ofCode hty ▸ mdPair_satCode
  have hplain (h1 : md.getLsbD 1 = false) (h2 : md.getLsbD 2 = false) (hs : ¬md.getLsbD 0 = true) : mdPair ty.code 0 = md :=
    hmd h1 h2 false (by simpa using hs)
  split at h
  case h_1 hn | h_2 hn | h_3 hn | h_7 hn =>
    exact encodes_of_fn_need hn h fun ⟨hc, h1, h2⟩ => ⟨rfl, congrArg some (by rw [encV, hmd h1 h2 _ rfl, hc]; rfl)⟩
  case h_4 hn | h_5 hn | h_6 hn | h_8 hn =>
    split_ifs at h with hs
    exact encodes_of_fn_need hn h fun ⟨hc, h1, h2⟩ => ⟨rfl, congrArg some (by rw [encV, hplain h1 h2 hs, hc]; rfl)⟩
  case h_9 =>
    have hn : fn.toNat = 8 := by simp only [imp_false] at *; omega
    split_ifs at h with hs
    exact encodes_of_fn_need hn h fun ⟨hc, h1, h2⟩ => ⟨rfl, congrArg some (by rw [encV, hplain h1 h2 hs, hc]; rfl)⟩

theorem encodes_of_decodeVperm (h : decodeVperm f = .ok i) : i.Encodes (packR 0x1F f) := by
  obtain ⟨td, ta, tb, tc, md, fn⟩ := f
  simp only [decodeVperm] at h
  have hmd : ∀ {lo}, mdLo md = lo → mdPair (VType.ofCode (mdHi md)).code lo = md := by
    rw [VType.code_ofCode]
    exact mdPair_of_mdLo
  split at h
  case h_1 hn =>
    split_ifs at h with hty
    split at h
    case h_1 => cases h
    case h_2 c hc =>
      exact encodes_of_fn_need hn h fun hz =>
        ⟨wellFormed_vcmp.2 hty, congrArg some (by rw [encV, hmd (CmpCond.code_of_ofCode hc).symm, hz]; rfl)⟩
  case h_2 hn => exact encodes_of_fn_need hn h fun hm => ⟨rfl, congrArg some (by rw [encV, hmd hm]; rfl)⟩
  case h_3 hn | h_5 hn | h_6 hn =>
    exact encodes_of_fn_need hn h fun ⟨hm, hc⟩ => ⟨rfl, congrArg some (by rw [encV, hmd hm, hc]; rfl)⟩
  case h_4 hn => exact encodes_of_fn_need hn h fun ⟨hm, hc, hb⟩ => ⟨rfl, congrArg some (by rw [encV, hmd hm, hc, hb]; rfl)⟩
  case h_7 hn =>
    split_ifs at h with hty
    split at h
    case h_1 => cases h
    case h_2 o ho =>
      exact encodes_of_fn_need hn h fun ⟨hc, hb⟩ =>
        ⟨wellFormed_vred.2 hty, congrArg some (by rw [encV, hmd (RedOp.code_of_ofCode ho).symm, hc, hb]; rfl)⟩
  case h_8 => cases h

theorem encodes_of_decodeVcvt (h : decodeVcvt f = .ok i) : i.Encodes (packR 0x20 f) := by
  obtain ⟨td, ta, tb, tc, md, fn⟩ := f
  simp only [decodeVcvt] at h
  split at h
  case h_1 hn =>
    have hmd : mdPair (VType.ofCode (mdHi md)).code (VType.ofCode (mdLo md)).code = md := by
      rw [VType.code_ofCode, VType.code_ofCode, mdPair_mdHi_mdLo]
    split_ifs at h with hp hc hr
    · exact encodes_of_fn_need hn h fun hb => ⟨wellFormed_vcvt.2 ⟨hp, by rwa [if_pos hc]⟩, congrArg some (by rw [encV, hmd]; rfl)⟩
    · cases h
      exact encodes_of_fn hn ⟨wellFormed_vcvt.2 ⟨hp, by rwa [if_neg hc]⟩, congrArg some (by rw [encV, hmd]; rfl)⟩
  case h_2 hn =>
    split_ifs at h with hp
    exact encodes_of_fn_need hn h fun ⟨hm, hb⟩ => ⟨wellFormed_vdec.2 hp, congrArg some (by rw [ofNat_codeTable hm, hb]; rfl)⟩
  case h_3 hn =>
    split_ifs at h with hp
    exact encodes_of_fn_need hn h fun ⟨hm, hb⟩ => ⟨wellFormed_venc.2 hp, congrArg some (by rw [ofNat_codeTable hm, hb]; rfl)⟩
  case h_4 hn =>
    exact encodes_of_fn_need hn h fun ⟨hm, hb, hc, hd⟩ => ⟨rfl, congrArg some (by rw [encR2, ofNat_codeTable hm, hb, hc, hd]; rfl)⟩
  case h_5 => cases h

end

/-! ### From a word to its instruction and back: rows of the other formats -/

section
variable {i : Instr}

theorem encodes_of_decodeCsr {f : IForm} (h : decodeCsr f = .ok i) : i.Encodes (packI 0x02 f) := by
  cases f
  simp only [decodeCsr] at h
  split at h
  case h_1 hs | h_2 hs => exact encodes_of_need h fun ⟨hz, ht⟩ => ⟨rfl, congrArg some (by rw [subIm_of_csr hs hz, ht])⟩
  case h_3 hs => exact encodes_of_need h fun hz => ⟨rfl, congrArg some (by rw [subIm_of_csr hs hz])⟩
  case h_4 => cases h

theorem encodes_of_decodeShi {f : IForm} (h : decodeShi f = .ok i) : i.Encodes (packI 0x09 f) := by
  cases f
  simp only [decodeShi] at h
  split at h
  case h_1 hs | h_2 hs | h_3 hs => exact encodes_of_need h fun hz => ⟨rfl, congrArg some (by rw [subIm_of_shift hs hz])⟩
  case h_4 => cases h

theorem encodes_of_decodeBr {f : BForm} (h : decodeBr f = .ok i) : i.Encodes (packB 0x0B f) := by
  rw [decodeBr] at h
  split at h
  case h_1 => cases h
  case h_2 hc => exact encodes_of_need h fun hz => ⟨wellFormed_br.2 hz, congrArg some (by rw [BrCond.code_of_ofCode hc])⟩

theorem encodes_of_decodeFrame {f : FForm} (h : decodeFrame f = .ok i) : i.Encodes (packF 0x0D f) := by
  obtain ⟨t, fw, md, fn⟩ := f
  simp only [decodeFrame] at h
  split at h
  case h_1 hn =>
    obtain rfl : fn = 0 := BitVec.eq_of_toNat_eq hn
    split_ifs at h with hz ha
    cases h
    exact ⟨wellFormed_fld.2 ha, congrArg some (by rw [FrameSize.code_ofCode, ofNat_frameSize hz])⟩
  case h_2 hn =>
    obtain rfl : fn = 1 := BitVec.eq_of_toNat_eq hn
    split_ifs at h with hz ha
    cases h
    exact ⟨wellFormed_fst.2 ha, congrArg some (by rw [FrameSize.code_ofCode, ofNat_frameSize hz])⟩
  case h_3 => cases h

theorem encodes_of_decodeTok {f : SForm} (h : decodeTok f = .ok i) : i.Encodes (packS 0x10 f) := by
  obtain ⟨tv, th, sl, fw, fn⟩ := f
  simp only [decodeTok] at h
  rcases hr : SendScope.ofRelCode (fn.extractLsb' 2 3).toNat with e | rel
  case error => simp only [hr] at h; split at h <;> cases h
  case ok =>
    simp only [hr] at h
    split at h
    case h_1 hn | h_2 hn => cases h; exact ⟨rfl, congrArg some (by rw [encTok, ofNat_relCode hr _ hn])⟩
    case h_3 hn =>
      split_ifs at h with hf
      · cases h; exact ⟨rfl, congrArg some (by rw [encTok, ofNat_relCode hr _ hn, hf])⟩
      · exact encodes_of_need h fun ht => ⟨wellFormed_sig.2 hf, congrArg some (by rw [encTok, ofNat_relCode hr _ hn, ht])⟩
    case h_4 => cases h

theorem encodes_of_decodeMem {f : MForm} (h : decodeMem f = .ok i) : i.Encodes (packM 0x14 f) := by
  obtain ⟨t, tb, off, sz, fn⟩ := f
  simp only [decodeMem] at h
  rcases hz : MemSize.ofCode sz with e | z
  case error => simp only [hz] at h; split at h <;> cases h
  case ok =>
    simp only [hz] at h
    split at h
    case h_5 => cases h
    case h_1 hn | h_2 hn | h_3 hn | h_4 hn =>
      cases h
      exact ⟨rfl, congrArg some (by rw [MemSize.code_of_ofCode hz]; congr 3; exact BitVec.eq_of_toNat_eq hn.symm)⟩

theorem md_and_align_of_decodeSplit {f : XForm} {z : SplitSize} (h : decodeSplit f = .ok z) :
    BitVec.ofNat 8 (z.code.toNat * 32) = f.md ∧ f.fw.toNat % z.align = 0 := by
  simp only [decodeSplit] at h
  split_ifs at h with hz ha
  cases h
  exact ⟨by rw [SplitSize.code_ofCode, ofNat_splitSize hz], ha⟩

theorem encodes_lds {f : XForm} {z : SplitSize} (h : decodeSplit f = .ok z) : (Instr.lds z f.fw f.tb f.sl).Encodes (packX 0x15 f) := by
  obtain ⟨hm, ha⟩ := md_and_align_of_decodeSplit h
  exact ⟨wellFormed_lds.2 ha, congrArg some (by rw [encSplit, hm])⟩

theorem encodes_ldro {f : XForm} {z : SplitSize} (h : decodeSplit f = .ok z) :
    (Instr.ldro z f.fw f.tb f.sl).Encodes (packX 0x16 f) := by
  obtain ⟨hm, ha⟩ := md_and_align_of_decodeSplit h
  exact ⟨wellFormed_ldro.2 ha, congrArg some (by rw [encSplit, hm])⟩

theorem encodes_of_decodeAmo {f : XForm} (h : decodeAmo f = .ok i) : i.Encodes (packX 0x17 f) := by
  obtain ⟨fw, tb, md, sl⟩ := f
  simp only [decodeAmo] at h
  split at h
  case isTrue => cases h
  case isFalse =>
  split at h
  case h_1 => cases h
  case h_2 s hs =>
    split at h
    case h_8 hn =>
      split_ifs at h with hw
      cases h
      exact ⟨rfl, congrArg some (by rw [encAmo, ← hw, mdAmo_of_fields hs 7 hn])⟩
    case h_9 =>
      cases h
      exact ⟨rfl, congrArg some (by rw [encAmo, mdAmo_of_fields hs 8 (by simp only [imp_false] at *; omega)])⟩
    case h_1 hn | h_2 hn | h_3 hn | h_4 hn | h_5 hn | h_6 hn | h_7 hn =>
      cases h
      exact ⟨rfl, congrArg some (by rw [encAmo, mdAmo_of_fields hs _ hn])⟩

end

/-! ### The majors of the opcode map (R182) -/

section
variable {i : Instr} {w : IWord} {op : BitVec 6}

theorem Instr.Encodes.of_packR (h : i.Encodes (packR op (unpackR w))) (hop : (opOf w).toNat = op.toNat) : i.Encodes w := by
  rwa [← BitVec.eq_of_toNat_eq hop, packR_unpackR] at h
theorem Instr.Encodes.of_packI (h : i.Encodes (packI op (unpackI w))) (hop : (opOf w).toNat = op.toNat) : i.Encodes w := by
  rwa [← BitVec.eq_of_toNat_eq hop, packI_unpackI] at h
theorem Instr.Encodes.of_packF (h : i.Encodes (packF op (unpackF w))) (hop : (opOf w).toNat = op.toNat) : i.Encodes w := by
  rwa [← BitVec.eq_of_toNat_eq hop, packF_unpackF] at h
theorem Instr.Encodes.of_packX (h : i.Encodes (packX op (unpackX w))) (hop : (opOf w).toNat = op.toNat) : i.Encodes w := by
  rwa [← BitVec.eq_of_toNat_eq hop, packX_unpackX] at h
theorem Instr.Encodes.of_packS (h : i.Encodes (packS op (unpackS w))) (hop : (opOf w).toNat = op.toNat) : i.Encodes w := by
  rwa [← BitVec.eq_of_toNat_eq hop, packS_unpackS] at h
theorem Instr.Encodes.of_packB (h : i.Encodes (packB op (unpackB w))) (hop : (opOf w).toNat = op.toNat) : i.Encodes w := by
  rwa [← BitVec.eq_of_toNat_eq hop, packB_unpackB] at h
theorem Instr.Encodes.of_packW (h : i.Encodes (packW op (unpackW w))) (hop : (opOf w).toNat = op.toNat) : i.Encodes w := by
  rwa [← BitVec.eq_of_toNat_eq hop, packW_unpackW] at h
theorem Instr.Encodes.of_packM (h : i.Encodes (packM op (unpackM w))) (hop : (opOf w).toNat = op.toNat) : i.Encodes w := by
  rwa [← BitVec.eq_of_toNat_eq hop, packM_unpackM] at h

end

/-- Major by major in the order of the opcode map. -/
theorem encodes_of_decode {w : IWord} {i : Instr} (h : decode w = .ok i) : i.Encodes w := by
  rw [decode] at h
  split at h
  case h_1 hop => exact (encodes_of_decodeSys h).of_packR hop
  case h_2 hop => cases h; exact .of_packW (op := 0x01) ⟨rfl, rfl⟩ hop
  case h_3 hop => exact (encodes_of_decodeCsr h).of_packI hop
  case h_4 hop => exact .of_packI (op := 0x03) (encodes_of_need h fun hz => ⟨rfl, congrArg some (by rw [← hz])⟩) hop
  case h_5 hop => cases h; exact .of_packI (op := 0x04) ⟨rfl, rfl⟩ hop
  case h_6 hop => cases h; exact .of_packI (op := 0x05) ⟨rfl, rfl⟩ hop
  case h_7 hop => cases h; exact .of_packI (op := 0x06) ⟨rfl, rfl⟩ hop
  case h_8 hop => cases h; exact .of_packI (op := 0x07) ⟨rfl, rfl⟩ hop
  case h_9 hop => cases h; exact .of_packI (op := 0x08) ⟨rfl, rfl⟩ hop
  case h_10 hop => exact (encodes_of_decodeShi h).of_packI hop
  case h_11 hop => exact (encodes_of_decodeInt h).of_packR hop
  case h_12 hop => exact (encodes_of_decodeBr h).of_packB hop
  case h_13 hop => exact (encodes_of_decodeJmpi h).of_packR hop
  case h_14 hop => exact (encodes_of_decodeFrame h).of_packF hop
  case h_15 hop => exact (encodes_of_decodeFrm h).of_packR hop
  case h_16 hop => exact (encodes_of_decodeSlot h).of_packR hop
  case h_17 hop => exact (encodes_of_decodeTok h).of_packS hop
  case h_18 hop => exact (encodes_of_decodeChn h).of_packR hop
  case h_19 hop => exact (encodes_of_decodeGen h).of_packR hop
  case h_20 hop =>
    exact (encodes_of_decodeCmd (op := 0x13) (fun e he => by fin_cases he; exact fun _ _ => ⟨rfl, rfl⟩) h).of_packR hop
  case h_21 hop => exact (encodes_of_decodeMem h).of_packM hop
  case h_22 hop =>
    simp only at h
    split at h
    case h_1 hz => cases h; exact (encodes_lds hz).of_packX hop
    case h_2 => cases h
  case h_23 hop =>
    simp only at h
    split at h
    case h_1 hz => cases h; exact (encodes_ldro hz).of_packX hop
    case h_2 => cases h
  case h_24 hop => exact (encodes_of_decodeAmo h).of_packX hop
  case h_25 hop => exact (encodes_of_decodeFence h).of_packR hop
  case h_26 hop =>
    exact (encodes_of_decodeCmd (op := 0x19) (fun e he => by fin_cases he <;> exact fun _ _ => ⟨rfl, rfl⟩) h).of_packR hop
  case h_27 hop =>
    exact (encodes_of_decodeCmd (op := 0x1A) (fun e he => by fin_cases he <;> exact fun _ _ => ⟨rfl, rfl⟩) h).of_packR hop
  case h_28 hop =>
    exact (encodes_of_decodeCmd (op := 0x1B) (fun e he => by fin_cases he <;> exact fun _ _ => ⟨rfl, rfl⟩) h).of_packR hop
  case h_29 hop => exact (encodes_of_decodePubl h).of_packR hop
  case h_30 hop => exact (encodes_of_decodeVarith h).of_packR hop
  case h_31 hop => exact (encodes_of_decodeVint h).of_packR hop
  case h_32 hop => exact (encodes_of_decodeVperm h).of_packR hop
  case h_33 hop => exact (encodes_of_decodeVcvt h).of_packR hop
  case h_34 hop => exact (encodes_of_decodeTile h).of_packR hop
  case h_35 hop =>
    exact (encodes_of_decodeCmd (op := 0x22) (fun e he => by fin_cases he <;> exact fun _ _ => ⟨rfl, rfl⟩) h).of_packR hop
  case h_36 hop => exact (encodes_of_decodeCopy h).of_packR hop
  case h_37 hop => exact (encodes_of_decodeIngest h).of_packR hop
  case h_38 hop => exact (encodes_of_decodePriv h).of_packR hop
  case h_39 => cases h

theorem decode_of_unassigned_major {w : IWord} (h : 38 ≤ (opOf w).toNat) : decode w = .error .major := by
  rw [decode]
  split
  case h_39 => rfl
  all_goals omega

/-- Settles O54: each row accepts only what the encoder writes for its answer, and no row stands for the majors from 0x26. -/
theorem decodedWordsAreEncodings : Obligations.DecodedWordsAreEncodings :=
  fun _ => ⟨fun _ => encodes_of_decode, decode_of_unassigned_major⟩

/-- Settles O52: each word is decoded. -/
theorem writtenWordsDecode : Obligations.WrittenWordsDecode := by
  unfold Obligations.WrittenWordsDecode
  decide

end Sys2Proof


/-! Management commands on the boot store and the stewards, and image checks (R196, R332, R339, R342, R365, R434, R436). -/

namespace Sys2Proof.Machine

/-! ### Management traffic (R332) -/

section
variable {s : State}

theorem managed_of_down {f : State → State} (h : s.ports.contains 0 = false) : s.managed f = s := by
  simp only [State.managed, h, Bool.false_eq_true, if_false]

theorem managed_of_up {f : State → State} (h : s.ports.contains 0 = true) : s.managed f = f s := if_pos h

theorem exec_imageKeyReplace {key : List Byte} : exec (.imageKeyReplace key) s =
    .next (s.managed fun t => { t with boot := { t.boot with imageKey := key } }) := rfl
theorem exec_firmwareReplace {which : Firmware} {image : SignedImage} : exec (.firmwareReplace which image) s =
    .next (s.managed fun t => { t with boot := t.boot.replace which image.bytes image.sig }) := rfl
theorem exec_configurationRecordReplace {dx dy dz dev : Nat} : exec (.configurationRecordReplace dx dy dz dev) s =
    .next (configurationRecordReplace dx dy dz dev s) := rfl
theorem exec_healthMapClear {die offset : Nat} {mask : BitVec 32} : exec (.healthMapClear die offset mask) s =
    .next (s.managed fun t => t.clearHealth die offset mask) := rfl
theorem exec_linkDegradationClear {link : LinkId} : exec (.linkDegradationClear link) s = .next (linkDegradationClear link s) := rfl
theorem exec_stewardRestart {die : Nat} : exec (.stewardRestart die) s = .next (stewardRestart die s) := rfl
theorem exec_minimalModeExit : exec .minimalModeExit s = .next (minimalModeExit s) := rfl
theorem exec_verifyImage : exec .verifyImage s = .next (verifyImage s) := rfl
theorem exec_verifyImageResult : exec .verifyImageResult s = .next (verifyImageResult s) := rfl

theorem linkDegradationClear_of_down {link : LinkId} (h : s.ports.contains 0 = false) : linkDegradationClear link s = s := by
  rw [linkDegradationClear]
  exact managed_of_down h

/-! ### The configuration record (R293, R339) -/

theorem configurationRecordReplace_of_legal {dx dy dz dev : Nat} (hp : s.ports.contains 0 = true) (hdx : 1 ≤ dx ∧ dx ≤ 16)
    (hdy : 1 ≤ dy ∧ dy ≤ 8) (hdz : 1 ≤ dz ∧ dz ≤ 8) (hdev : dev < 1024) : configurationRecordReplace dx dy dz dev s =
      { s with boot := { s.boot with dx := dx, dy := dy, dz := dz, device := dev } } :=
  if_pos ⟨hp, hdx.1, hdx.2, hdy.1, hdy.2, hdz.1, hdz.2, hdev⟩

theorem configurationRecordReplace_of_illegal {dx dy dz dev : Nat}
    (h : dx = 0 ∨ 16 < dx ∨ dy = 0 ∨ 8 < dy ∨ dz = 0 ∨ 8 < dz ∨ 1024 ≤ dev) : configurationRecordReplace dx dy dz dev s = s :=
  if_neg (by omega)

theorem configurationRecordReplace_of_down {dx dy dz dev : Nat} (hp : s.ports.contains 0 = false) :
    configurationRecordReplace dx dy dz dev s = s :=
  if_neg fun h => by rw [hp] at h; exact Bool.false_ne_true h.1

/-! ### The health map (R365) -/

theorem clearHealth_cluster (die : Nat) {c k : Nat} (hc : c < 120) (hk : die * 120 + c = k) (mask : BitVec 32) :
    s.clearHealth die (0x1000 + 4 * c) mask = ({ s with boot := { s.boot with
      health := tabSet s.boot.health k (tabGet 0 s.boot.health k &&& ~~~mask) } }.modCluster k (fun x =>
        { x with health := x.health &&& ~~~mask })).linksBack
          (((List.range 4).filter (fun d => bitN mask (21 + d))).map (LinkId.torus k)) := by
  have hi : (0x1000 + 4 * c - 0x1000) / 4 = c := by omega
  have ho : 0x1000 ≤ 0x1000 + 4 * c ∧ 0x1000 + 4 * c < 0x11E0 := by omega
  rw [State.clearHealth, hi, hk, if_pos ho]

theorem clearHealth_die (die : Nat) (mask : BitVec 32) : s.clearHealth die 0x11E0 mask =
    { s with boot := { s.boot with dieHealth := tabSet s.boot.dieHealth die (tabGet 0 s.boot.dieHealth die &&& ~~~mask) } }.modDie die
      fun d => { d with health := d.health &&& ~~~mask } := rfl

theorem clearHealth_links (mask : BitVec 32) : s.clearHealth 0 0x11E4 mask =
    { s with dlinks := s.dlinks &&& ~~~mask, boot := { s.boot with dlinks := s.boot.dlinks &&& ~~~mask } }.linksBack
      (((List.range 6).filter (fun l => bitN mask l)).map LinkId.device) := rfl

end

/-! ### What a discarded firing leaves (R57, R342, R351) -/

section
variable {s : State} {core : Nat} {f : Firing} {q : JobQueue} {g : List Job → List Job}

theorem setWork_jobsOf {die i : Nat} {w : Work} : (s.setWork die i w).jobsOf q = s.jobsOf q := by
  cases q with
  | press | copy => rfl
  | steward d =>
    by_cases hd : die = d
    · subst hd; simp [State.jobsOf, State.setWork]
    · simp [State.jobsOf, State.setWork, hd]

theorem modJobs_fresh : (s.modJobs q g).fresh = s.fresh := by cases q <;> rfl

theorem jobsOf_modJobs_press {c : Nat} : (s.modJobs (.press c) g).jobsOf (copyQueueOf core) = s.jobsOf (copyQueueOf core) := by
  unfold copyQueueOf
  split
  · rfl
  · by_cases hc : c = clusterOf core <;> simp [State.modJobs, State.jobsOf, hc]

/-- Dropping launches writes entries of the work table alone. -/
theorem dropLaunches_keeps {α : Type} (r : State → α) (hr : ∀ t die i w, r (t.setWork die i w) = r t) (l : List Nat) :
    r (s.dropLaunches l) = r s := by
  induction l generalizing s with
  | nil => rfl
  | cons id l ih =>
    rw [State.dropLaunches, ih]
    split
    · exact hr ..
    · rfl

theorem discardHeld_mem : (s.discardHeld core f).mem = s.mem := by
  rw [State.discardHeld, dropLaunches_keeps State.mem fun _ _ _ _ => rfl, modJobs_mem, modJobs_mem, modCore_mem]

theorem discardHeld_net : (s.discardHeld core f).net = s.net := by
  rw [State.discardHeld, dropLaunches_keeps State.net fun _ _ _ _ => rfl, modJobs_net, modJobs_net, modCore_net]

theorem discardHeld_fresh : (s.discardHeld core f).fresh = s.fresh := by
  rw [State.discardHeld, dropLaunches_keeps State.fresh fun _ _ _ _ => rfl, modJobs_fresh, modJobs_fresh, modCore_fresh]

theorem discardHeld_core : (s.discardHeld core f).core core =
    { s.core core with queue := (s.core core).queue.filter (fun h => h.ended) } := by
  rw [State.discardHeld, dropLaunches_keeps (State.core · core) fun _ _ _ _ => rfl, modJobs_core, modJobs_core, modCore_core_same]

theorem discardHeld_copyQueue : (s.discardHeld core f).jobsOf (copyQueueOf core) = dropJobs (s.jobsOf (copyQueueOf core)) f.jobs := by
  rw [State.discardHeld, dropLaunches_keeps (State.jobsOf · (copyQueueOf core)) fun _ _ _ _ => setWork_jobsOf, jobsOf_modJobs_same,
    jobsOf_modJobs_press, jobsOf_modCore]

end

/-! ### STEWARD_RESTART (R342, log 33) -/

/-- The state from which a steward's firmware runs again: the firmware's firing on its core. -/
def State.runFirmware (s : State) (core : Nat) : State :=
  { s with fresh := s.fresh + 8 }.modCore core fun k => { k with halted := false, firing := some (firmwareFiring core s.fresh) }

section
variable {s : State} {die : Nat}

theorem runFirmware_core (core : Nat) : (s.runFirmware core).core core =
    { s.core core with halted := false, firing := some (firmwareFiring core s.fresh) } := modCore_core_same ..

theorem runFirmware_jobsOf (core : Nat) (q : JobQueue) : (s.runFirmware core).jobsOf q = s.jobsOf q := by cases q <;> rfl

theorem stewardRestart_of_down (hp : s.ports.contains 0 = false) : stewardRestart die s = s := by
  simp only [stewardRestart, hp, Bool.false_and, Bool.false_eq_true, if_false]

theorem stewardRestart_of_running (h : (s.core (stewardOf die)).halted = false) : stewardRestart die s = s := by
  simp only [stewardRestart, h, Bool.and_false, Bool.false_eq_true, if_false]

section
variable (hp : s.ports.contains 0 = true) (hh : (s.core (stewardOf die)).halted = true)
include hp hh

theorem stewardRestart_of_idle (hf : (s.core (stewardOf die)).firing = none) :
    stewardRestart die s = s.runFirmware (stewardOf die) := by
  simp only [stewardRestart, hp, hh, hf]
  rfl

theorem stewardRestart_of_firing {f : Firing} (hf : (s.core (stewardOf die)).firing = some f) :
    stewardRestart die s = (s.discardHeld (stewardOf die) f).runFirmware (stewardOf die) := by
  simp only [stewardRestart, hp, hh, hf]
  rfl

/-- The restart with and without a firing that the halt or fault had stopped. -/
theorem stewardRestart_effect : ∃ t, exec (.stewardRestart die) s = .next t ∧ t.mem = s.mem ∧ t.net = s.net ∧
    ((s.core (stewardOf die)).firing = none → t.dies = s.dies ∧ t.core (stewardOf die) =
      { s.core (stewardOf die) with halted := false, firing := some (firmwareFiring (stewardOf die) s.fresh) }) ∧
    (∀ f, (s.core (stewardOf die)).firing = some f →
      t.core (stewardOf die) =
        { s.core (stewardOf die) with
          halted := false, firing := some (firmwareFiring (stewardOf die) s.fresh),
          queue := (s.core (stewardOf die)).queue.filter (fun (h : Held) => h.ended) } ∧
      t.jobsOf (copyQueueOf (stewardOf die)) = dropJobs (s.jobsOf (copyQueueOf (stewardOf die))) f.jobs) := by
  cases hf : (s.core (stewardOf die)).firing with
  | none =>
    refine ⟨_, exec_stewardRestart.trans (congrArg _ (stewardRestart_of_idle hp hh hf)), rfl, rfl, fun _ => ⟨rfl, ?_⟩, nofun⟩
    exact runFirmware_core _
  | some f =>
    refine ⟨_, exec_stewardRestart.trans (congrArg _ (stewardRestart_of_firing hp hh hf)), discardHeld_mem, discardHeld_net, nofun, ?_⟩
    rintro _ ⟨⟩
    rw [runFirmware_core, runFirmware_jobsOf, discardHeld_core, discardHeld_fresh, discardHeld_copyQueue]
    exact ⟨rfl, rfl⟩

end

end

/-! ### MINIMAL_MODE_EXIT and the image checks (R434, R436) -/

section
variable {s : State}

theorem minimalModeExit_of_down (hp : s.ports.contains 0 = false) : minimalModeExit s = s := by
  simp only [minimalModeExit, hp, Bool.and_false, Bool.false_eq_true, if_false]

theorem minimalModeExit_of_normal (hm : s.start.minimal = false) : minimalModeExit s = s := by
  simp only [minimalModeExit, hm, Bool.false_and, Bool.false_eq_true, if_false]

theorem minimalModeExit_of_minimal (hp : s.ports.contains 0 = true) (hm : s.start.minimal = true) :
    minimalModeExit s = start { s with boot := { s.boot with fails := 0, inProgress := false } } := by
  simp only [minimalModeExit, hp, hm]
  rfl

theorem verifyImage_of_busy (hb : s.spmbox.busy = true) : verifyImage s = s := if_pos hb
theorem verifyImage_of_idle (hb : s.spmbox.busy = false) :
    verifyImage s = { s with spmbox := { busy := true, words := tabSet s.spmbox.words 0 0x100 } } := if_neg (by simp [hb])
theorem verifyImageResult_of_busy (hb : s.spmbox.busy = true) : verifyImageResult s =
    { s.touchImage with spmbox := { words := tabSet s.spmbox.words 0 (BitVec.ofNat 64 (s.imageResult * 256)), busy := false } } :=
  if_pos hb
theorem verifyImageResult_of_idle (hb : s.spmbox.busy = false) : verifyImageResult s = s := if_neg (by simp [hb])

end

/-- Settles O47, command by command. -/
theorem managementCommandsAct : Obligations.ManagementCommandsAct := by
  unfold Obligations.ManagementCommandsAct
  intro s die c key image sig mask dx dy dz dev l steward
  refine ⟨fun hp i hi => ?_, fun hp => ⟨?_, ?_, ?_, ?_, ?_, ?_, ?_, ?_, ?_, ?_, ?_, ?_, ?_⟩, rfl, ?_, ?_, ?_, ?_⟩
  · simp only [List.mem_cons, List.not_mem_nil, or_false] at hi
    rcases hi with rfl | rfl | rfl | rfl | rfl | rfl | rfl | rfl | rfl | rfl
    · rw [exec_imageKeyReplace, managed_of_down hp]
    · rw [exec_firmwareReplace, managed_of_down hp]
    · rw [exec_firmwareReplace, managed_of_down hp]
    · rw [exec_firmwareReplace, managed_of_down hp]
    · rw [exec_configurationRecordReplace, configurationRecordReplace_of_down hp]
    · rw [exec_healthMapClear, managed_of_down hp]
    · rw [exec_stewardRestart, stewardRestart_of_down hp]
    · rw [exec_minimalModeExit, minimalModeExit_of_down hp]
    · rw [exec_linkDegradationClear, linkDegradationClear_of_down hp]
    · rw [exec_linkDegradationClear, linkDegradationClear_of_down hp]
  · rw [exec_imageKeyReplace, managed_of_up hp]
  · rw [exec_firmwareReplace, managed_of_up hp]; rfl
  · rw [exec_firmwareReplace, managed_of_up hp]; rfl
  · rw [exec_firmwareReplace, managed_of_up hp]; rfl
  · intro h1 h2 h3 h4 h5 h6 h7
    rw [exec_configurationRecordReplace, configurationRecordReplace_of_legal hp ⟨h1, h2⟩ ⟨h3, h4⟩ ⟨h5, h6⟩ h7]
  · intro h
    rw [exec_configurationRecordReplace, configurationRecordReplace_of_illegal h]
  · intro hc
    rw [exec_healthMapClear, managed_of_up hp, clearHealth_cluster die hc rfl]
  · rw [exec_healthMapClear, managed_of_up hp, clearHealth_die]
  · rw [exec_healthMapClear, managed_of_up hp, clearHealth_links]
  · intro h
    rw [exec_stewardRestart, stewardRestart_of_running h]
  · exact stewardRestart_effect hp
  · intro hm
    rw [exec_minimalModeExit, minimalModeExit_of_normal hm]
  · intro hm
    exact ⟨_, exec_minimalModeExit.trans (congrArg _ (minimalModeExit_of_minimal hp hm)), rfl, rfl, rfl⟩
  · intro hb
    rw [exec_verifyImage, verifyImage_of_busy hb]
  · intro hb
    rw [exec_verifyImage, verifyImage_of_idle hb]
  · intro hb
    rw [exec_verifyImageResult, verifyImageResult_of_busy hb]
  · intro hb
    rw [exec_verifyImageResult, verifyImageResult_of_idle hb]

end Sys2Proof.Machine


/-! Immediates, integer operations and branches: what each computes, its word, and where a branch goes (R157, R207 to R211). -/

namespace Sys2Proof.Machine

/-! ### Words of formats I and R (R176) -/

section
variable (td ta tb tc : Temp)

/-- The word of LI (R207). -/
theorem packI_li (im : BitVec 20) : packI 0x03 ⟨td, 0, im⟩ = BitVec.ofNat 32 (0x0C000000 + td.toNat * 2 ^ 23 + im.toNat) := by
  simp [packI]

/-- The words of the immediate instructions with a source, and of the shifts by an immediate: each op has its base (R207, R208). -/
theorem packI_of_base {op : BitVec 6} {base : Nat} (hb : op.toNat * 2 ^ 26 = base) (im : BitVec 20) :
    packI op ⟨td, ta, im⟩ = BitVec.ofNat 32 (base + td.toNat * 2 ^ 23 + ta.toNat * 2 ^ 20 + im.toNat) := by
  rw [← hb, packI]

/-- The immediate field of a shift holds its sub-op above its amount (R208). -/
theorem toNat_subIm {sub : Nat} (hs : sub < 4) (amt : BitVec 6) : (subIm sub amt.toNat).toNat = sub * 2 ^ 18 + amt.toNat := by
  have ha := amt.isLt
  rw [subIm, BitVec.toNat_ofNat]
  omega

/-- The word of a shift by an immediate (R208). -/
theorem packI_shift {sub : Nat} (hs : sub < 4) (amt : BitVec 6) : packI 0x09 ⟨td, ta, subIm sub amt.toNat⟩ =
    BitVec.ofNat 32 (0x24000000 + td.toNat * 2 ^ 23 + ta.toNat * 2 ^ 20 + (sub * 2 ^ 18 + amt.toNat)) := by
  rw [← toNat_subIm hs]
  exact packI_of_base td ta (by decide) _

/-- The word of an integer instruction (R209). -/
theorem packR_int {fn : BitVec 8} {n c : Nat} (hf : fn.toNat = n) (hc : tc.toNat = c) : packR 0x0A ⟨td, ta, tb, tc, 0, fn⟩ =
    BitVec.ofNat 32 (0x28000000 + td.toNat * 2 ^ 23 + ta.toNat * 2 ^ 20 + tb.toNat * 2 ^ 17 + c * 2 ^ 14 + n) := by
  rw [← hf, ← hc]
  simp [packR]

/-- The word of an integer instruction without a second source (R209). -/
theorem packR_int1 {fn : BitVec 8} {n : Nat} (hf : fn.toNat = n) : packR 0x0A ⟨td, ta, 0, 0, 0, fn⟩ =
    BitVec.ofNat 32 (0x28000000 + td.toNat * 2 ^ 23 + ta.toNat * 2 ^ 20 + 0 * 2 ^ 17 + 0 * 2 ^ 14 + n) :=
  packR_int td ta 0 0 hf (by decide)

/-- The word of JMPI (R211). -/
theorem packR_jmpi : packR 0x0C ⟨0, ta, 0, 0, 0, 0⟩ = BitVec.ofNat 32 (0x30000000 + ta.toNat * 2 ^ 20) := by
  simp [packR]

end

/-! ### Instructions of one and of two scalar sources (R207 to R209) -/

section
variable {s : State} {f : Firing} {td ta tb : Temp}

theorem intOp1_of_issues {op : Word → Word} (h : s.Issues f false) : intOp1 op td ta s = .next (s.ran (f.setW td (op (f.w ta)))) :=
  issue_onlyFiring _ s f h rfl

theorem intOp_of_issues {op : Word → Word → Word} (h : s.Issues f false) :
    intOp op td ta tb s = .next (s.ran (f.setW td (op (f.w ta) (f.w tb)))) :=
  issue_onlyFiring _ s f h rfl

theorem exec_li {im : BitVec 20} : exec (.li td im) s = execLi td im s := rfl

theorem execLi_of_issues {im : BitVec 20} (h : s.Issues f false) : execLi td im s = .next (s.ran (f.setW td (im.signExtend 64))) :=
  issue_onlyFiring _ s f h rfl

theorem exec_sel {tc : Temp} : exec (.sel td ta tb tc) s = execSel td ta tb tc s := rfl

theorem execSel_of_issues {tc : Temp} (h : s.Issues f false) :
    execSel td ta tb tc s = .next (s.ran (f.setW td (if f.w tc ≠ 0 then f.w ta else f.w tb))) :=
  issue_onlyFiring _ s f h rfl

end

/-- Settles O4: LI only changes its firing, the others are operations on one scalar source, and each word is the packing of its
fields. -/
theorem immediateInstructionsCompute : Obligations.ImmediateInstructionsCompute := by
  unfold Obligations.ImmediateInstructionsCompute
  intro s f td ta im amt h a
  have one : ∀ i (op : Word → Word), exec i s = intOp1 op td ta s → exec i s = .next (s.ran (f.setW td (op a))) := fun i op hi =>
    hi.trans (intOp1_of_issues h)
  have base : ∀ {op : BitVec 6} {n : Nat}, op.toNat * 2 ^ 26 = n → some (packI op ⟨td, ta, im⟩) =
      some (BitVec.ofNat 32 (n + td.toNat * 2 ^ 23 + ta.toNat * 2 ^ 20 + im.toNat)) := fun hn =>
    congrArg some (packI_of_base td ta hn im)
  have shift : ∀ {sub : Nat}, sub < 4 → some (packI 0x09 ⟨td, ta, subIm sub amt.toNat⟩) =
      some (BitVec.ofNat 32 (0x24000000 + td.toNat * 2 ^ 23 + ta.toNat * 2 ^ 20 + (sub * 2 ^ 18 + amt.toNat))) := fun hs =>
    congrArg some (packI_shift td ta hs amt)
  refine ⟨exec_li.trans (execLi_of_issues h), one _ (fun a => (a <<< 20) ||| im.setWidth 64) rfl, one _ (· + im.signExtend 64) rfl,
    one _ (· &&& im.setWidth 64) rfl, one _ (· ||| im.setWidth 64) rfl, one _ (· ^^^ im.setWidth 64) rfl,
    one _ (· <<< amt.toNat) rfl, one _ (· >>> amt.toNat) rfl, one _ (·.sshiftRight amt.toNat) rfl,
    congrArg some (packI_li td im), base rfl, base rfl, base rfl, base rfl, base rfl, shift (by decide), shift (by decide),
    shift (by decide)⟩

/-! ### Counting bits (R209) -/

/-- The number of zeros above the highest one of a word. -/
theorem clz64_eq {a : Word} {n : Nat} (hn : n ≤ 64) (hz : ∀ i, i < n → a.getLsbD (63 - i) = false)
    (ho : n < 64 → a.getLsbD (63 - n) = true) : clz64 a = n := by
  have high : ∀ j, 64 - n ≤ j → a.getLsbD j = false := fun j hj => by
    by_cases h64 : j < 64
    · have := hz (63 - j) (by omega)
      rwa [show 63 - (63 - j) = j by omega] at this
    · exact BitVec.getLsbD_of_ge a j (by omega)
  rcases Nat.lt_or_ge n 64 with hlt | hge
  · have hbit : a.toNat.testBit (63 - n) = true := ho hlt
    have hlo : 2 ^ (63 - n) ≤ a.toNat := Nat.ge_two_pow_of_testBit hbit
    have hhi : a.toNat < 2 ^ (63 - n + 1) := Nat.lt_pow_two_of_testBit _ fun j hj => high j (by omega)
    have hne : a.toNat ≠ 0 := by have := Nat.two_pow_pos (63 - n); omega
    have hlog : a.toNat.log2 = 63 - n := (Nat.log2_eq_iff hne).mpr ⟨hlo, hhi⟩
    rw [clz64, if_neg (fun h => hne (by rw [h]; rfl)), hlog]
    omega
  · have hzero : a = 0 := BitVec.eq_of_getLsbD_eq fun j _ => by rw [high j (by omega)]; simp
    rw [clz64, if_pos hzero]
    omega

/-- Adding up the bits of a predicate counts where it holds. -/
theorem foldl_add_b2n (p : Nat → Bool) (l : List Nat) (n : Nat) : l.foldl (fun n i => n + b2n (p i)) n = n + l.countP p := by
  induction l generalizing n with
  | nil => rfl
  | cons i l ih =>
    rw [List.foldl_cons, ih, List.countP_cons, b2n]
    omega

theorem popc64_eq_countP (a : Word) : popc64 a = (List.range 64).countP (fun i => a.getLsbD i) :=
  (foldl_add_b2n _ _ 0).trans (Nat.zero_add _)

/-- Settles O5: but for SEL each is an operation on one or two scalar sources; CLZ and POPC count bits; and each word is the packing
of its fields. -/
theorem integerInstructionsCompute : Obligations.IntegerInstructionsCompute := by
  unfold Obligations.IntegerInstructionsCompute
  intro s f td ta tb tc h a b gives
  have one : ∀ i (op : Word → Word), exec i s = intOp1 op td ta s → gives i (op a) := fun i op hi => hi.trans (intOp1_of_issues h)
  have two : ∀ i (op : Word → Word → Word), exec i s = intOp op td ta tb s → gives i (op a b) := fun i op hi =>
    hi.trans (intOp_of_issues h)
  have word : ∀ {fn : BitVec 8} {n : Nat}, fn.toNat = n → some (encR3 0x0A fn td ta tb) = some (BitVec.ofNat 32
      (0x28000000 + td.toNat * 2 ^ 23 + ta.toNat * 2 ^ 20 + tb.toNat * 2 ^ 17 + 0 * 2 ^ 14 + n)) := fun hf =>
    congrArg some (packR_int td ta tb 0 hf (by decide))
  refine ⟨two _ (· + ·) rfl, two _ (· - ·) rfl, two _ (· * ·) rfl,
    two _ (fun a b => BitVec.ofInt 64 (a.toInt * b.toInt / 2 ^ 64)) rfl, two _ divS rfl, two _ divU rfl, two _ remS rfl,
    two _ (· &&& ·) rfl, two _ (· ||| ·) rfl, two _ (· ^^^ ·) rfl, two _ (fun a b => a <<< shAmt b) rfl,
    two _ (fun a b => a >>> shAmt b) rfl, two _ (fun a b => a.sshiftRight (shAmt b)) rfl,
    two _ (fun a b => if a.toInt ≤ b.toInt then a else b) rfl, two _ (fun a b => if a.toInt ≤ b.toInt then b else a) rfl,
    two _ (fun a b => if a.toInt < b.toInt then 1 else 0) rfl, two _ (fun a b => if a.toNat < b.toNat then 1 else 0) rfl,
    fun n hn hz ho => ?_, ?_, exec_sel.trans (execSel_of_issues h), ?_, congrArg some (packR_int1 td ta rfl),
    congrArg some (packR_int1 td ta rfl), congrArg some (packR_int td ta tb tc rfl rfl)⟩
  · rw [← clz64_eq hn hz ho]
    exact one _ (fun a => BitVec.ofNat 64 (clz64 a)) rfl
  · rw [← popc64_eq_countP]
    exact one _ (fun a => BitVec.ofNat 64 (popc64 a)) rfl
  · simp only [List.forall_mem_cons]
    exact ⟨word rfl, word rfl, word rfl, word rfl, word rfl, word rfl, word rfl, word rfl, word rfl, word rfl, word rfl, word rfl,
      word rfl, word rfl, word rfl, word rfl, word rfl, List.forall_mem_nil _⟩

/-! ### Branches (R210, R211) -/

section
variable {s : State} {f : Firing}

/-- The issue of an instruction that goes to a word address and changes nothing else. -/
theorem issue_jump {body : Firing → State → Body} {pc : Nat} (h : s.Issues f false) (hb : body f s = .jump pc s) :
    issue false body s = .next (s.setFiring { f with pc := pc, issued := f.issued + 1 }) := by
  obtain ⟨hf, -⟩ := id h
  rw [issue_eq _ _ _ _ h, hb]
  simp [Body.apply, State.advance, hf, b2n]

theorem exec_br {cc : BrCond} {ta tb : Temp} {off : BitVec 17} : exec (.br cc ta tb off) s = execBr cc ta tb off s := rfl

theorem brTarget_of_inside {pc : Nat} {off : BitVec 17} (h0 : 0 ≤ (pc : Int) + off.toInt) (h1 : (pc : Int) + off.toInt ≤ 16383) :
    brTarget pc off = ((pc : Int) + off.toInt).toNat := if_pos ⟨h0, h1⟩

/-- A branch that is taken to a word of the instruction store. -/
theorem execBr_of_taken {cc : BrCond} {ta tb : Temp} {off : BitVec 17} (h : s.Issues f false)
    (ht : brTaken cc (f.w ta) (f.w tb) = true) (h0 : 0 ≤ (f.pc : Int) + off.toInt) (h1 : (f.pc : Int) + off.toInt ≤ 16383) :
    execBr cc ta tb off s =
      .next (s.setFiring { f with pc := ((f.pc : Int) + off.toInt).toNat, issued := f.issued + 1 }) :=
  issue_jump h ((if_pos ht).trans (by rw [brTarget_of_inside h0 h1]))

theorem execBr_of_notTaken {cc : BrCond} {ta tb : Temp} {off : BitVec 17} (h : s.Issues f false)
    (ht : ¬ brTaken cc (f.w ta) (f.w tb) = true) : execBr cc ta tb off s = .next (s.ran f) :=
  issue_done_ran h (if_neg ht) h.1

/-- JMPI goes to the low 14 bits of its operand (R211). -/
theorem execJmpi_of_steward {ta : Temp} (h : s.Issues f false) (hst : isSteward s.cur = true) :
    execJmpi ta s = .next (s.setFiring { f with pc := (f.w ta).toNat % 16384, issued := f.issued + 1 }) :=
  (stewardIssue_of_steward hst).trans (issue_jump h (congrArg (Body.jump · s) (fieldN_low _ 14)))

end

/-- Settles O6: BR by its condition, JMPI by who issues it. -/
theorem branchesSetTheProgramCounter : Obligations.BranchesSetTheProgramCounter := by
  unfold Obligations.BranchesSetTheProgramCounter
  intro s f cc ta tb off h a b taken
  have htaken : taken ↔ brTaken cc (f.w ta) (f.w tb) = true := by
    cases cc <;> simp [taken, brTaken, a, b]
  exact ⟨fun ht h0 h1 => exec_br.trans (execBr_of_taken h (htaken.mp ht) h0 h1),
    fun ht => exec_br.trans (execBr_of_notTaken h (mt htaken.mpr ht)), execJmpi_of_steward h, stewardIssue_of_tenant,
    congrArg some (packR_jmpi ta)⟩

end Sys2Proof.Machine


/-! Frame words and slots at issue: FLD, FST and the slot instructions (R172, R212, R213, R217, R357, R374). -/

namespace Sys2Proof.Machine

/-! ### Bytes written at their home leave the choice of the core (R104, R107, R118) -/

section
variable {s : State}

theorem evictLine_cur (s : State) (line : Nat) : (s.evictLine line).cur = s.cur := by
  unfold State.evictLine
  split <;> rfl

theorem allocLine_cur (s : State) (key line : Nat) (wr : Bool) : (s.allocLine key line wr).cur = s.cur := by
  refine (foldl_keeps State.cur evictLine_cur _ _).trans ?_
  rw [modCluster_cur]
  split <;> rfl

theorem touchLine_cur (s : State) (key line : Nat) (wr : Bool) : (s.touchLine key line wr).cur = s.cur := by
  unfold State.touchLine
  split
  · split
    · rfl
    · rw [allocLine_cur, evictLine_cur]
  · exact allocLine_cur ..

theorem touchLines_cur (key pa n : Nat) (wr : Bool) : (s.touchLines key pa n wr).cur = s.cur := by
  unfold State.touchLines
  split
  · exact foldl_keeps State.cur (fun _ _ => touchLine_cur ..) _ _
  · rfl

theorem writeBytes_cur (s : State) (key pa : Nat) (bs : List Byte) (side : Byte) : (s.writeBytes key pa bs side).cur = s.cur := by
  unfold State.writeBytes
  split
  · exact touchLines_cur ..
  · split <;> rfl

theorem setFword_cur (s : State) (core i k : Nat) (v : Word) (side : Byte) : (s.setFword core i k v side).cur = s.cur := by
  unfold State.setFword
  split
  · rw [writeBytes_cur, writeBytes_cur]
  · exact writeBytes_cur ..

theorem setFwords_cur (core i k : Nat) (side : Byte) (l : List Word) : (s.setFwords core i k side l).cur = s.cur := by
  induction l generalizing s k with
  | nil => rfl
  | cons v l ih => rw [State.setFwords, ih, setFword_cur]

end

/-! ### Consecutive frame words (R212) -/

section
variable {s : State} {core i k : Nat} {side : Byte}

theorem setFwords_append (l m : List Word) :
    s.setFwords core i k side (l ++ m) = (s.setFwords core i k side l).setFwords core i (k + l.length) side m := by
  induction l generalizing s k with
  | nil => rfl
  | cons v l ih => rw [List.cons_append, State.setFwords, ih, State.setFwords, List.length_cons, Nat.add_assoc, Nat.add_comm 1]

/-- Words that a function of their index gives are written one after another. -/
theorem setFwords_map_range (g : Nat → Word) (n : Nat) : s.setFwords core i k side ((List.range n).map g) =
    (List.range n).foldl (fun u j => u.setFword core i (k + j) (g j) side) s := by
  induction n with
  | zero => rfl
  | succ n ih =>
    rw [List.range_succ, List.map_append, setFwords_append, ih, List.foldl_append, List.length_map, List.length_range]
    rfl

/-- The side-bands of consecutive frame words, ORed from either end. -/
theorem fsides_eq_foldl (n : Nat) : s.fsides core i k n = (List.range n).foldl (fun b j => b ||| s.fside core i (k + j)) 0 := by
  have hlast : ∀ n k, s.fsides core i k (n + 1) = s.fsides core i k n ||| s.fside core i (k + n) := fun n => by
    induction n with
    | zero => intro k; simp [State.fsides]
    | succ n ih => intro k; rw [State.fsides, ih, State.fsides, BitVec.or_assoc, Nat.add_assoc, Nat.add_comm 1]
  induction n with
  | zero => rfl
  | succ n ih => rw [hlast, ih, List.range_succ, List.foldl_append]; rfl

end

theorem toNat_append_word {m : Nat} (x : BitVec m) (w : Word) : (x ++ w).toNat = w.toNat + 2 ^ 64 * x.toNat := by
  rw [BitVec.toNat_append, ← Nat.shiftLeft_add_eq_or_of_lt w.isLt, Nat.shiftLeft_eq, Nat.add_comm, Nat.mul_comm]

/-- Eight frame words as one value, the first lowest (R212). -/
theorem ofNat_fwords_eight {s : State} {core i k : Nat} {w : Nat → Word} (hw : ∀ j, s.fword core i (k + j) = w j) :
    BitVec.ofNat 512 (s.fwords core i k 8) = w 7 ++ w 6 ++ w 5 ++ w 4 ++ w 3 ++ w 2 ++ w 1 ++ w 0 := by
  have hn : s.fwords core i k 8 = (w 7 ++ w 6 ++ w 5 ++ w 4 ++ w 3 ++ w 2 ++ w 1 ++ w 0).toNat := by
    simp only [toNat_append_word, State.fwords, Nat.add_assoc, Nat.reduceAdd, ← hw, Nat.add_zero, Nat.mul_zero]
  rw [hn, BitVec.ofNat_toNat]
  exact BitVec.setWidth_eq _

/-! ### FLD (R212, R357, R374) -/

/-- The issue of an instruction that consumes poison (R357). -/
theorem issue_poison {held : Bool} {body : Firing → State → Body} {s : State} {f : Firing} {addr : Option Nat} (h : s.Issues f held)
    (hb : body f s = .poison addr) : issue held body s = .next (s.takePoison s.cur f addr) := by
  rw [issue_eq _ _ _ _ h, hb, Body.apply]

theorem poisoned_eq_false_iff {s : State} {side : Byte} :
    poisoned s side = false ↔ isSteward s.cur = true ∨ side.getLsbD 5 = false := by
  rw [poisoned, isPoison, Bool.and_eq_false_iff, Bool.not_eq_false', or_comm]

section
variable {s : State} {f : Firing} {size : FrameSize} {t : Temp} {k : FWord}

theorem exec_fld : exec (.fld size t k) s = execFld size t k s := rfl

theorem execFld_of_read (h : s.Issues f false) (hin : k.toNat + frameSpan size ≤ ((s.core s.cur).frame f.ctx.frame).words)
    (hp : poisoned s (s.fsides s.cur f.ctx.frame k.toNat (frameSpan size)) = false) :
    execFld size t k s = .next (s.ran ((f.setT t (fldValue s s.cur f.ctx.frame size k.toNat)).orFlags
      (s.fsides s.cur f.ctx.frame k.toNat (frameSpan size)))) :=
  issue_done_setFiring h ((if_neg (Nat.not_lt.2 hin)).trans (if_neg (by simp [hp]))) rfl

theorem execFld_of_beyond (h : s.Issues f false) (hout : ((s.core s.cur).frame f.ctx.frame).words < k.toNat + frameSpan size) :
    execFld size t k s = .next (s.takeFault s.cur f 0x05 0x03 none) :=
  issue_trap _ _ _ _ _ _ _ h (if_pos hout)

theorem execFld_of_poison (h : s.Issues f false) (hin : k.toNat + frameSpan size ≤ ((s.core s.cur).frame f.ctx.frame).words)
    (hp : poisoned s (s.fsides s.cur f.ctx.frame k.toNat (frameSpan size)) = true) :
    execFld size t k s = .next (s.takePoison s.cur f none) :=
  issue_poison h ((if_neg (Nat.not_lt.2 hin)).trans (if_pos hp))

/-! ### FST (R212, R213, R374) -/

theorem exec_fst : exec (.fst size t k) s = execFst size t k s := rfl

theorem execFst_of_written (h : s.Issues f false) (hin : k.toNat + frameSpan size ≤ ((s.core s.cur).frame f.ctx.frame).words)
    (ha : s.armedIn s.cur f.ctx.frame k.toNat (frameSpan size) = false) :
    execFst size t k s = .next ((s.setFwords s.cur f.ctx.frame k.toNat f.flags
      (fstWords s s.cur f.ctx.frame size (f.t t) k.toNat)).ran f) := by
  refine issue_done_ran h ((if_neg (Nat.not_lt.2 hin)).trans (if_neg (by simp [ha]))) ?_
  rw [State.core, setFwords_cores, setFwords_cur]
  exact h.1

theorem execFst_of_armed (h : s.Issues f false) (hin : k.toNat + frameSpan size ≤ ((s.core s.cur).frame f.ctx.frame).words)
    (ha : s.armedIn s.cur f.ctx.frame k.toNat (frameSpan size) = true) :
    execFst size t k s = .next (s.takeFault s.cur f 0x04 0x01 none) :=
  issue_trap _ _ _ _ _ _ _ h ((if_neg (Nat.not_lt.2 hin)).trans (if_pos ha))

theorem execFst_of_beyond (h : s.Issues f false) (hout : ((s.core s.cur).frame f.ctx.frame).words < k.toNat + frameSpan size) :
    execFst size t k s = .next (s.takeFault s.cur f 0x05 0x03 none) :=
  issue_trap _ _ _ _ _ _ _ h (if_pos hout)

end

/-- Settles O7: FLD by what it reads, and FST by the words that it writes. -/
theorem frameLoadsAndStores : Obligations.FrameLoadsAndStores := by
  unfold Obligations.FrameLoadsAndStores
  refine ⟨?_, ?_⟩
  · intro s f t k h fr w one loads
    have all : ∀ size, loads size (fldValue s s.cur f.ctx.frame size k.toNat) (frameSpan size)
        (s.fsides s.cur f.ctx.frame k.toNat (frameSpan size)) := fun size =>
      ⟨fun hin hp => exec_fld.trans (execFld_of_read h hin (poisoned_eq_false_iff.mpr hp)),
        fun hout => exec_fld.trans (execFld_of_beyond h hout),
        fun hin hst hp => exec_fld.trans (execFld_of_poison h hin (by rw [poisoned, isPoison, hp, hst]; rfl))⟩
    have hone : s.fsides s.cur f.ctx.frame k.toNat 1 = one := fsides_one ..
    have hlow : ((w 0).setWidth 32).setWidth 512 = zx (((w 0).setWidth 32).setWidth 64) :=
      (BitVec.setWidth_setWidth (by decide)).symm
    refine ⟨hone ▸ all .d, hlow ▸ hone ▸ all .w, hone ▸ all .ws, ?_⟩
    rw [← fsides_eq_foldl, ← ofNat_fwords_eight fun _ => rfl]
    exact all .v
  · intro s f t k h c i fr
    refine ⟨fun hin ha => ⟨exec_fst.trans (execFst_of_written h hin ha), fun size hs => ?_⟩, fun hin ha => ?_,
      fun size hin ha => exec_fst.trans (execFst_of_armed h hin ha), fun size hout => exec_fst.trans (execFst_of_beyond h hout)⟩
    · rcases hs with rfl | rfl
      · exact exec_fst.trans (execFst_of_written h hin ha)
      · exact exec_fst.trans (execFst_of_written h hin ha)
    · rw [← setFwords_map_range, exec_fst]
      exact execFst_of_written h hin ha

/-! ### Slots (R217, R374) -/

section
variable {s : State} {f : Firing} {n : Slot} {held : Bool} {b : Firing → State → Body}

theorem slotBody_of_inside (hn : n.toNat < ((s.core s.cur).frame f.ctx.frame).nslot) : slotBody n b f s = b f s :=
  if_neg (Nat.not_le.2 hn)

/-- A held slot instruction on a slot of the frame. -/
theorem issue_slotBody_hold {a : Firing → State → Act} (h : s.Issues f true)
    (hn : n.toNat < ((s.core s.cur).frame f.ctx.frame).nslot) :
    issue true (slotBody n (onlyHold a)) s = .next (s.ranHeld f f (a f s)) :=
  issue_hold_same _ _ _ _ _ h (slotBody_of_inside hn)

theorem issue_slotBody_beyond (h : s.Issues f held) (hn : ¬ n.toNat < ((s.core s.cur).frame f.ctx.frame).nslot) :
    issue held (slotBody n b) s = .next (s.takeFault s.cur f 0x05 0x04 none) :=
  issue_trap _ _ _ _ _ _ _ h (if_pos (Nat.not_lt.1 hn))

theorem exec_slotset {ta : Temp} : exec (.slotset n ta) s = execSlotset n ta s := rfl
theorem exec_slotarm {ta : Temp} : exec (.slotarm n ta) s = execSlotarm n ta s := rfl
theorem exec_slotdis : exec (.slotdis n) s = execSlotdis n s := rfl
theorem exec_slotrd {td : Temp} : exec (.slotrd td n) s = execSlotrd td n s := rfl

end

/-- Settles O10: the four share the check of their slot. -/
theorem slotInstructions : Obligations.SlotInstructions := by
  unfold Obligations.SlotInstructions
  intro s f td ta n inside
  refine ⟨fun h hn => ⟨exec_slotset.trans (issue_slotBody_hold h hn), exec_slotarm.trans (issue_slotBody_hold h hn),
      exec_slotdis.trans (issue_slotBody_hold h hn)⟩,
    fun h hn => exec_slotrd.trans (issue_done_setFiring h (slotBody_of_inside hn) rfl), fun h hn => ?_,
    fun h hn => exec_slotrd.trans (issue_slotBody_beyond h hn)⟩
  simp only [List.forall_mem_cons]
  exact ⟨exec_slotset.trans (issue_slotBody_beyond h hn), exec_slotarm.trans (issue_slotBody_beyond h hn),
    exec_slotdis.trans (issue_slotBody_beyond h hn), List.forall_mem_nil _⟩

end Sys2Proof.Machine


/-! Tokens, channels, generators and launches at issue (R218 to R226, R357, R374). -/

namespace Sys2Proof.Machine

/-! ### Issues that hold an action -/

/-- The issue of an instruction that changes the state beside its firing and holds an action. -/
theorem issue_hold_setFiring {s s' : State} {f g : Firing} {a : Act} {body : Firing → State → Body} (h : s.Issues f true)
    (hb : body f s = .done ((s'.setFiring g).hold f a)) (hpc : g.pc = f.pc) : issue true body s = .next (s'.ranHeld f g a) := by
  rw [issue_done _ _ _ _ _ g h hb (by simp [State.hold, State.setFiring])]
  simp [State.ranHeld, Firing.nextHeld, b2n, State.hold, State.modCore, State.setFiring, hpc]

/-! ### Sends (R218 to R220, R374) -/

section
variable {s : State} {f : Firing} {th : Temp} {sig : Bool}

/-- The destination word of a send (R218). -/
def Firing.dest (f : Firing) (th : Temp) : Handle := (f.w th).setWidth 32

/-- A static destination is a route of the node: some output port that is present has it (R220). -/
theorem routePort_isSome {d : Rec} {dest : Handle} :
    (routePort d dest).isSome = true ↔ ∃ p, p < 4 ∧ ndOutEn d p = true ∧ routeWord d p = dest.toNat := by
  simp [routePort, List.find?_isSome]

/-- What R374 asks of a destination: a frame handle passes; a static one must be a route, but of a steward core, and port 0 for a
SIG. -/
theorem destOk_iff {dest : Handle} : destOk s f dest sig = true ↔ dest.getLsbD 0 = true ∨
    ((isSteward s.cur = true ∨ ∃ p, p < 4 ∧ ndOutEn (s.ndOf f) p = true ∧ routeWord (s.ndOf f) p = dest.toNat) ∧
      (sig = true → dest.toNat / 2 % 4 = 0)) := by
  have hport : fieldN dest 1 2 = dest.toNat / 2 % 4 := rfl
  rw [← routePort_isSome, ← hport]
  cases sig <;> simp [destOk]

theorem issue_sendBody_of_ok {a : Firing → Handle → Act} (h : s.Issues f true) (hd : destOk s f (f.dest th) sig = true) :
    issue true (sendBody sig th a) s = .next (s.ranHeld f f (a f (f.dest th))) :=
  issue_hold_same _ _ _ _ _ h (if_pos hd)

theorem issue_sendBody_faults {a : Firing → Handle → Act} (h : s.Issues f true) (hd : ¬ destOk s f (f.dest th) sig = true) :
    issue true (sendBody sig th a) s = .next (s.takeFault s.cur f 0x05 0x07 none) :=
  issue_trap _ _ _ _ _ _ _ h (if_neg hd)

end

section
variable {s : State} {rel : Option SendScope} {tv th : Temp} {n : Slot} {k : FWord} {amount : BitVec 9}

theorem exec_send : exec (.send rel tv th n k) s = execSend rel tv th n k s := rfl
theorem exec_sendv : exec (.sendv rel tv th n k) s = execSendv rel tv th n k s := rfl
theorem exec_sig : exec (.sig rel th n amount) s = execSig rel th n amount s := rfl
theorem exec_sigReg : exec (.sigReg rel tv th n) s = execSigReg rel tv th n s := rfl

end

/-- Settles O11: the four share the check of their destination. -/
theorem tokenSendsAreHeld : Obligations.TokenSendsAreHeld := by
  unfold Obligations.TokenSendsAreHeld
  intro s f rel tv th n k amount h dest routed handle toPort0 legal
  have hsend : destOk s f (f.dest th) false = true ↔ legal := by
    rw [destOk_iff]
    simp only [Bool.false_eq_true, false_implies, and_true]
    rfl
  have hsig : destOk s f (f.dest th) true = true ↔ legal ∧ (handle ∨ toPort0) := by
    rw [destOk_iff]
    change handle ∨ ((_ ∨ routed) ∧ (_ → toPort0)) ↔ (handle ∨ _ ∨ routed) ∧ (handle ∨ toPort0)
    tauto
  have hamount : (f.w tv).toNat % 2 ^ 23 = fieldN (f.w tv) 0 23 := (fieldN_low ..).symm
  refine ⟨fun hl => ⟨exec_send.trans (issue_sendBody_of_ok h (hsend.mpr hl)),
      exec_sendv.trans (issue_sendBody_of_ok h (hsend.mpr hl))⟩,
    fun hl hp => ⟨exec_sig.trans (issue_sendBody_of_ok h (hsig.mpr ⟨hl, hp⟩)), ?_⟩, fun hl => ?_, fun hh hp => ?_⟩
  · rw [hamount, exec_sigReg]
    exact issue_sendBody_of_ok h (hsig.mpr ⟨hl, hp⟩)
  · have hns : ¬ destOk s f (f.dest th) true = true := fun hd => hl (hsig.mp hd).1
    have hn : ¬ destOk s f (f.dest th) false = true := mt hsend.mp hl
    simp only [List.forall_mem_cons]
    exact ⟨exec_send.trans (issue_sendBody_faults h hn), exec_sendv.trans (issue_sendBody_faults h hn),
      exec_sig.trans (issue_sendBody_faults h hns), exec_sigReg.trans (issue_sendBody_faults h hns), List.forall_mem_nil _⟩
  · have hns : ¬ destOk s f (f.dest th) true = true := fun hd => (hsig.mp hd).2.elim hh hp
    simp only [List.forall_mem_cons]
    exact ⟨exec_sig.trans (issue_sendBody_faults h hns), exec_sigReg.trans (issue_sendBody_faults h hns), List.forall_mem_nil _⟩

/-! ### Channel inputs (R222, R357, R374) -/

section
variable {s : State} {f : Firing} {vec : Bool} {p : Port} {g : Firing → Token → State → State}

/-- A port that an input operation of a width may read: it is present and of that width (R374). -/
def InFits (d : Rec) (p : Nat) (vec : Bool) : Prop := ndInEn d p = true ∧ ndInVec d p = vec

theorem InFits.not_unfit {d : Rec} {p : Nat} (h : InFits d p vec) : ¬(ndInEn d p = false ∨ ndInVec d p ≠ vec) := by
  obtain ⟨he, hv⟩ := h
  simp [he, hv]

variable {held : Bool} {t : Token}

theorem readBody_of_token (hf : InFits (s.ndOf f) p.toNat vec) (ht : s.tokenAt f p.toNat = some t) (hp : tokPoison s t = false) :
    readBody vec p g f s = .done (g f t s) := by
  refine (if_neg hf.not_unfit).trans ?_
  rw [ht]
  exact if_neg (by simp [hp])

theorem issue_readBody_of_poison (h : s.Issues f held) (hf : InFits (s.ndOf f) p.toNat vec) (ht : s.tokenAt f p.toNat = some t)
    (hp : tokPoison s t = true) : issue held (readBody vec p g) s = .next (s.takePoison s.cur f none) := by
  refine issue_poison h ((if_neg hf.not_unfit).trans ?_)
  rw [ht]
  exact if_pos hp

theorem issue_readBody_of_empty (h : s.Issues f held) (hf : InFits (s.ndOf f) p.toNat vec) (ht : s.tokenAt f p.toNat = none) :
    issue held (readBody vec p g) s = .next (s.takeFault s.cur f 0x05 0x06 none) := by
  refine issue_trap _ _ _ _ _ _ _ h ((if_neg hf.not_unfit).trans ?_)
  rw [ht]

theorem issue_readBody_of_unfit (h : s.Issues f held) (hf : ¬ InFits (s.ndOf f) p.toNat vec) :
    issue held (readBody vec p g) s = .next (s.takeFault s.cur f 0x05 0x05 none) := by
  refine issue_trap _ _ _ _ _ _ _ h (if_pos ?_)
  rw [InFits, not_and_or, Bool.not_eq_true] at hf
  exact hf

theorem exec_chpop {td : Temp} : exec (.chpop vec td p) s = execChpop vec td p s := rfl

/-- CHPEEK with V is an input operation on a vector port (R222). -/
theorem exec_chpeek_data {td : Temp} : exec (.chpeek true td p) s =
    issue false (readBody true p fun f t s => s.setFiring ((f.setT td t.value).orFlags t.side)) s := rfl

/-- CHPEEK without V reads the info word of a present port (R222). -/
theorem exec_chpeek_info {td : Temp} : exec (.chpeek false td p) s =
    issue false (fun f s => if ndInEn (s.ndOf f) p.toNat then .done (s.setFiring (f.setW td (infoWord (s.tokenAt f p.toNat))))
      else .trap 0x05 0x05 none) s := rfl

end

/-! ### Channel outputs (R222, R374) -/

section
variable {s : State} {f : Firing} {p : Port} {ok : Rec → Firing → Bool} {a : Firing → Act}

theorem issue_outBody_of_ok (h : s.Issues f true) (he : ndOutEn (s.ndOf f) p.toNat = true) (hk : ok (s.ndOf f) f = true) :
    issue true (outBody p ok a) s = .next (s.ranHeld f f (a f)) :=
  issue_hold_same _ _ _ _ _ h (if_pos (by rw [he, hk]; rfl))

theorem issue_outBody_faults (h : s.Issues f true) (hf : ndOutEn (s.ndOf f) p.toNat = false ∨ ok (s.ndOf f) f = false) :
    issue true (outBody p ok a) s = .next (s.takeFault s.cur f 0x05 0x05 none) :=
  issue_trap _ _ _ _ _ _ _ h (if_neg (by rw [Bool.not_eq_true, Bool.and_eq_false_iff]; exact hf))

theorem exec_chpush {vec : Bool} {ta : Temp} : exec (.chpush vec ta p) s = execChpush vec ta p s := rfl
theorem exec_chend : exec (.chend p) s = execChend p s := rfl
theorem exec_chrcfg {ta : Temp} : exec (.chrcfg ta p) s = execChrcfg ta p s := rfl

theorem rcfgDepth_eq (f : Firing) (ta : Temp) : rcfgDepth f ta = (f.w ta).toNat % 2 ^ 14 := fieldN_low ..

end

/-- Settles O12: the input operations by the port and by what stands at the read position, the output operations by the port and by
what each asks beside its presence. -/
theorem channelInstructions : Obligations.ChannelInstructions := by
  unfold Obligations.ChannelInstructions
  refine ⟨?_, ?_⟩
  · intro s f vec td p d fits read
    refine ⟨fun t h hf ht hp => exec_chpop.trans (issue_hold_setFiring h (readBody_of_token hf ht hp) rfl),
      fun t h hf ht hp => exec_chpop.trans (issue_readBody_of_poison h hf ht hp),
      fun h hf ht => exec_chpop.trans (issue_readBody_of_empty h hf ht),
      fun h hf => exec_chpop.trans (issue_readBody_of_unfit h hf), fun t h hv hf ht hp => ?_, fun t h hv hf ht hp => ?_,
      fun h hv hf ht => ?_, fun h hv hf => ?_, fun h he => ?_, fun h he => ?_⟩
    · subst hv
      exact exec_chpeek_data.trans (issue_done_setFiring h (readBody_of_token hf ht hp) rfl)
    · subst hv
      exact exec_chpeek_data.trans (issue_readBody_of_poison h hf ht hp)
    · subst hv
      exact exec_chpeek_data.trans (issue_readBody_of_empty h hf ht)
    · subst hv
      exact exec_chpeek_data.trans (issue_readBody_of_unfit h hf)
    · exact exec_chpeek_info.trans (issue_trap _ _ _ _ _ _ _ h (if_neg (by rw [he]; exact Bool.false_ne_true)))
    · exact exec_chpeek_info.trans (issue_done_setFiring h (if_pos he) rfl)
  · intro s f vec ta p h d depth
    have hdepth : rcfgDepth f ta = depth := rcfgDepth_eq f ta
    refine ⟨fun he hv => exec_chpush.trans (issue_outBody_of_ok h he (beq_iff_eq.mpr hv)),
      fun he => exec_chend.trans (issue_outBody_of_ok h he rfl), fun he h1 h2 => ?_,
      fun hf => exec_chpush.trans (issue_outBody_faults h (hf.imp_right beq_false_of_ne)),
      fun hf => exec_chend.trans (issue_outBody_faults h (.inl hf)), fun hf => ?_⟩
    · rw [exec_chrcfg, ← hdepth]
      exact issue_outBody_of_ok h he (by rw [hdepth, decide_eq_true h1, decide_eq_true h2]; rfl)
    · refine exec_chrcfg.trans (issue_outBody_faults h (hf.imp_right fun hd => ?_))
      rw [hdepth, Bool.and_eq_false_iff, decide_eq_false_iff_not, decide_eq_false_iff_not]
      omega

/-! ### Generators and launches (R224 to R226, R374) -/

section
variable {s : State} {f : Firing} {td ta : Temp}

theorem exec_lgen : exec (.lgen td ta) s = execLgen td ta s := rfl
theorem exec_lgstop {g : Port} : exec (.lgstop g) s = execLgstop g s := rfl
theorem exec_launch : exec (.launch td ta) s = execLaunch td ta s := rfl

theorem execLgen_of_legal (h : s.Issues f true) (hd : lgenOk (f.t ta) = true) :
    execLgen td ta s = .next (s.ranHeld f (f.setW td 0) (.lgen (f.t ta))) :=
  issue_hold_setFiring h (if_pos hd) rfl

theorem execLgen_of_illegal (h : s.Issues f true) (hd : lgenOk (f.t ta) = false) :
    execLgen td ta s = .next (s.takeFault s.cur f 0x05 0x0A none) :=
  issue_trap _ _ _ _ _ _ _ h (if_neg (by rw [hd]; exact Bool.false_ne_true))

theorem execLaunch_of_illegal (h : s.Issues f true) (hd : launchOk (f.t ta) = false) :
    execLaunch td ta s = .next (s.takeFault s.cur f 0x05 0x0A none) :=
  issue_trap _ _ _ _ _ _ _ h (if_pos hd)

/-- With no entry free nothing is held, and T[td] is all ones (R226). -/
theorem execLaunch_of_full (h : s.Issues f true) (hd : launchOk (f.t ta) = true) (hw : s.freeWork (dieOf s.cur) = none) :
    execLaunch td ta s = .next (s.ran (f.setW td (BitVec.allOnes 64))) := by
  refine issue_refusal h ((if_neg (by simp [hd])).trans ?_)
  rw [hw]

/-- The entry that is free is reserved (R226). -/
theorem execLaunch_of_free {i : Nat} (h : s.Issues f true) (hd : launchOk (f.t ta) = true)
    (hw : s.freeWork (dieOf s.cur) = some i) :
    let w := launchWork s (s.work (dieOf s.cur) i) (f.t ta)
    let id := mkLaunch (dieOf s.cur) w.seq i
    execLaunch td ta s = .next ((s.setWork (dieOf s.cur) i w).ranHeld f
      { f.setW td (BitVec.ofNat 64 id) with launches := f.launches ++ [id] } (.launch id (f.t ta))) := by
  refine issue_hold_setFiring h ((if_neg (by simp [hd])).trans ?_) rfl
  rw [hw]

end

/-- Settles O13: LGEN and LAUNCH by their descriptors, LAUNCH also by the free entry of its die. -/
theorem generatorAndLaunchInstructions : Obligations.GeneratorAndLaunchInstructions := by
  unfold Obligations.GeneratorAndLaunchInstructions
  intro s f td ta g h d die
  exact ⟨fun hd => exec_lgen.trans (execLgen_of_legal h hd), fun hd => exec_lgen.trans (execLgen_of_illegal h hd),
    exec_lgstop.trans (issue_onlyHold _ s f h), fun hd => exec_launch.trans (execLaunch_of_illegal h hd),
    fun hd hw => exec_launch.trans (execLaunch_of_full h hd hw),
    fun i hd hw => ⟨rfl, rfl, rfl, rfl, exec_launch.trans (execLaunch_of_free h hd hw)⟩⟩

end Sys2Proof.Machine


/-! Job status, ingest submission, and the steward's commands at issue (R227 to R233, R285 to R287, R292, R377). -/

namespace Sys2Proof.Machine

section
variable {s : State} {f : Firing} {td ta : Temp}

/-! ### JSTAT, JCAN, INGS and INGQ (R285 to R287, R292) -/

theorem exec_jstat : exec (.jstat td ta) s = execJstat td ta s := rfl
theorem exec_jcan : exec (.jcan ta) s = execJcan ta s := rfl
theorem exec_ings : exec (.ings td ta) s = execIngs td ta s := rfl
theorem exec_ingq : exec (.ingq td) s = execIngq td s := rfl

theorem jstatWord_of_unnamed {core id : Nat} (h : s.jobNamed core id = none) : s.jstatWord core id = 0 := by
  rw [State.jstatWord, h]

theorem execJstat_of_issues (h : s.Issues f false) :
    execJstat td ta s = .next (s.ran (f.setW td (s.jstatWord s.cur ((f.w ta).toNat % 2 ^ 16)))) := by
  rw [← fieldN_low]
  exact issue_onlyFiring _ s f h rfl

theorem execJcan_of_issues (h : s.Issues f true) : execJcan ta s = .next (s.ranHeld f f (.jcan ((f.w ta).toNat % 2 ^ 16))) := by
  rw [← fieldN_low]
  exact issue_onlyHold _ s f h

theorem execIngs_of_failed {code : Nat} (h : s.Issues f true) (hc : ingsCheck s (f.t ta) = some code) :
    execIngs td ta s = .next (s.ran (f.setW td (refusalWord code))) := by
  refine issue_refusal h ?_
  dsimp only
  rw [hc]

/-- A message that passes its checks takes the die's next ticket (R287). -/
theorem execIngs_of_passed (h : s.Issues f true) (hc : ingsCheck s (f.t ta) = none) :
    let ticket := dieOf s.cur * 2 ^ 14 + (s.die (dieOf s.cur)).ticket
    execIngs td ta s = .next ((s.modDie (dieOf s.cur) (fun k => { k with ticket := (k.ticket + 1) % 16383 })).ranHeld f
      (f.setW td (BitVec.ofNat 64 ticket)) (.ings ticket (f.t ta))) := by
  refine issue_hold_setFiring h ?_ rfl
  dsimp only
  rw [hc]

/-! ### Commands of a steward core, and CANCEL (R227 to R233) -/

theorem exec_rplay : exec .rplay s = execRplay s := rfl
theorem exec_tlbinv : exec (.tlbinv ta) s = execTlbinv ta s := rfl
theorem exec_codeseal : exec (.codeseal td ta) s = privCommand "CODESEAL" td ta .codeseal s := rfl
theorem exec_place : exec (.place td ta) s = privCommand "PLACE" td ta .place s := rfl
theorem exec_cfgld : exec (.cfgld td ta) s = privCommand "CFGLD" td ta .cfgld s := rfl
theorem exec_cancel : exec (.cancel ta) s = execCancel ta s := rfl

theorem stewardIssue_onlyHold {m : String} {a : Firing → State → Act} (h : s.Issues f true) (hst : isSteward s.cur = true) :
    stewardIssue m true (onlyHold a) s = .next (s.ranHeld f f (a f s)) :=
  (stewardIssue_of_steward hst).trans (issue_onlyHold _ s f h)

/-- A command with a descriptor is held, with T[td] := 0 (R227). -/
theorem privCommand_of_steward {m : String} {a : Vec → Act} (h : s.Issues f true) (hst : isSteward s.cur = true) :
    privCommand m td ta a s = .next (s.ranHeld f (f.setW td 0) (a (f.t ta))) :=
  (stewardIssue_of_steward hst).trans (issue_hold_setFiring h rfl rfl)

theorem execCancel_of_issues (h : s.Issues f true) :
    execCancel ta s = .next (s.ranHeld f f (.cancel ((f.w ta).toNat % 2 ^ 16))) := by
  rw [← fieldN_low]
  exact issue_onlyHold _ s f h

end

/-- Settles O26: INGS by its checks, and the other instructions by what each reads or holds. -/
theorem statusAndCommandInstructions : Obligations.StatusAndCommandInstructions := by
  unfold Obligations.StatusAndCommandInstructions
  refine ⟨?_, ?_⟩
  · intro s f td ta id d die
    exact ⟨fun h => ⟨exec_jstat.trans (execJstat_of_issues h), jstatWord_of_unnamed,
        exec_ingq.trans (issue_onlyFiring _ s f h rfl)⟩,
      fun h => ⟨exec_jcan.trans (execJcan_of_issues h), fun code hc => exec_ings.trans (execIngs_of_failed h hc),
        fun hc => exec_ings.trans (execIngs_of_passed h hc)⟩⟩
  · intro s f td ta h
    exact ⟨fun hst => ⟨exec_rplay.trans (stewardIssue_onlyHold h hst), exec_tlbinv.trans (stewardIssue_onlyHold h hst),
        exec_codeseal.trans (privCommand_of_steward h hst), exec_place.trans (privCommand_of_steward h hst),
        exec_cfgld.trans (privCommand_of_steward h hst)⟩,
      exec_cancel.trans (execCancel_of_issues h)⟩

end Sys2Proof.Machine


/-! The instructions that only read registers and compute: what they leave as it is (R46, R173, R197, R207 to R209, R216, R248 to
R258). -/

namespace Sys2Proof.Machine

/-! ### What a firing keeps -/

/-- Between the firing f and the firing g no more than T[td] and the flag set changed; flags were added, or, with `same`, none. -/
structure Firing.WritesOnly (f g : Firing) (td : Temp) (same : Bool) : Prop where
  temps : ∀ u, u ≠ td → g.t u = f.t u
  pc : g.pc = f.pc
  issued : g.issued = f.issued
  held : g.held = f.held
  ctx : g.ctx = f.ctx
  kept : ∀ k, f.flags.getLsbD k = true → g.flags.getLsbD k = true
  same : same = true → g.flags = f.flags

section
variable {f : Firing} {td : Temp}

theorem Firing.writesOnly_setT {v : Vec} {same : Bool} : f.WritesOnly (f.setT td v) td same where
  temps _ hu := Firing.setT_other _ _ _ _ hu.symm
  pc := rfl
  issued := rfl
  held := rfl
  ctx := rfl
  kept _ hk := hk
  same _ := rfl

/-- Flags that an operation raises are added to the flag set (R173). -/
theorem Firing.WritesOnly.orFlags {g : Firing} {same : Bool} (h : f.WritesOnly g td same) (b : Byte) :
    f.WritesOnly (g.orFlags b) td false where
  temps := h.temps
  pc := h.pc
  issued := h.issued
  held := h.held
  ctx := h.ctx
  kept k hk := by rw [Firing.orFlags, BitVec.getLsbD_or, h.kept k hk, Bool.true_or]
  same := nofun

theorem Firing.orFlags_none (g : Firing) : g.orFlags flNone = g := by
  rw [Firing.orFlags, show flNone &&& 0x7F = 0#8 from rfl, BitVec.or_zero]

theorem laneFlags_none (n : Nat) : laneFlags (fun _ => flNone) n = flNone := by
  induction n with
  | zero => rfl
  | succ n ih => rw [laneFlags, ih]; rfl

/-- Lanes that raise no flag leave the flag set as it is. -/
theorem Firing.setLanes_of_noFlags {b : Nat} {g : Nat → Nat} :
    f.setLanes td b (fun i => (g i, flNone)) = f.setT td (ofLanes b g) := by
  rw [Firing.setLanes, laneFlags_none, Firing.orFlags_none]

end

/-! ### Instructions that write only their temporary -/

/-- The outcome is that of an instruction that waits, or that wrote no more than T[td] and flags and went on to the next word. -/
def OnlyComputes (s : State) (f : Firing) (td : Temp) (same : Bool) (o : Host.Outcome State Fault Refusal) : Prop :=
  o = .next s ∨ ∃ g, f.WritesOnly g td same ∧ o = .next (s.ran g)

section
variable {s : State} {f : Firing} {td : Temp} {same : Bool}

theorem onlyComputes_of_writesOnly {g : Firing → State → Firing} (h : s.Issues f false) (hg : f.WritesOnly (g f s) td same) :
    OnlyComputes s f td same (issue false (onlyFiring g) s) :=
  .inr ⟨g f s, hg, issue_onlyFiring _ s f h hg.pc⟩

theorem onlyComputes_setT {v : Firing → State → Vec} (h : s.Issues f false) :
    OnlyComputes s f td same (issue false (onlyFiring fun f s => f.setT td (v f s)) s) :=
  onlyComputes_of_writesOnly h Firing.writesOnly_setT

theorem onlyComputes_intOp {op : Word → Word → Word} {ta tb : Temp} (h : s.Issues f false) :
    OnlyComputes s f td true (intOp op td ta tb s) := onlyComputes_setT h

theorem onlyComputes_intOp1 {op : Word → Word} {ta : Temp} (h : s.Issues f false) :
    OnlyComputes s f td true (intOp1 op td ta s) := onlyComputes_setT h

theorem onlyComputes_setLanes {b : Nat} {g : Firing → State → Nat → Nat × Byte} (h : s.Issues f false) :
    OnlyComputes s f td false (issue false (onlyFiring fun f s => f.setLanes td b (g f s)) s) :=
  onlyComputes_of_writesOnly h (Firing.writesOnly_setT.orFlags (same := false) _)

theorem onlyComputes_varith {ty : FType} {rm : Rnd} {ta tb tc : Temp} {op : Fmt → Rnd → Num → Num → Num → Nat × Byte}
    (h : s.Issues f false) : OnlyComputes s f td false (varith ty rm td ta tb tc op s) := onlyComputes_setLanes h

theorem onlyComputes_vint {ty : IType} {ta tb : Temp} {op : Nat → Nat → Nat × Byte} (h : s.Issues f false) :
    OnlyComputes s f td false (vint ty td ta tb op s) := onlyComputes_setLanes h

/-- An integer lane operation that raises no flag. -/
theorem onlyComputes_vint_noFlags {ty : IType} {ta tb : Temp} {op : Nat → Nat → Nat} (h : s.Issues f false) :
    OnlyComputes s f td true (vint ty td ta tb (fun a b => (op a b, flNone)) s) :=
  onlyComputes_of_writesOnly h (Firing.setLanes_of_noFlags ▸ Firing.writesOnly_setT)

/-- A conversion waits for its code table, or writes its temporary (R256 to R258). -/
theorem onlyComputes_unless {busy : Firing → State → Bool} {g : Firing → State → Firing} (h : s.Issues f false)
    (hg : f.WritesOnly (g f s) td same) :
    OnlyComputes s f td same (issue false (fun f s => if busy f s then .wait else .done (s.setFiring (g f s))) s) := by
  cases hb : busy f s with
  | true => exact .inl (issue_wait _ _ _ _ h (if_pos hb))
  | false => exact .inr ⟨g f s, hg, issue_done_setFiring h (if_neg (by simp [hb])) hg.pc⟩

end

/-- Every instruction of `Instr.computes` only computes. -/
theorem onlyComputes_exec {s : State} {f : Firing} {i : Instr} {td : Temp} {same : Bool} (h : s.Issues f false)
    (hi : i.computes = some (td, same)) : OnlyComputes s f td same (exec i s) := by
  unfold exec
  cases i with
  | lih | addi | andi | ori | xori | shli | shri | srai | clz | popc => cases hi; exact onlyComputes_intOp1 h
  | add | sub | mul | mulh | div | divu | rem | and | or | xor | shl | shr | sra | min | max | slt | sltu =>
    cases hi
    exact onlyComputes_intOp h
  | li | sel | fself | fidx | vsel | vperm | vbcast | vext | vins => cases hi; exact onlyComputes_setT h
  | vand | vor | vxor | vshr | vsra => cases hi; exact onlyComputes_vint_noFlags h
  | viadd | visub | vimul | vshl => cases hi; exact onlyComputes_vint h
  | vadd | vsub | vmul | vfma | vfms | vmin | vmax | vdiv | vsqrt | vrcp | vrsq | vexp2 | vlog2 =>
    cases hi
    exact onlyComputes_varith h
  | vcmp => cases hi; exact onlyComputes_setLanes h
  | vred => cases hi; exact onlyComputes_of_writesOnly h (Firing.writesOnly_setT.orFlags (same := false) _)
  | vcvt => cases hi; exact onlyComputes_unless h (Firing.writesOnly_setT.orFlags (same := false) _)
  | venc => cases hi; exact onlyComputes_unless h (Firing.writesOnly_setT.orFlags (same := false) _)
  | vdec => cases hi; exact onlyComputes_unless h Firing.writesOnly_setT
  | _ => cases hi

/-- Settles O60: such an instruction waits, or has written its temporary and flags and gone on, which changes
the firing alone. -/
theorem computingInstructionsKeepTheRest : Obligations.ComputingInstructionsKeepTheRest := by
  unfold Obligations.ComputingInstructionsKeepTheRest
  intro s t f i td same h hi ht
  rcases onlyComputes_exec h hi with hw | ⟨g, hg, hr⟩
  · exact .inl (Host.Outcome.next.inj (ht.symm.trans hw))
  · obtain rfl : t = s.ran g := Host.Outcome.next.inj (ht.symm.trans hr)
    exact .inr ⟨g.next, rfl, setFiring_firing .., hg.temps, congrArg (· + 1) hg.pc, congrArg (· + 1) hg.issued, hg.held, hg.ctx,
      hg.kept, hg.same, fun _ => rfl, by simp [State.ran, State.setFiring], by simp [State.ran, State.setFiring],
      by simp [State.ran, State.setFiring], fun k hk => modCore_core_other _ _ _ _ hk.symm⟩

end Sys2Proof.Machine


/-! The address of a memory instruction (R236). -/

namespace Sys2Proof.Machine

/-- An offset counts elements: it is sign-extended and multiplied by the size (R236). -/
theorem memAddr_eq (f : Firing) (size : MemSize) (tb : Temp) (off : BitVec 14) :
    memAddr f size tb off = f.w tb + off.signExtend 64 * BitVec.ofNat 64 (memSz size) := by
  rw [memAddr, BitVec.ofInt_mul, BitVec.ofInt_natCast, BitVec.signExtend]

/-- Settles O14: the address of each size, where the size 1 of a byte drops out. -/
theorem memoryAddressIsBasePlusScaledOffset : Obligations.MemoryAddressIsBasePlusScaledOffset := by
  unfold Obligations.MemoryAddressIsBasePlusScaledOffset
  intro f tb off
  exact ⟨by rw [memAddr_eq, memSz, BitVec.mul_one], memAddr_eq f .h tb off, memAddr_eq f .w tb off, memAddr_eq f .d tb off,
    memAddr_eq f .v tb off⟩

end Sys2Proof.Machine


/-! Lanes of a temporary, and the vector instructions that compute on them: VARITH, VPERM, VCVT, VDEC, VENC and CTLD (R248 to R250,
R252 to R258, R374). -/

namespace Sys2Proof.Machine

/-! ### The lanes of a result (R248) -/

section
variable (b : Nat) (g : Nat → Nat)

theorem lanesNat_lt (n : Nat) : lanesNat b g n < 2 ^ (b * n) := by
  induction n with
  | zero => simp [lanesNat]
  | succ n ih =>
    have hg : g n % 2 ^ b + 1 ≤ 2 ^ b := Nat.mod_lt _ (Nat.two_pow_pos b)
    calc lanesNat b g n + g n % 2 ^ b * 2 ^ (b * n)
      _ < 2 ^ (b * n) + g n % 2 ^ b * 2 ^ (b * n) := by omega
      _ = (g n % 2 ^ b + 1) * 2 ^ (b * n) := by rw [Nat.succ_mul, Nat.add_comm]
      _ ≤ 2 ^ b * 2 ^ (b * n) := Nat.mul_le_mul_right _ hg
      _ = 2 ^ (b * (n + 1)) := by rw [← Nat.pow_add, Nat.mul_succ, Nat.add_comm]

/-- Digit i in base 2^b of the number that lanes make is lane i: a later lane is a multiple of 2^(b(i+1)), an earlier one is below
2^(bi). -/
theorem lanesNat_digit {i n : Nat} (hi : i < n) : lanesNat b g n / 2 ^ (b * i) % 2 ^ b = g i % 2 ^ b := by
  induction n with
  | zero => omega
  | succ n ih =>
    rw [lanesNat]
    rcases Nat.lt_succ_iff_lt_or_eq.1 hi with hlt | rfl
    · obtain ⟨k, rfl⟩ := Nat.exists_eq_add_of_lt hlt
      have hm : g (i + k + 1) % 2 ^ b * 2 ^ (b * (i + k + 1)) = 2 ^ (b * i) * (2 ^ b * (g (i + k + 1) % 2 ^ b * 2 ^ (b * k))) := by
        ring
      rw [hm, Nat.add_mul_div_left _ _ (Nat.two_pow_pos _), Nat.add_mul_mod_self_left, ih hlt]
    · rw [Nat.add_mul_div_right _ _ (Nat.two_pow_pos _), Nat.div_eq_of_lt (lanesNat_lt b g i), Nat.zero_add, Nat.mod_mod]

/-- The lanes of a word fit in it. -/
theorem toNat_ofNat_lanesNat {n w : Nat} (hw : b * n ≤ w) : (BitVec.ofNat w (lanesNat b g n)).toNat = lanesNat b g n :=
  (BitVec.toNat_ofNat _ w).trans (Nat.mod_eq_of_lt ((lanesNat_lt b g n).trans_le (Nat.pow_le_pow_right Nat.two_pos hw)))

theorem laneN_ofLanes {i : Nat} (hi : i < 512 / b) : laneN b (ofLanes b g) i = g i % 2 ^ b := by
  rw [laneN, ofLanes, toNat_ofNat_lanesNat b g (Nat.mul_div_le 512 b), lanesNat_digit b g hi]

end

theorem getLsbD_laneFlags (g : Nat → Byte) (n k : Nat) :
    (laneFlags g n).getLsbD k = (List.range n).any fun i => (g i).getLsbD k := by
  induction n with
  | zero => simp [laneFlags]
  | succ n ih => simp [laneFlags, ih, List.range_succ]

/-- Only the flags, bits 6 to 0, enter a flag set (R172, R173). -/
theorem Firing.getLsbD_orFlags (f : Firing) (b : Byte) (k : Nat) :
    (f.orFlags b).flags.getLsbD k = (f.flags.getLsbD k || (decide (k < 7) && b.getLsbD k)) := by
  have hm : (0x7F : Byte).getLsbD k = decide (k < 7) := Nat.testBit_two_pow_sub_one 7 k
  rw [Firing.orFlags, BitVec.getLsbD_or, BitVec.getLsbD_and, hm, Bool.and_comm]

section
variable (f : Firing) (td : Temp) (b : Nat) (g : Nat → Nat × Byte)

theorem Firing.setLanes_same : (f.setLanes td b g).t td = ofLanes b fun i => (g i).1 := Firing.setT_same f td _

theorem Firing.setLanes_other {u : Temp} (hu : u ≠ td) : (f.setLanes td b g).t u = f.t u := Firing.setT_other f td u _ hu.symm

@[simp] theorem Firing.setLanes_pc : (f.setLanes td b g).pc = f.pc := rfl

theorem Firing.getLsbD_setLanes (k : Nat) : (f.setLanes td b g).flags.getLsbD k =
    (f.flags.getLsbD k || (decide (k < 7) && (List.range (512 / b)).any fun i => (g i).2.getLsbD k)) := by
  rw [Firing.setLanes, Firing.getLsbD_orFlags, getLsbD_laneFlags, Firing.setT_flags]

end

section
variable {s : State} {f : Firing}

/-! ### VARITH (R249, R250) -/

/-- A lane operation on floating sources, in the type's format and with the rounding mode in force, changes T[td] and the flags
alone. -/
theorem varith_of_issues {ty : FType} {rm : Rnd} {td ta tb tc : Temp} {op : Fmt → Rnd → Num → Num → Num → Nat × Byte}
    (h : s.Issues f false) :
    let fm := ftFmt ty
    let x := fun t i => fm.decode (laneN fm.width (f.t t) i)
    varith ty rm td ta tb tc op s =
      .next (s.ran (f.setLanes td fm.width fun i => op fm (s.rmOf f rm) (x ta i) (x tb i) (x tc i))) :=
  issue_onlyFiring _ s f h rfl

section
variable {ty : FType} {rm : Rnd} {td ta tb tc : Temp}

theorem exec_vadd : exec (.vadd ty rm td ta tb) s = varith ty rm td ta tb 0 (fun fm m a b _ => rounded fm m (addX m a b)) s := rfl
theorem exec_vsub : exec (.vsub ty rm td ta tb) s =
    varith ty rm td ta tb 0 (fun fm m a b _ => rounded fm m (addX m a b.negate)) s := rfl
theorem exec_vmul : exec (.vmul ty rm td ta tb) s = varith ty rm td ta tb 0 (fun fm m a b _ => rounded fm m (mulX a b)) s := rfl
theorem exec_vfma : exec (.vfma ty rm td ta tb tc) s =
    varith ty rm td ta tb tc (fun fm m a b c => rounded fm m (fmaX m a b c)) s := rfl
theorem exec_vfms : exec (.vfms ty rm td ta tb tc) s =
    varith ty rm td ta tb tc (fun fm m a b c => rounded fm m (fmaX m a b c.negate)) s := rfl
theorem exec_vmin : exec (.vmin ty rm td ta tb) s =
    varith ty rm td ta tb 0 (fun fm _ a b _ => encoded fm (minMaxX false a b)) s := rfl
theorem exec_vmax : exec (.vmax ty rm td ta tb) s =
    varith ty rm td ta tb 0 (fun fm _ a b _ => encoded fm (minMaxX true a b)) s := rfl
theorem exec_vdiv : exec (.vdiv ty rm td ta tb) s =
    varith ty rm td ta tb 0 (fun fm m a b _ => encoded fm (divX fm m a b)) s := rfl
theorem exec_vsqrt : exec (.vsqrt ty rm td ta) s = varith ty rm td ta 0 0 (fun fm m a _ _ => encoded fm (sqrtX fm m a)) s := rfl
theorem exec_vrcp : exec (.vrcp ty rm td ta) s = varith ty rm td ta 0 0 (fun fm m a _ _ => encoded fm (vrcp fm m a)) s := rfl
theorem exec_vrsq : exec (.vrsq ty rm td ta) s = varith ty rm td ta 0 0 (fun fm m a _ _ => encoded fm (vrsq fm m a)) s := rfl
theorem exec_vexp2 : exec (.vexp2 ty rm td ta) s = varith ty rm td ta 0 0 (fun fm m a _ _ => encoded fm (vexp2 fm m a)) s := rfl
theorem exec_vlog2 : exec (.vlog2 ty rm td ta) s = varith ty rm td ta 0 0 (fun fm m a _ _ => encoded fm (vlog2 fm m a)) s := rfl

end

/-! ### VPERM (R252 to R254) -/

/-- An instruction whose result is one temporary. -/
theorem issue_setT {td : Temp} {v : Firing → State → Vec} (h : s.Issues f false) :
    issue false (onlyFiring fun f s => f.setT td (v f s)) s = .next (s.ran (f.setT td (v f s))) :=
  issue_onlyFiring _ s f h rfl

theorem laneIdx_eq (ty : VType) (v : Vec) : laneIdx ty v = v.toNat % 64 % (512 / ty.bits) := by
  rw [laneIdx, fieldN_low]
  rfl

/-! ### Conversions and code tables (R255 to R258, R374) -/

section
variable {src dst : VType} {r part : BitVec 3} {ct : Port} {td ta : Temp}

/-- Without a C8 type, VCVT names no code table, and r is its rounding mode (R256). -/
theorem execVcvt_of_noTable (h : s.Issues f false) (hs : src ≠ .c8) (hd : dst ≠ .c8) :
    execVcvt src dst r part td ta s = .next (s.ran (f.setLanes td dst.bits
      (vcvtLane (s.ctag 0) src dst (s.rmOf f (rndOfCode r.toNat)) part.toNat (f.t ta) (f.t td)))) :=
  issue_done_setFiring h (by simp [hs, hd]) rfl

/-- With a C8 type, r names the code table, and the rounding mode is the node's (R255, R256). -/
theorem execVcvt_of_idle (h : s.Issues f false) (hc : src = .c8 ∨ dst = .c8) (hb : s.ctldBusy (r.toNat % 4) = false) :
    execVcvt src dst r part td ta s = .next (s.ran (f.setLanes td dst.bits
      (vcvtLane (s.ctag (r.setWidth 2)) src dst (s.rmOf f .dyn) part.toNat (f.t ta) (f.t td)))) :=
  issue_done_setFiring h (by simp [hc, hb]) rfl

theorem execVcvt_of_busy (h : s.Issues f false) (hc : src = .c8 ∨ dst = .c8) (hb : s.ctldBusy (r.toNat % 4) = true) :
    execVcvt src dst r part td ta s = .next s :=
  issue_wait _ _ _ _ h (by simp [hc, hb])

theorem execVdec_of_idle (h : s.Issues f false) (hb : s.ctldBusy ct.toNat = false) :
    execVdec ct part td ta s = .next (s.ran (f.setT td (ofLanes 32 fun i =>
      codeContainer (s.ctag ct) (laneN 8 (f.t ta) (16 * part.toNat + i))))) :=
  issue_done_setFiring h (if_neg (by simp [hb])) rfl

theorem execVdec_of_busy (h : s.Issues f false) (hb : s.ctldBusy ct.toNat = true) : execVdec ct part td ta s = .next s :=
  issue_wait _ _ _ _ h (if_pos hb)

theorem execVenc_of_idle (h : s.Issues f false) (hb : s.ctldBusy ct.toNat = false) :
    execVenc ct part td ta s = .next (s.ran (f.setLanes td 8 fun j =>
      if 16 * part.toNat ≤ j ∧ j < 16 * part.toNat + 16 then
        (s.ctag ct).encode (fmtE8M10.decode (laneN 32 (f.t ta) (j - 16 * part.toNat) % 2 ^ 19))
      else (laneN 8 (f.t td) j, flNone))) :=
  issue_done_setFiring h (if_neg (by simp [hb])) rfl

theorem execVenc_of_busy (h : s.Issues f false) (hb : s.ctldBusy ct.toNat = true) : execVenc ct part td ta s = .next s :=
  issue_wait _ _ _ _ h (if_pos hb)

theorem execCtld_of_legal (h : s.Issues f true) (hk : ctldOk (f.w ta) = true) :
    execCtld ct ta s = .next (s.ranHeld f f (.ctld ct.toNat (f.w ta))) :=
  issue_hold_same _ _ _ _ _ h (if_pos hk)

theorem execCtld_of_illegal (h : s.Issues f true) (hk : ctldOk (f.w ta) = false) :
    execCtld ct ta s = .next (s.takeFault s.cur f 0x05 0x0A none) :=
  issue_trap _ _ _ _ _ _ _ h (if_neg (by simp [hk]))

end

end

/-- Settles O20: every operation of VARITH is one lane operation, and the lanes of a result read back as they were written. -/
theorem vectorArithmeticComputes : Obligations.VectorArithmeticComputes := by
  unfold Obligations.VectorArithmeticComputes
  refine ⟨fun s f ty rm td ta tb tc h => ?_, fun f td b g _ => ⟨fun i hi => ?_, fun u hu => f.setLanes_other td b g hu,
    f.setLanes_pc td b g, f.getLsbD_setLanes td b g⟩⟩
  · exact ⟨exec_vadd.trans (varith_of_issues h), exec_vsub.trans (varith_of_issues h), exec_vmul.trans (varith_of_issues h),
      exec_vfma.trans (varith_of_issues h), exec_vfms.trans (varith_of_issues h), exec_vmin.trans (varith_of_issues h),
      exec_vmax.trans (varith_of_issues h), exec_vdiv.trans (varith_of_issues h), exec_vsqrt.trans (varith_of_issues h),
      exec_vrcp.trans (varith_of_issues h), exec_vrsq.trans (varith_of_issues h), exec_vexp2.trans (varith_of_issues h),
      exec_vlog2.trans (varith_of_issues h)⟩
  · rw [Firing.setLanes_same, laneN_ofLanes b _ hi]

/-- Settles O22: every one writes a temporary, VCMP and VRED with flags; VEXT and VINS take their lane modulo the lane count. -/
theorem vectorPermutesMoveLanes : Obligations.VectorPermutesMoveLanes := by
  unfold Obligations.VectorPermutesMoveLanes
  intro s f ty cond op td ta tb tc h w n a b moves
  have hi : laneIdx ty (f.t tb) = (f.t tb).toNat % 64 % n := laneIdx_eq ty _
  refine ⟨issue_setT h, issue_setT h, issue_setT h, ?_, ?_, issue_onlyFiring _ s f h rfl, issue_onlyFiring _ s f h rfl⟩
  · rw [← hi]
    exact issue_setT h
  · simp only [moves, ← hi]
    exact issue_setT h

/-- Settles O23: each conversion by whether its table is being loaded, CTLD by its operand. -/
theorem conversionsComplete : Obligations.ConversionsComplete := by
  unfold Obligations.ConversionsComplete
  intro s f src dst r part ct td ta
  exact ⟨execVcvt_of_noTable, execVcvt_of_idle, execVcvt_of_busy, fun h hb => ⟨execVdec_of_idle h hb, execVenc_of_idle h hb⟩,
    fun h hb => ⟨execVdec_of_busy h hb, execVenc_of_busy h hb⟩, execCtld_of_legal, execCtld_of_illegal⟩

end Sys2Proof.Machine


/-! Tiles, the Press's commands and the messages of an ingest unit (R262, R263, R271, R275, R287 to R292, R374, R386 to R389). -/

namespace Sys2Proof.Machine

/-! ### Tiles and the Press's commands (R262, R263, R271, R275, R374) -/

/-- A zero field that reaches the top of a temporary: nothing stands above the bits below it. -/
theorem zeroF_top (d : Vec) {lo n : Nat} (h : lo + n = 512) : zeroF d lo n = decide (d.toNat / 2 ^ lo = 0) := by
  rw [zeroF, fieldN_top d h, beq_eq_decide]

section
variable {s : State} {f : Firing} {td ta : Temp} {tile : Slot}

/-- A command of the Press is held with T[td] := 0 where its descriptor is legal, and faults where it is not (R259, R374). -/
theorem pressCommand_of_issues (ok : Vec → Bool) (a : Vec → Act) (h : s.Issues f true) :
    (ok (f.t ta) = true → pressCommand td ta ok a s = .next (s.ranHeld f (f.setW td 0) (a (f.t ta)))) ∧
    (ok (f.t ta) = false → pressCommand td ta ok a s = .next (s.takeFault s.cur f 0x05 0x0A none)) :=
  ⟨fun hk => issue_hold _ _ _ _ _ _ h (if_pos hk) rfl, fun hk => issue_trap _ _ _ _ _ _ _ h (if_neg (by simp [hk]))⟩

theorem execTdef_of_issues (h : s.Issues f true) :
    (tdefOk (f.t ta) = true → execTdef tile ta s = .next (s.ranHeld f f (.tdef tile.toNat (f.t ta)))) ∧
    (tdefOk (f.t ta) = false → execTdef tile ta s = .next (s.takeFault s.cur f 0x05 0x0A none)) :=
  ⟨fun hk => issue_hold_same _ _ _ _ _ h (if_pos hk), fun hk => issue_trap _ _ _ _ _ _ _ h (if_neg (by simp [hk]))⟩

theorem exec_tdef : exec (.tdef tile ta) s = execTdef tile ta s := rfl
theorem exec_trel : exec (.trel tile) s = execTrel tile s := rfl
theorem exec_tstat : exec (.tstat td tile) s = execTstat td tile s := rfl
theorem exec_mxfmt : exec (.mxfmt td ta) s = pressCommand td ta mxfmtOk .mxfmt s := rfl
theorem exec_mxepi : exec (.mxepi td ta) s = pressCommand td ta mxepiOk .mxepi s := rfl
theorem exec_mxclr : exec (.mxclr td ta) s = pressCommand td ta (fun d => zeroF d 24 488) .mxclr s := rfl

end

/-- Settles O24: TDEF by its geometry, the three commands of the Press by one body, each with its own check. -/
theorem tileAndPressCommands : Obligations.TileAndPressCommands := by
  unfold Obligations.TileAndPressCommands
  intro s f td ta tile d g command
  refine ⟨fun h => ⟨?tdef, ?mxfmt, ?mxepi, ?mxclr, ?trel⟩, fun h => exec_tstat.trans (issue_setT h)⟩
  case tdef =>
    simp only [command, exec_tdef]
    exact execTdef_of_issues h
  case mxfmt =>
    simp only [command, exec_mxfmt]
    exact pressCommand_of_issues mxfmtOk .mxfmt h
  case mxepi =>
    simp only [command, exec_mxepi]
    exact pressCommand_of_issues mxepiOk .mxepi h
  case mxclr =>
    simp only [command, exec_mxclr, ← zeroF_top d (lo := 24) (n := 488) rfl]
    exact pressCommand_of_issues (fun d => zeroF d 24 488) .mxclr h
  case trel => exact exec_trel.trans (issue_onlyHold _ s f h)

/-! ### A token that leaves an ingest unit (R42, R291) -/

section
variable {s : State} {die : Nat} {m : IngMsg} {k : Token} {rest : List Token}

/-- The packet that carries a token of a message to its channel (R291). -/
def ingPacket (die : Nat) (m : IngMsg) (k : Token) : Packet :=
  { src := .ingest die, dst := .core m.core, cls := .token, tenant := m.ctx.tenant, msg := .chan (m.chan / 4 % 2 ^ 20) (m.chan % 4) k,
    held := false }

/-- Credits stand beside the messages of a die, and no change of a message spends one. -/
theorem modMsg_ingCredits (t : Nat) (g : IngMsg → IngMsg) : ((s.modMsg die t g).die die).ingCredits = (s.die die).ingCredits := by
  simp [State.modMsg]

theorem sendIng_of_short (h : tabGet 0 (s.die die).ingCredits m.chan < (k.cost : Int)) : s.sendIng die m k rest = s := if_pos h

/-- The state before the packet of a token is sent: the credit is spent, and the token is no longer to be sent. -/
def State.spendIng (s : State) (die : Nat) (m : IngMsg) (k : Token) (rest : List Token) : State :=
  (s.modDie die (fun d => { d with ingCredits := tabSet d.ingCredits m.chan (tabGet 0 d.ingCredits m.chan - (k.cost : Int)) })).modMsg
    die m.ticket (fun m => { m with out := some rest, progress := s.cycle })

theorem sendIng_of_credit (h : (k.cost : Int) ≤ tabGet 0 (s.die die).ingCredits m.chan) :
    s.sendIng die m k rest = (s.spendIng die m k rest).send (ingPacket die m k) := if_neg (not_lt.2 h)

theorem spendIng_credits : tabGet 0 ((s.spendIng die m k rest).die die).ingCredits m.chan =
    tabGet 0 (s.die die).ingCredits m.chan - (k.cost : Int) := by
  rw [State.spendIng, modMsg_ingCredits, modDie_die_same, tabGet_tabSet_same]

theorem sendIng_credits (h : (k.cost : Int) ≤ tabGet 0 (s.die die).ingCredits m.chan) :
    tabGet 0 ((s.sendIng die m k rest).die die).ingCredits m.chan = tabGet 0 (s.die die).ingCredits m.chan - (k.cost : Int) := by
  rw [sendIng_of_credit h, send_die_read, spendIng_credits]

/-- Where no pair is being rerouted, a packet sent enters the network as it is, behind what is there (R416). -/
theorem send_net_of_no_reroute {p : Packet} (hr : s.rerouting = []) (hp : p.held = false) : (s.send p).net = s.net ++ [p] := by
  simp [State.send, hr, ← hp]

theorem sendIng_net (h : (k.cost : Int) ≤ tabGet 0 (s.die die).ingCredits m.chan) (hr : s.rerouting = []) :
    (s.sendIng die m k rest).net = s.net ++ [ingPacket die m k] := by
  rw [sendIng_of_credit h]
  exact send_net_of_no_reroute hr rfl

/-- A token on its way to its channel has touched no memory and no core. -/
theorem sendIng_frame (h : (k.cost : Int) ≤ tabGet 0 (s.die die).ingCredits m.chan) :
    (s.sendIng die m k rest).mem = s.mem ∧ (s.sendIng die m k rest).cores = s.cores := by
  rw [sendIng_of_credit h]
  exact ⟨rfl, rfl⟩

end

/-! ### The steps of a message (R288 to R291, R386, R387) -/

section
variable {s : State} {die t : Nat} {m : IngMsg}

theorem exec_ingestToken : exec (.ingestToken die t) s = .next (ingestToken die t s) := rfl
theorem exec_quarantine : exec (.quarantine die t) s = .next (quarantine die t s) := rfl
theorem exec_ingestWatchdog : exec (.ingestWatchdog die t) s = .next (ingestWatchdog die t s) := rfl

theorem ingestToken_of_none (hm : s.ingMsg die t = none) : ingestToken die t s = s := by simp [ingestToken, hm]
theorem quarantine_of_none (hm : s.ingMsg die t = none) : quarantine die t s = s := by simp [quarantine, hm]
theorem ingestWatchdog_of_none (hm : s.ingMsg die t = none) : ingestWatchdog die t s = s := by simp [ingestWatchdog, hm]

variable (hm : s.ingMsg die t = some m)
include hm

theorem ingestToken_of_later (hf : (s.die die).first m = false) : ingestToken die t s = s := by simp [ingestToken, hm, hf]
theorem ingestWatchdog_of_later (hf : (s.die die).first m = false) : ingestWatchdog die t s = s := by simp [ingestWatchdog, hm, hf]

/-- A message that has made progress within 2^20 cycles is left alone, wherever it stands in its channel (R386). -/
theorem ingestWatchdog_of_progress (hc : s.cycle < m.progress + 2 ^ 20) : ingestWatchdog die t s = s := by
  have hw : s.cycle < m.progress + ingWatch := hc
  simp [ingestWatchdog, hm, hw]

variable (hf : (s.die die).first m = true)
include hf

theorem ingestToken_of_undecoded (ho : m.out = none) : ingestToken die t s = s.decodeMsg die m := by
  simp [ingestToken, hm, hf, ho]

theorem ingestToken_of_token {k : Token} {rest : List Token} (ho : m.out = some (k :: rest)) :
    ingestToken die t s = s.sendIng die m k rest := by
  simp [ingestToken, hm, hf, ho]

theorem ingestToken_of_sent (ho : m.out = some []) (hc : m.closed = true) (hn : s.ingOut die m = false) :
    ingestToken die t s = s.finishMsg die m := by
  simp [ingestToken, hm, hf, ho, hc, hn]

/-- An event of the fetch or the decompressor is acted on at once; one of a later stage after the tokens before it (R386, R387,
log 63). -/
theorem quarantine_of_event {code stage ofs used : Nat} (hb : m.bad = some (code, stage, ofs, used)) (hs : stage < 2 ∨ m.out = some []) :
    quarantine die t s = s.quarantineMsg die m code stage ofs used := by
  have hn : ¬((s.die die).first m = false ∨ (2 ≤ stage ∧ m.out ≠ some [])) := by
    rintro (h | ⟨h2, ho⟩)
    · exact Bool.false_ne_true (h.symm.trans hf)
    · exact hs.elim (Nat.not_lt.2 h2) ho
  simp only [quarantine, hm, hb]
  exact if_neg hn

/-- What lets the watchdog act is a credit in hand and 2^20 cycles without progress; of a message not yet decoded it records no byte
consumed (R386). -/
theorem ingestWatchdog_of_stuck (hcr : 1 ≤ tabGet 0 (s.die die).ingCredits m.chan) (hc : m.progress + 2 ^ 20 ≤ s.cycle) (ho : m.out = none) :
    ingestWatchdog die t s = s.quarantineMsg die m 0x40 4 0 0 := by
  have hw : ¬ s.cycle < m.progress + ingWatch := Nat.not_lt.2 hc
  simp [ingestWatchdog, hm, hf, ho, hw, not_lt.2 hcr]

end

/-- Settles O44: each step by the message, its place in its channel, what it still has to send, and its event. -/
theorem ingestMessagesMove : Obligations.IngestMessagesMove := by
  unfold Obligations.IngestMessagesMove
  intro s die t m
  simp only [exec_ingestToken, exec_quarantine, exec_ingestWatchdog]
  refine ⟨fun hm => ⟨?_, ?_, ?_⟩, fun hm hf => ⟨?_, ?_⟩, fun hm hf => ⟨fun ho => ?_, fun k rest ho hlow => ?_, fun k rest ho hcr => ?_,
    fun ho hc hn => ?_, fun code stage ofs used hb hs => ?_, fun hcr hc ho => ?_, fun hc => ?_⟩⟩
  · rw [ingestToken_of_none hm]
  · rw [quarantine_of_none hm]
  · rw [ingestWatchdog_of_none hm]
  · rw [ingestToken_of_later hm hf]
  · rw [ingestWatchdog_of_later hm hf]
  · rw [ingestToken_of_undecoded hm hf ho]
  · rw [ingestToken_of_token hm hf ho, sendIng_of_short hlow]
  · refine ⟨s.sendIng die m k rest, ?_, sendIng_credits hcr, sendIng_net hcr, sendIng_frame hcr⟩
    rw [ingestToken_of_token hm hf ho]
  · rw [ingestToken_of_sent hm hf ho hc hn]
  · rw [quarantine_of_event hm hf hb hs]
  · rw [ingestWatchdog_of_stuck hm hf hcr hc ho]
  · rw [ingestWatchdog_of_progress hm hc]

end Sys2Proof.Machine


/-! The collective commands and PUBL at issue; links that replay, errors that are detected, and stalls (R302, R308, R321, R362, R364,
R374, R402, R412 to R416, R431). -/

namespace Sys2Proof.Machine

/-! ### The collective commands and PUBL (R302, R321, R374) -/

section
variable {s : State} {f : Firing} {td ta : Temp} {scope : Scope}

theorem exec_hpdef : exec (.hpdef td ta) s = collective td ta .hpdef s := rfl
theorem exec_hpput : exec (.hpput td ta) s = collective td ta .hpput s := rfl
theorem exec_hpwait : exec (.hpwait td ta) s = collective td ta .hpwait s := rfl
theorem exec_turndef : exec (.turndef td ta) s = collective td ta .turndef s := rfl
theorem exec_reddef : exec (.reddef td ta) s = collective td ta .reddef s := rfl
theorem exec_redput : exec (.redput td ta) s = collective td ta .redput s := rfl
theorem exec_pbdef : exec (.pbdef td ta) s = collective td ta .pbdef s := rfl
theorem exec_publ : exec (.publ scope ta) s = execPubl scope ta s := rfl

theorem collective_of_issues {a : Vec → Act} (h : s.Issues f true) :
    collective td ta a s = .next (s.ranHeld f (f.setW td 0) (a (f.t ta))) :=
  issue_hold _ _ _ _ _ _ h rfl rfl

/-- The operand of PUBL has two zero fields, bits 15 to 14 and all from bit 48 (R321). -/
theorem publOk_iff {op : Word} : publOk op = true ↔ op.toNat / 2 ^ 14 % 4 = 0 ∧ op.toNat / 2 ^ 48 = 0 := by
  rw [publOk, Bool.and_eq_true, beq_iff_eq, beq_iff_eq, fieldN_top op (lo := 48) (n := 16) rfl]
  rfl

theorem execPubl_of_legal (h : s.Issues f true) (hk : publOk (f.w ta) = true) :
    execPubl scope ta s = .next (s.ranHeld f f (.publ scope (f.w ta))) :=
  issue_hold_same _ _ _ _ _ h (if_pos hk)

theorem execPubl_of_illegal (h : s.Issues f true) (hk : ¬ publOk (f.w ta) = true) :
    execPubl scope ta s = .next (s.takeFault s.cur f 0x05 0x0A none) :=
  issue_trap _ _ _ _ _ _ _ h (if_neg hk)

end

/-- Settles O19: the seven collective commands issue by one body, PUBL by the zero fields of its operand. -/
theorem collectiveCommandsAreHeld : Obligations.CollectiveCommandsAreHeld := by
  unfold Obligations.CollectiveCommandsAreHeld
  intro s f td ta scope h d g op
  exact ⟨exec_hpdef.trans (collective_of_issues h), exec_hpput.trans (collective_of_issues h),
    exec_hpwait.trans (collective_of_issues h), exec_turndef.trans (collective_of_issues h),
    exec_reddef.trans (collective_of_issues h), exec_redput.trans (collective_of_issues h),
    exec_pbdef.trans (collective_of_issues h), fun h1 h2 => exec_publ.trans (execPubl_of_legal h (publOk_iff.2 ⟨h1, h2⟩)),
    fun hn => exec_publ.trans (execPubl_of_illegal h (mt publOk_iff.1 hn))⟩

/-! ### Links (R412 to R416) -/

section
variable {s : State} {link : LinkId} {c d : Nat}

theorem exec_linkReplay {ok : Bool} : exec (.linkReplay link ok) s = .next (linkReplay link ok s) := rfl

theorem linkGone_torus : s.linkGone (.torus c d) = s.linkDead (c, d) := rfl

theorem linkReplay_of_gone {ok : Bool} (h : s.linkGone link = true) : linkReplay link ok s = s := if_pos h

/-- A corrected replay over a torus link sets the corr flag of the receiving router (R413, log 32). -/
theorem linkReplay_of_corrected (h : s.linkGone (.torus c d) = false) : linkReplay (.torus c d) true s =
    ((s.linkRecord (.torus c d) 0x01 5 1 true).setFlag (farRouter c d) 4).countReplay (.torus c d) :=
  (if_neg (ne_true_of_eq_false h)).trans (if_pos rfl)

theorem linkReplay_of_failed (h : s.linkGone link = false) : linkReplay link false s = s.retireLink link :=
  (if_neg (ne_true_of_eq_false h)).trans (if_neg Bool.false_ne_true)

/-- A torus link retires as a bit of its router's health word, which the record follows (R365, R414). -/
theorem retireLink_torus : s.retireLink (.torus c d) =
    (((s.reroute (.torus c d)).retireBit c (21 + d)).linkRecord (.torus c d) 0x03 4 2 false).redLost (.torus c d) := rfl

theorem linkDegradationClear_of_up (h : s.ports.contains 0 = true) : linkDegradationClear link s =
    (s.modDie (linkPlace link).1 (fun k => { k with
      degraded := k.degraded.filter (fun x => x != (linkPlace link).2),
      replays := tabDel k.replays (linkPlace link).2 })).redBack link := by
  rw [linkDegradationClear]
  exact managed_of_up h

end

/-! ### Detected errors (R362, R364, R402) -/

section
variable {s : State} {a : ErrorArray} {e : ErrInfo}

theorem exec_uncorrectableError {how : ErrorEnd} : exec (.uncorrectableError a how) s = .next (uncorrectableError a how s) := rfl

theorem uncorrectableError_of_none {how : ErrorEnd} (h : s.errorAt a = none) : uncorrectableError a how s = s := by
  simp only [uncorrectableError, h]

variable (h : s.errorAt a = some e)
include h

theorem uncorrectableError_of_ecc (hk : keptByEcc a = true) : uncorrectableError a .corrected s = s.noteError e 0 := by
  simp only [uncorrectableError, h, hk, if_true]

/-- Parity and checksums detect an error and correct none, so nothing was corrected (R362). -/
theorem uncorrectableError_of_noEcc (hk : keptByEcc a = false) : uncorrectableError a .corrected s = s := by
  simp only [uncorrectableError, h, hk, Bool.false_eq_true, if_false]

theorem uncorrectableError_of_retried : uncorrectableError a .retried s = s.noteError e 1 := by
  simp only [uncorrectableError, h]

theorem uncorrectableError_of_lasting : uncorrectableError a .lasting s = s.lasting e a := by
  simp only [uncorrectableError, h]

end

section
variable {s : State} {e : ErrInfo}

theorem lasting_coreTable {core : Nat} : s.lasting e (.coreTable core) =
    ((s.logErr { e with unit := 2, retry := 2 }).modCore core (fun k => { k with stopped := true })).retireCore core := rfl

theorem lasting_hbm {pa : Nat} : s.lasting e (.hbm pa) = (s.logErr { e with unit := 1, retry := 2 }).poisonLine pa := rfl

end

/-! ### Stalls (R431) -/

section
variable {s : State} {core i : Nat} {q : JobQueue} {j : Job}

theorem exec_stallDetection_frame : exec (.stallDetection (.frame core i)) s = .next (s.stallFrame core i) := rfl
theorem exec_stallDetection_job : exec (.stallDetection (.job q i)) s = .next (s.stallJob q i) := rfl

theorem stallFrame_of_quiet (h : ((s.core core).frame i).state = .free ∨ ((s.core core).frame i).reported = true ∨
    s.cycle ≤ ((s.core core).frame i).progress + s.stallLimit (dieOf core)) : s.stallFrame core i = s := if_pos h

/-- What is recorded of a frame that stalls with a code at a slot (R363, R431). -/
def State.stallInfo (s : State) (core i code slot : Nat) : ErrInfo :=
  let f := (s.core core).frame i
  { coreErr 0x14 code 5 core (s.tenantOf core) with
    slot := slot, vnode := f.vnode, colour := colourOf i f.gen, launch := f.launch, iter := f.iter,
    raw := (s.fword core i slot).toNat % 2 ^ 52 }

/-- The record names the stall detector's class, the code and the core. -/
theorem stallInfo_names {code slot : Nat} : (s.stallInfo core i code slot).cls = 0x14 ∧
    (s.stallInfo core i code slot).code = code ∧ (s.stallInfo core i code slot).slot = slot ∧
    (s.stallInfo core i code slot).core = core := by
  simp only [State.stallInfo, coreErr_eq_unitErr, unitErr, and_self]

theorem stallFrame_of_stall {code slot : Nat} (hs : ((s.core core).frame i).state ≠ .free)
    (hr : ((s.core core).frame i).reported = false)
    (hc : ((s.core core).frame i).progress + s.stallLimit (dieOf core) < s.cycle) (hf : s.frameStall core i = some (code, slot)) :
    s.stallFrame core i = ((s.logErr (s.stallInfo core i code slot)).setFlag (clusterOf core) 7).modFrame core i
      (fun f => { f with reported := true }) := by
  have hn : ¬(((s.core core).frame i).state = .free ∨ ((s.core core).frame i).reported = true ∨
      s.cycle ≤ ((s.core core).frame i).progress + s.stallLimit (dieOf core)) := by
    simp [hs, hr, hc]
  simp only [State.stallFrame, if_neg hn, hf]
  rfl

/-- Whatever state a job is in, it is no stall within the threshold or once reported (R431). -/
theorem stallJob_of_quiet (hj : s.jobIn q i = some j)
    (h : j.reported = true ∨ s.cycle ≤ j.progress + s.stallLimit (dieOf j.ctx.core)) : s.stallJob q i = s := by
  unfold State.stallJob
  rw [hj]
  exact if_pos (.inr h)

end

/-- Settles O51: a replay by its link and its end, an error by what its array holds and how it ends, a stall by its threshold. -/
theorem linksErrorsAndStallsAct : Obligations.LinksErrorsAndStallsAct := by
  unfold Obligations.LinksErrorsAndStallsAct
  intro s c d core i pa a q j
  simp only [exec_linkReplay, exec_linkDegradationClear, exec_uncorrectableError, exec_stallDetection_frame, exec_stallDetection_job,
    ← linkGone_torus]
  refine ⟨fun h ok => ?_, fun h => ⟨?_, ?_⟩, fun hp => ?_, fun h how => ?_, fun e h => ⟨fun hk => ?_, fun hk => ?_, ?_, ?_, ?_⟩,
    ⟨fun h => ?_, fun code slot hs hr hc hf => ?_⟩, fun hj h => ?_⟩
  · rw [linkReplay_of_gone h]
  · rw [linkReplay_of_corrected h]
  · rw [linkReplay_of_failed h, retireLink_torus]
  · rw [linkDegradationClear_of_up hp]
  · rw [uncorrectableError_of_none h]
  · rw [uncorrectableError_of_ecc h hk, State.noteError]
  · rw [uncorrectableError_of_noEcc h hk]
  · rw [uncorrectableError_of_retried h, State.noteError]
  · rintro rfl
    rw [uncorrectableError_of_lasting h, lasting_coreTable]
  · rintro rfl
    rw [uncorrectableError_of_lasting h, lasting_hbm]
  · rw [stallFrame_of_quiet h]
  · exact ⟨_, s.stallInfo core i code slot, congrArg _ (stallFrame_of_stall hs hr hc hf), rfl, stallInfo_names⟩
  · rw [stallJob_of_quiet hj h]

end Sys2Proof.Machine
